-- ==== Sys2Proof/Word.lean ====
section
/-! DEFINITION. The word types and the canonical sparse map that every addressed store of the state uses:
registers, memory bytes and the tables of numbered objects. -/

namespace Sys2Proof

/-- A register word, 32 bits wide (R30). -/
abbrev Word := BitVec 32

/-- A byte of an addressed memory. -/
abbrev Byte := BitVec 8

/-- A sparse map from natural keys to values, as a list of key and value pairs. What an unlisted key reads as is given by
a default function that each use names; the canonical form is `Sparse.wf`. -/
abbrev Sparse (β : Type) := List (Nat × β)

namespace Sparse

variable {β : Type}

/-- The value at key `k`: the listed value, or the default. -/
def get (d : Nat → β) : Sparse β → Nat → β
  | [], k => d k
  | (a, v) :: m, k => if k = a then v else get d m k

/-- Remove key `k`. -/
def erase : Sparse β → Nat → Sparse β
  | [], _ => []
  | (a, v) :: m, k => if k = a then erase m k else (a, v) :: erase m k

/-- Put a value at key `k` in key order, in place of a listed one. -/
def insert : Sparse β → Nat → β → Sparse β
  | [], k, v => [(k, v)]
  | (a, w) :: m, k, v =>
    if k = a then (k, v) :: m else if k < a then (k, v) :: (a, w) :: m else (a, w) :: insert m k v

/-- Write the value `v` at key `k`, keeping the canonical form: writing the default removes the entry. -/
def set [DecidableEq β] (d : Nat → β) (m : Sparse β) (k : Nat) (v : β) : Sparse β :=
  if v = d k then erase m k else insert m k v

/-- The keys rise strictly from `lo` on. -/
def sortedFrom : Nat → Sparse β → Bool
  | _, [] => true
  | lo, (a, _) :: m => decide (lo ≤ a) && sortedFrom (a + 1) m

/-- No listed value equals what its key would read as unlisted. -/
def noDefault [DecidableEq β] (d : Nat → β) : Sparse β → Bool
  | [] => true
  | (a, v) :: m => decide (v ≠ d a) && noDefault d m

/-- The canonical form: keys strictly rising, no entry equal to the default. -/
def wf [DecidableEq β] (d : Nat → β) (m : Sparse β) : Bool :=
  sortedFrom 0 m && noDefault d m

end Sparse

end Sys2Proof
end

