-- ==== Sys2Proof/Syntax.lean ====
section
/-! DEFINITION. The commands the block takes, one constructor for each row of the opcode table, and the operand types
they carry. -/

namespace Sys2Proof

/-- An engine die E0 to E5 (R1). -/
abbrev Die := Fin 6

/-- The five access ports of the register pages, in the order of their codes (R40). -/
inductive Port
  | sill | i2c | pcie | ranori | core
deriving DecidableEq, Repr

/-- The code of a port (R40). -/
def Port.code : Port → Nat
  | .sill => 0 | .i2c => 1 | .pcie => 2 | .ranori => 3 | .core => 4

/-- Who makes an access: the port and, on the core port, the bus matrix master (R45). -/
structure Src where
  port : Port
  master : Nat
deriving DecidableEq, Repr

/-- The block types of R29. -/
inductive Block
  | sys | cas | mtx | mgt | flt | sil | sec | i2c | pci | qsp | drm | hng | phc | ref | str | slu | xpt | sht
  | dpl | mac | tdm | aes
  | pen | bqd | fir | dly | fen | lnk | rcx
  | mod | sns | rail | sdi | dec
deriving DecidableEq, Repr

/-- A register page: the block and its number (DPLk, MACk, TDMk, AESk, MODk by k; engine pages by die; RCXk of die n by
4n + k; 0 for a single page). -/
structure Page where
  block : Block
  inst : Nat
deriving DecidableEq, Repr

/-- A Shutter's site (R94). `kind` is coded as SHT.SEL.KIND, `sinkKind` as CAS.LAT_SEL.SINK_KIND. -/
structure ShutterId where
  kind : Nat
  sinkKind : Nat
  index : Nat
deriving DecidableEq, Repr

/-- An input that can be a bundle member (R86): receive stream 0, AES3 receiver 1, TDM port 2, sigma-delta input 3 or
Reed-core output 4 by its number, with the code of the origin kind of R69. -/
structure InputId where
  kind : Nat
  num : Nat
deriving DecidableEq, Repr

/-- A sink, by SINK_KIND and number (R68). -/
structure SinkId where
  kind : Nat
  num : Nat
deriving DecidableEq, Repr

/-- The settings of a Shutter in a configuration (R74, R108). Times are in 0.5 ms units. -/
structure ShutCfg where
  gain : Word := 0x20000000
  shut : Bool := false
  law : Nat := 0
  ramp : Nat := 20
  restore : Nat := 40
deriving DecidableEq, Repr

/-- A source and its input strip (R69, R70). `delay` and `fraction` are the configured delay in samples and 1/256 sample, `state`
and `ring` the Fen offsets of its filter state and of its delay ring. -/
structure SourceCfg where
  num : Nat
  kind : Nat
  origin : Nat
  die : Nat
  delay : Nat := 0
  fraction : Nat := 0
  state : Nat := 0
  ring : Nat := 0
  fenClass : Bool := false
  sections : Nat := 0
  bundle : Nat := 0
  loc0 : Nat := 0
  loc1 : Nat := 0
  sh : ShutCfg := {}
deriving DecidableEq, Repr

/-- A bus and its bus strip (R70, R72), with the Fen offset of its filter state. -/
structure BusCfg where
  num : Nat
  die : Nat
  state : Nat := 0
  sections : Nat := 0
  hook : Bool := false
  loc0 : Nat := 0
  loc1 : Nat := 0
  sh : ShutCfg := {}
deriving DecidableEq, Repr

/-- A crosspoint of a configuration, by its table entry (R74). -/
structure XpCfg where
  entry : Nat
  fromBus : Bool := false
  source : Nat
  bus : Nat
  gain : Word := 0x20000000
  law : Nat := 0
  ramp : Nat := 20
  tag : Nat := 0
deriving DecidableEq, Repr

/-- An output strip (R70, R71). `segments` counts FIR segments of 64 taps, `delayQ8` is the delay in 1/256 sample,
`frac` the structural FRAC and `dram` the delay class (R82, R145). `chan` is the DRAM channel of the ring (R301). `state` is the Fen
offset of its state words, `fenRing` that of its FEN-class ring or 64-sample tail, `ring` the byte offset of its DRAM ring,
and `window` and `window2` the Fen offsets of its read windows (R146). -/
structure StripCfg where
  num : Nat
  inBus : Bool
  input : Nat
  die : Nat
  sections : Nat := 0
  segments : Nat := 0
  delayQ8 : Nat := 0
  frac : Bool := false
  dram : Bool := false
  fenClass : Bool := false
  loc0 : Nat := 0
  loc1 : Nat := 0
  firLoc0 : Nat := 0
  firLoc1 : Nat := 0
  firHist : Nat := 0
  ring : Nat := 0
  chan : Nat := 0
  window : Nat := 0
  window2 : Nat := 0
  state : Nat := 0
  fenRing : Nat := 0
  sh : ShutCfg := {}
deriving DecidableEq, Repr

/-- A sink and its feed (R71): `feedKind` 0 source, 1 bus, 2 output strip, and any other none. -/
structure SinkCfg where
  id : SinkId
  feedKind : Nat
  feed : Nat
  bundle : Nat := 0
  sh : ShutCfg := {}
deriving DecidableEq, Repr

/-- A bundle's input members and the Sluice depth its streams play out from (R86, R88). -/
structure BundleCfg where
  num : Nat
  inputs : List InputId
  depth : Nat := 0
deriving DecidableEq, Repr

/-- One work item, in the units that R54 charges: the crosspoints it sums, by table entry, the sources, buses and output
strips whose strips it runs, its runs of FIR segments as strip and count, and the strips whose partial sums it joins, once
for each (R141). -/
structure ItemCfg where
  die : Nat
  slot : Nat
  item : Nat
  xps : List Nat := []
  ins : List Nat := []
  buses : List Nat := []
  outs : List Nat := []
  segs : List (Nat × Nat) := []
  joins : List Nat := []
deriving DecidableEq, Repr

/-- Where a block of one casement lies in a die's Fen: the input block of a source (kind 0), or the block that leaves an
input, bus or output strip (kinds 1 to 3); where it comes from elsewhere, the link of the die on which it arrives (R122). -/
structure BlockCfg where
  die : Nat
  kind : Nat
  num : Nat
  off : Nat
  link : Nat := 0
deriving DecidableEq, Repr

/-- Where the partial sum of a bus that an item of die `src` forms lies, in the Fen of `die`, and the link of that die on which
it arrives from another (R12, R122, R125). -/
structure PsumCfg where
  bus : Nat
  src : Nat
  slot : Nat
  item : Nat
  die : Nat
  off : Nat
  link : Nat := 0
deriving DecidableEq, Repr

/-- Where the partial sum that a later item of a split FIR chain forms lies in Fen (R141). -/
structure PartCfg where
  strip : Nat
  slot : Nat
  item : Nat
  off : Nat
deriving DecidableEq, Repr

/-- What crosses one Lintel link in one direction each casement (R54): `link` is the budget number 0x48 to 0x55 of R59. `old`
is what the old routes add in a transition: the casements from and to, the channel blocks and the partial sums (R84). -/
structure LinkCfg where
  link : Nat
  up : Bool
  blocks : Nat := 0
  psums : Nat := 0
  old : List (Nat × Nat × Nat × Nat) := []
deriving DecidableEq, Repr

/-- Rank 0 transfers into one matrix target each casement (R54): the sizes in bytes, by budget number 0x60 to 0x64, and in
`old` those that the old routes add from one casement of a transition to another. -/
structure TargetCfg where
  target : Nat
  sizes : List Nat
  old : List (Nat × Nat × List Nat) := []
deriving DecidableEq, Repr

/-- A Reed program of a configuration: its slot, budget, entry and ports, its local region, its Fen windows as offset and
length in bytes, the feeds of its input ports as feed kind and number (of a hook, its bus), the Fen offsets of its input
and output blocks, and its program words (R158, R160, R182). -/
structure ReedCfg where
  die : Nat
  core : Nat
  slot : Nat
  budget : Nat
  entry : Nat
  nin : Nat
  nout : Nat
  inFirst : Nat := 0
  outFirst : Nat := 0
  hook : Bool := false
  regionBase : Nat := 0
  regionLen : Nat := 0
  windows : List (Nat × Nat) := []
  inOffs : List Nat := []
  outOffs : List Nat := []
  progBase : Nat := 0
  program : List Word := []
  data : List Word := []
  feeds : List (Nat × Nat) := []
deriving DecidableEq, Repr

/-- A Reed core's image: IMASK, the handler region and windows, and its code (R160, R175). -/
structure ReedImageCfg where
  die : Nat
  core : Nat
  imask : Nat := 0
  cbase : Nat := 0
  windows : List (Nat × Nat) := []
  progBase : Nat := 0
  code : List Word := []
deriving DecidableEq, Repr

/-- A receive stream of a configuration (R196, R204). -/
structure RxStreamCfg where
  num : Nat
  interop : Bool := false
  dual : Bool := true
  port : Nat := 0
  partner : Bool := false
  frameBytes : Nat := 0
  eid : Nat := 0
  version : Nat := 2
  bundle : Nat := 0
  depth : Nat := 2
  channels : Nat := 1
  first : Nat := 0
  ptime : Nat := 0
  udpDst : Nat := 0
  pt : Nat := 0
  dstAddr : Nat := 0
  /-- The four source places of R196, step 1; `none` where not given. -/
  srcs : List (Option Nat) := []
  senderEid : Nat := 0
  partnerEid : Nat := 0
  ssrc : Nat := 0
  rtpOffset : Nat := 0
  ringBase : Nat := 0
deriving DecidableEq, Repr

/-- A transmit stream of a configuration (R193, R204). -/
structure TxStreamCfg where
  num : Nat
  interop : Bool := false
  dual : Bool := true
  port : Nat := 0
  eid : Nat := 0
  channels : Nat := 1
  first : Nat := 0
  dscp : Nat := 46
  ptime : Nat := 0
  udpDst : Nat := 0
  pt : Nat := 0
  frameBytes : Nat := 0
  /-- Destination address, source UDP port, TTL or hop limit, IP version 6, the source address on each port (R189, R194), the
  SSRC and OFFSET of an interop stream (R191, R192), and SOFF (R333). -/
  dst : Nat := 0
  udpSrc : Nat := 0
  ttl : Nat := 32
  ipv6 : Bool := false
  srcs : List Nat := []
  ssrc : Nat := 0
  rtpOffset : Nat := 0
  soff : Nat := 0
deriving DecidableEq, Repr

/-- A compiled configuration: the image's objects with the placement and the schedule that the route compiler gave
them. The image's own format is not in the spec, so the compiler's reading of it is given whole. -/
structure Cfg where
  rate : Nat := 3
  sources : List SourceCfg := []
  buses : List BusCfg := []
  xpoints : List XpCfg := []
  strips : List StripCfg := []
  sinks : List SinkCfg := []
  bundles : List BundleCfg := []
  items : List ItemCfg := []
  blocks : List BlockCfg := []
  psums : List PsumCfg := []
  parts : List PartCfg := []
  links : List LinkCfg := []
  targets : List TargetCfg := []
  dramBytes : Nat := 0
  fenKib : List Nat := []
  reeds : List ReedCfg := []
  reedImages : List ReedImageCfg := []
  steerLoc : List (Nat × Nat) := []
  rx : List RxStreamCfg := []
  tx : List TxStreamCfg := []
  /-- Words of the REF and DPL registers (R233): page, offset, slot number of a banked register, and value. -/
  refpol : List (Page × Nat × Nat × Word) := []
  /-- Structural AES, TDM and DEC words that the job stages (R255), and MAC.RXCLASS (R208), coefficient blocks by strip kind, index and words, and
  FIR taps by strip (R138, R142). -/
  staged : List (Page × Nat × Nat × Word) := []
  coeffs : List (Nat × Nat × List Word) := []
  taps : List (Nat × List Word) := []
  /-- Strips in force whose delay the job sets, by kind 1 or 3 and number, with the DURATION of the change (R151), and the
  Fen ranges of biquad state that it clears, by die, offset and length (R91). -/
  glides : List (Nat × Nat × Nat) := []
  zeros : List (Nat × Nat × Nat) := []
  /-- NODE EID and CLOCK_WAIT in seconds, of an image that comes from a saved configuration (R344, R373). -/
  eid : Nat := 0
  clockWait : Nat := 30
deriving DecidableEq, Repr

/-- A request presented to the bus matrix (R41): master, transaction ID, target, beats, and whether it goes to the PCIe
outbound region (R44). `bridge` names the bridge on the target side, by its master number. -/
structure MatrixReq where
  master : Nat
  id : Nat
  target : Nat
  beats : Nat
  outbound : Bool := false
  bridge : Option Nat := none
  /-- Hub cycles after the first of the requests at which it is presented (R41). -/
  arrive : Nat := 0
deriving DecidableEq, Repr

/-- A register write of another port that reaches the same page in the same hub cycle as a command (R40). -/
structure PortWrite where
  src : Src
  off : Nat
  value : Word
  bytes : Nat := 4
deriving DecidableEq, Repr

/-- A work item not complete at the work deadline: its die, unit (as CAS.OVR_INFO.UNIT) and item number, and whether
late input on a link was the cause (R64). -/
structure Unfinished where
  die : Die
  unit : Nat
  item : Nat
  late : Bool
deriving DecidableEq, Repr

/-- Pipeline work of a path-engine item, in the order the item performs it. Addresses are byte offsets in the die's Fen.
Product formats are the fractional shifts of R111 (0, 1 or 2). -/
inductive EngineOp
  /-- Clear the accumulator. -/
  | clear
  /-- Load a Q10.62 partial sum of another die, 12 bytes (R125), or of a split chain (R141), into the accumulator sum. -/
  | addPartial (off : Nat)
  /-- Multiply the sample at `x` by the word at `c` and accumulate, aligned by `shift` bits (R111). -/
  | mac (x c shift : Nat)
  /-- Multiply sample number `t` of the casement, at `x`, by a Shutter's control gain and protect factor and accumulate
  (R94). -/
  | gain (x : Nat) (sh : ShutterId) (t : Nat)
  /-- Multiply the sample at `x` by a factor in Q3.29 (R267). -/
  | scale (x : Nat) (factor : Word)
  /-- Store the accumulator as a Q1.31 sample (R112). -/
  | storeSample (off : Nat)
  /-- Store the accumulator as a Q2.62 state word (R112). -/
  | storeState (off : Nat)
  /-- Store the accumulator at full width with its residue, as a partial sum (R125, R141). -/
  | storePartial (off : Nat)
  /-- A second-order section: sample in place at `x`, record at `rec`, state at `st` (R128, R132). -/
  | biquad (x rec st : Nat)
  /-- TRIM of the sample at `x` by the record at `rec` (R131). -/
  | trim (x rec : Nat)
  /-- A FIR run: taps at `taps`, `count` of them, against the history ring at `hist` of `ring` samples whose newest
  sample is at index `pos`; `from` is the first tap index (R140, R141). -/
  | fir (taps hist ring pos start count : Nat)
  /-- The peak limiter on the sample at `x`, record at `rec`, gain word at `st`, hold count at `hold` (R143). -/
  | limiter (x rec st hold strip : Nat)
  /-- The fractional interpolator: x[n-B-1] at `x1` and x[n-B] at `x0`, delay δ in 1/256 sample (R147, R148). -/
  | interp (x1 x0 frac out st : Nat)
  /-- The state word at `st` starts from the sample at `x` (R155). -/
  | seed (x st : Nat)
  /-- Sample `t` of a crossfade of `len` samples from `a` to `b` (R83, R149, R155). -/
  | mix (a b out t len : Nat)
  /-- Copy the word at `src` to `dst`: a ring, a staging block or half a state word. -/
  | copy (src dst : Nat)
deriving DecidableEq, Repr

/-- What a Lintel transfer carries to an engine die (R52, R125): the input block of a source, a block that leaves a strip on
another die (kinds 1 to 3 of `BlockCfg`), or the partial sum of a bus from an item of another die. -/
inductive Lintel
  | input (source : Nat)
  | block (kind num : Nat)
  | psum (bus src slot item : Nat)
deriving DecidableEq, Repr

/-- Who meets a poisoned DRAM burst (R308): the stream engine, for a port's rings; the delay-line mover, for a strip; or any
other master. -/
inductive PoisonReader
  | streamEngine (port : Fin 4) | delayMover (strip : Nat) | other
deriving DecidableEq, Repr

/-- Events that fade a bundle (R87). -/
inductive BundleCause
  | underrun (input : InputId) | unfinished | validation (input : InputId)
deriving DecidableEq, Repr

/-- A cell of a sense stream (R285): a bit, or the marker that stands for a pair of bits. -/
inductive SenseCell
  | bit (b : Bool) | marker
deriving DecidableEq, Repr

/-- The sense stream of a channel over a casement. -/
structure SenseIn where
  ch : Nat
  cells : List SenseCell
deriving DecidableEq, Repr

/-- What the environment brings to a casement boundary: whether some die could not confirm its group snapshot (R36); measured engine and
reserve load in percent (CAS.LOAD); the digests of streams and release groups over the casement, with VALID (R334); the launch time in ns of the casement's packets (STR.LAUNCH) and the streams whose
packets of the previous casement had not been handed over (R193). -/
structure BoundaryIn where
  unconfirmed : Bool := false
  engNow : Nat := 0
  reserveUsed : Nat := 0
  launchNs : Nat := 0
  lateStreams : List Nat := []
  /-- The sense streams of the casement that ends (R285). -/
  sense : List SenseIn := []
  /-- Bursts that the reserve lets migration copy in this casement (R311). -/
  migCopies : Nat := 2048
  /-- Peak loads of the engine dies' links in percent: die, then up and down of link 0 and of link 1 (LNK.LOAD). -/
  linkLoads : List (Nat × Nat × Nat × Nat × Nat) := []
  /-- Decimators whose output has saturated (R270). -/
  decSats : List Nat := []
  /-- Blocks that AES3, TDM and sigma-delta inputs have gathered over the casement that ends, by source (R52)
  (DESIGN CHOICE, notes/assumptions/169.md). -/
  inputs : List (Nat × List Word) := []
deriving DecidableEq, Repr

/-- The operand that an immediate or an extension word may replace (R178, R179). Immediates are given sign-extended. -/
inductive Opnd
  | reg (r : Fin 16)
  | imm (v : Word)
  | ext (v : Word)
deriving DecidableEq, Repr

/-- How a Reed load or store addresses its data: through a pointer in a mode AM of R169, or by an extension word. -/
inductive ReedAddr
  | ptr (p : Fin 8) (am : Fin 4)
  | ext (a : BitVec 15)
deriving DecidableEq, Repr

/-- A Reed branch target: a signed word offset from the instruction, or the absolute address of an extension (R178). -/
inductive ReedTarget
  | off (o : Int)
  | ext (a : BitVec 14)
deriving DecidableEq, Repr

/-- The count of a REP (R173): an immediate of 1 to 256, or a register. -/
inductive RepCount
  | imm (n : Fin 256)
  | reg (r : Fin 16)
deriving DecidableEq, Repr

/-- Branch conditions of R179. -/
inductive Cond
  | al | eq | ne | lt | ge | le | gt | vs | vc
deriving DecidableEq, Repr

/-- The load that a MAC class instruction may carry: destination, pointer and mode. -/
structure MacLoad where
  x : Fin 16
  p : Fin 8
  am : Fin 4
deriving DecidableEq, Repr

/-- A pair load of a DMAC class instruction: pair number within its bank of four, pointer within its bank, mode. -/
structure PairLoad where
  pair : Fin 4
  p : Fin 4
  am : Fin 4
deriving DecidableEq, Repr

/-- A Reed core: die and core number. -/
structure CoreId where
  die : Die
  core : Fin 4
deriving DecidableEq, Repr

/-- The special registers of a Reed core (R165, GETS and SETS). -/
inductive Special
  | st | lr | cyc | caslo | prg | ipc | ist | imask | ipend | evthit | cbase
deriving DecidableEq, Repr

/-- A stream packet as it reaches the Sluice (R188, R191, R196): the port it came in on, its addresses, header fields,
check results and samples. `stamp` is the casement timestamp of a Ranori packet or the RTP timestamp of an interop packet,
`afterDeadline` says that its last byte was written in the last 1,000 ns of the casement (R198), `marginUs` the whole
microseconds from then to the deadline of the slot that it completes (DESIGN CHOICE, notes/assumptions/149.md). -/
structure StreamPacket where
  port : Fin 4
  src : Nat
  dst : Nat
  udpDst : Nat
  /-- IPv4 options or fragments, IPv6 extension headers, or RTCP (R189). -/
  excluded : Bool := false
  rtp : Bool := false
  version : Nat := 2
  rate : Nat := 3
  channels : Nat := 1
  eid : Nat := 0
  sender : Nat := 0
  pt : Nat := 0
  ssrc : Nat := 0
  seq : Nat := 0
  stamp : Nat := 0
  samples : List Word := []
  /-- Payload bytes beyond whole samples (R191), and the PAYLOAD_CRC word of version 2 (R188). -/
  odd : Nat := 0
  crc : Word := 0
  checksOk : Bool := true
  afterDeadline : Bool := false
  marginUs : Nat := 0
deriving DecidableEq, Repr

/-- A frame as a MAC receives it (R208 to R216): its bytes without FCS, its length on the wire, whether the FCS is good,
its UDP destination port where it is unfragmented IP UDP, and whether its first bit came before the MAC began to stop (R220). -/
structure RxFrame where
  bytes : List Byte
  wireLen : Nat
  fcsOk : Bool := true
  udpPort : Option Nat := none
  macControl : Bool := false
  begun : Bool := false
  noBandwidth : Bool := false
deriving DecidableEq, Repr

/-- The data set of an Announce message (IEEE 1588-2019): the grandmaster's identity, priorities and quality, the steps removed, and the
sender's port identity of 80 bits. -/
structure Announce where
  gm : Nat
  sender : Nat
  priority1 : Nat := 128
  clockClass : Nat := 248
  accuracy : Nat := 0xFE
  variance : Nat := 0xFFFF
  priority2 : Nat := 128
  steps : Nat := 0
deriving DecidableEq, Repr

/-- What a PTP message brings to the service (R231). A timing message completes a set of the four timestamps of the end-to-end
mechanism in ns, departure and arrival of Sync and then of Delay_Req, with the frequency that the service takes from them, and whether
the node's two timestamps straddle a step. -/
inductive PtpMessage
  | announce (a : Announce)
  | timing (t1 t2 t3 t4 : Int) (freq : Int) (straddles : Bool)
  | pdelay
deriving DecidableEq, Repr

/-- A PTP message as a port receives it: its domain, and its transport (0 UDP over IPv4, 1 over IPv6, 2 layer 2). -/
structure PtpIn where
  domain : Nat := 0
  transport : Nat := 0
  body : PtpMessage
deriving DecidableEq, Repr

/-- The measurement that goes with a change of reference: the phase in ns between the PHC and the reference that the
change selects (R245). -/
structure RefMeas where
  phaseNs : Int := 0
  /-- The same from the reference's falling edges, which SCFG3.POL chooses (R233). -/
  fallNs : Int := 0
deriving DecidableEq, Repr

/-- What a DPLL's phase detector has seen (R244): for a step of the bandwidth the largest phase error in ns of the last 5τ, and for a
loss of lock the least of the second that it lasted, both against the slewed target. -/
structure LoopErr where
  dpll : Fin 4
  errNs : Nat
deriving DecidableEq, Repr

/-- A received AES3 subframe (R257, R259): its 24 audio bits, a parity error, and its validity bit. -/
structure Subframe where
  audio : BitVec 24
  parityError : Bool := false
  v : Bool := false
deriving DecidableEq, Repr

/-- How a received AES3 block ended (R260): a Z preamble out of place or missing, or a complete block, whose 24 channel
status bytes and 24 user-data bytes of each subframe and CRCC result follow. -/
inductive AesBlock
  | badSync
  | complete (csA csB userA userB : List Byte) (crccOk : Bool)
deriving DecidableEq, Repr

/-- Why a channel trips (R293): a coarse current value, in 2^-16 of the stage's full scale, or SNS_n static high or low. -/
inductive TripCause
  | overcurrent (coarse : Nat) | staticHigh | staticLow
deriving DecidableEq, Repr

/-- A drive channel 0 to 191 (R274). -/
abbrev Chan := Fin 192

/-- A pair message (R334): the casement it is for, the sender's OFF, CFG_SEQ, FLAGS and RENEW_AT, its HELD words, and its
digests with their VALID bits; and the EUI-64 of its sender. -/
structure PairMsg where
  eui : BitVec 64 := 0
  casement : Nat
  off : Word := 0
  cfgSeq : Word := 0
  flags : Word := 0
  renewAt : Word := 0
  held : List Word := []
  streamDig : List Word := []
  groupDig : List Word := []
deriving DecidableEq, Repr

/-- What a Ranori control message is (R347, R348): an opening of a session with the range of versions its sender offers,
or any other message. -/
inductive ControlKind
  | offer (lowest highest : Nat)
  | close
  | other
deriving DecidableEq, Repr

/-- A Ranori control message: its sender's NODE EID, its 64-bit sequence number and whether its tag verifies. -/
structure ControlMsg where
  sender : Nat
  seq : Nat
  tagOk : Bool
  kind : ControlKind := .other
deriving DecidableEq, Repr

/-- How an attempt to send an attention message ended on the bus (R357, R358). -/
inductive BusOutcome
  | acknowledged | arbitrationLost | namedAsTarget | notAcknowledged | sdaStuck
deriving DecidableEq, Repr

/-- What a snapshot holds, as the firmware reads it (R346): whether the node reads its format version, and the engine dies
and the drive die that it places work on. -/
structure SnapshotInfo where
  formatKnown : Bool := true
  dies : List Nat := []
  drive : Bool := false
deriving DecidableEq, Repr

/-- The commands. Each is one row of the opcode table (DESIGN CHOICE, notes/assumptions/150.md). -/
inductive Instr
  /-- REGISTER_WRITE (R9). -/
  | registerWrite (src : Src) (page : Page) (off : Nat) (value : Word) (bytes : Nat) (others : List PortWrite := [])
  /-- RC_READ (R32). -/
  | rcRead (src : Src) (page : Page) (off : Nat) (writes : List PortWrite := [])
  /-- MEMORY_WRITE (R399). -/
  | memoryWrite (src : Src) (addr : Nat) (data : List Byte) (others : List (Src × Nat × List Byte) := [])
  /-- DECODE_ERROR_ACCESS (R27). -/
  | decodeErrorAccess (src : Src) (addr : Nat) (write : Bool)
  /-- ABSENT_DIE_ACCESS (R4). -/
  | absentDieAccess (src : Src) (addr : Nat) (write : Bool)
  /-- POISONED_BURST_READ (R308). -/
  | poisonedBurstRead (reader : PoisonReader) (addr : Nat)
  /-- MATRIX_REQUEST (R41). -/
  | matrixRequest (reqs : List MatrixReq)
  /-- HELD_REQUEST_RELEASE (R43). -/
  | heldRequestRelease (master : Nat) (id : Nat) (target : Nat)
  /-- MTX_REMAP_WRITE (R28). -/
  | mtxRemapWrite (src : Src) (value : Bool)
  /-- PAGE_ENABLE (R33). -/
  | pageEnable (src : Src) (page : Page)
  /-- PAGE_DISABLE (R33). -/
  | pageDisable (src : Src) (page : Page)
  /-- SHUTDOWN_COMPLETE (R33). -/
  | shutdownComplete (page : Page)
  /-- SOFT_RESET (R400). -/
  | softReset (src : Src) (page : Page)
  /-- PAGE_FREEZE (R31). -/
  | pageFreeze (src : Src) (page : Page) (on : Bool)
  /-- IRQ_TEST_SET (R31). -/
  | irqTestSet (src : Src) (page : Page) (bits : Word)
  /-- PAGE_COMMIT_REQUEST (R35). -/
  | pageCommitRequest (src : Src) (page : Page)
  /-- GROUP_COMMIT_REQUEST (R36). -/
  | groupCommitRequest (src : Src)
  /-- COMMIT_CUTOFF (R35). -/
  | commitCutoff
  /-- KEY_CODE_WRITE (R38). -/
  | keyCodeWrite (src : Src) (page : Page) (code : Byte)
  /-- KEY_EXPIRY (R38). -/
  | keyExpiry (page : Page)
  /-- MAILBOX_DOORBELL (R47). -/
  | mailboxDoorbell (src : Src) (ring : BitVec 4)
  /-- MAILBOX_RESPONSE (R47). -/
  | mailboxResponse (slot : Fin 4) (code : Nat) (detail : Nat) (data : List Word)
  /-- MAILBOX_TIMEOUT (R47). -/
  | mailboxTimeout (slot : Fin 4)
  /-- CASEMENT_BOUNDARY (R52). -/
  | casementBoundary (ev : BoundaryIn)
  /-- CAS_REINDEX_NOW (R51). -/
  | casReindexNow (src : Src)
  /-- REINDEX_GENERATION_STOP (R51). -/
  | reindexGenerationStop
  /-- REINDEX_RESUME (R51). -/
  | reindexResume
  /-- RATE_READMIT_ANSWER (R402). -/
  | rateReadmitAnswer
  /-- RATE_READMIT_TIMEOUT (R402). -/
  | rateReadmitTimeout
  /-- CAS_GENERATION_STOP (R100). -/
  | casGenerationStop
  /-- CAS_INDEX_READ (R49). -/
  | casIndexRead (src : Src)
  /-- WORK_DEADLINE (R62). -/
  | workDeadline
  /-- UNFINISHED_ITEM_END (R63). -/
  | unfinishedItemEnd (die : Die) (unit : Nat) (item : Nat)
  /-- LINTEL_TRANSFER_ARRIVAL (R122). -/
  | lintelTransferArrival (die : Die) (link : Fin 2) (what : Lintel) (flaw : Option (Nat × Nat))
  /-- WORK_ITEM_START (R110). -/
  | workItemStart (die : Die) (slot : Fin 8) (item : Nat)
  /-- WORK_ITEM_COMPLETE (R114). -/
  | workItemComplete (die : Die) (slot : Fin 8)
  /-- ROUTE_COMPILE (R57). -/
  | routeCompile (slot : Fin 4) (addrLo : Word) (addrHi : Word)
  /-- ROUTE_COMPILE_DONE (R58). -/
  | routeCompileDone (job : Nat) (cfg : Cfg)
  /-- ROUTE_STATUS (R57). -/
  | routeStatus (slot : Fin 4) (job : Nat)
  /-- ROUTE_REPORT (R57). -/
  | routeReport (slot : Fin 4) (job : Nat) (first : Nat)
  /-- ROUTE_COMMIT (R57). -/
  | routeCommit (slot : Fin 4) (job : Nat)
  /-- ROUTE_LATENCY (R57). -/
  | routeLatency (slot : Fin 4) (job : Nat) (sel : Word)
  /-- ROUTE_DISCARD (R57). -/
  | routeDiscard (slot : Fin 4) (job : Nat)
  /-- ROUTE_STAGE_START (R80). -/
  | routeStageStart
  /-- READMIT_AFTER_LOSS (R61). -/
  | readmitAfterLoss (cfg : Cfg)
  /-- FOLLOW_COPY_END (R79). -/
  | followCopyEnd
  /-- REFILL_HOLD_END (R91). -/
  | refillHoldEnd (path : ShutterId)
  /-- XPT_OBJ_READ (R93). -/
  | xptObjRead (src : Src)
  /-- BUNDLE_EVENT_REPORT (R104). -/
  | bundleEventReport (bundle : Nat) (cause : BundleCause)
  /-- SHUTTER_REQUEST (R98). -/
  | shutterRequest (id : ShutterId) (req : ShutCfg) (sample : Nat)
  /-- SHUTTER_RAMP_END (R96). -/
  | shutterRampEnd (id : ShutterId)
  /-- PROTECT_FADE_END (R101). -/
  | protectFadeEnd (id : ShutterId)
  /-- PROTECT_RESTORE_END (R102). -/
  | protectRestoreEnd (id : ShutterId)
  /-- MUTE_N_ASSERT (R106). -/
  | muteNAssert
  /-- MUTE_N_RELEASE (R106). -/
  | muteNRelease
  /-- SHT_MUTE_ALL_WRITE (R106). -/
  | shtMuteAllWrite (src : Src) (on : Bool)
  /-- SHT_PUSH (R108). -/
  | shtPush (src : Src)
  /-- SHT_RD_READ (R109). -/
  | shtRdRead (src : Src)
  /-- RESIDUE_MISMATCH (R115). -/
  | residueMismatch (die : Die) (slot : Fin 8) (lane : Fin 4) (stage : Fin 4) (op : Nat) (err : Int)
  /-- ENGINE_SELF_TEST_END (R116). -/
  | engineSelfTestEnd (die : Die) (engine : Fin 9) (pass : Bool)
  /-- SPARE_TAKEOVER (R117). -/
  | spareTakeover (die : Die)
  /-- SPARE_VECTOR_FAIL (R118). -/
  | spareVectorFail (die : Die)
  /-- PEN_STEST_RUN (R116). -/
  | penStestRun (src : Src) (die : Die) (engines : BitVec 9)
  /-- PEN_INJECT_ARM (R115). -/
  | penInjectArm (src : Src) (die : Die) (engine : BitVec 4) (count : BitVec 2)
  /-- FEN_ECC_ERROR (R120). -/
  | fenEccError (die : Die) (off : Nat) (uncorrectable : Bool)
  /-- FEN_POISON_REWRITE (R120). -/
  | fenPoisonRewrite (die : Die) (off : Nat)
  /-- FEN_BANK_MARCH_END (R120). -/
  | fenBankMarchEnd (die : Die) (bank : Fin 24) (pass : Bool)
  /-- LINK_CRC_ERROR (R123). -/
  | linkCrcError (node : Fin 7) (link : Fin 2) (flits : Nat)
  /-- LINK_REPLAY_COMPLETE (R123). -/
  | linkReplayComplete (node : Fin 7) (link : Fin 2)
  /-- LINK_LANE_TEST_END (R123). -/
  | linkLaneTestEnd (node : Fin 7) (link : Fin 2) (bad : Word)
  /-- LINK_RETRAIN_COMPLETE (R124). -/
  | linkRetrainComplete (node : Fin 7) (link : Fin 2) (failed : Word := 0)
  /-- BQD_CANCEL (R137). -/
  | bqdCancel (src : Src) (die : Die)
  /-- BQD_SWAPREQ (R135). -/
  | bqdSwapreq (src : Src) (die : Die)
  /-- BQD_PREP (R136). -/
  | bqdPrep (src : Src) (die : Die)
  /-- BQD_READ_INACTIVE (R137). -/
  | bqdReadInactive (src : Src) (die : Die)
  /-- BQD_READ_ACTIVE (R130). -/
  | bqdReadActive (src : Src) (die : Die)
  /-- BQD_WRITE_INACTIVE (R137). -/
  | bqdWriteInactive (src : Src) (die : Die)
  /-- BQD_WRITE_ACTIVE (R134). -/
  | bqdWriteActive (src : Src) (die : Die)
  /-- BQD_PREP_END (R136). -/
  | bqdPrepEnd (die : Die) (kind : Nat) (index : Nat)
  /-- FIR_CANCEL (R142). -/
  | firCancel (src : Src) (die : Die)
  /-- FIR_SWAPREQ (R142). -/
  | firSwapreq (src : Src) (die : Die)
  /-- FIR_PREP (R142). -/
  | firPrep (src : Src) (die : Die)
  /-- FIR_PREP_END (R136). -/
  | firPrepEnd (die : Die) (strip : Nat)
  /-- COEFF_BANK_SWAP (R135). -/
  | coeffBankSwap (die : Die)
  /-- STEER_COPY_END (R151). -/
  | steerCopyEnd (die : Die)
  /-- GLIDE_END (R153). -/
  | glideEnd (die : Die) (kind : Nat) (index : Nat)
  /-- JUMP_END (R155). -/
  | jumpEnd (die : Die) (kind : Nat) (index : Nat)
  /-- WAIT_FILL_RESUME (R156). -/
  | waitFillResume (die : Die) (kind : Nat) (index : Nat)
  /-- DELAY_PREFETCH_ARRIVAL (R146). -/
  | delayPrefetchArrival (die : Die) (strip : Nat)
  /-- POISON_HOLD_END (R157). -/
  | poisonHoldEnd (die : Die) (strip : Nat)
  /-- REED_SLOT_ENTRY (R161). -/
  | reedSlotEntry (c : CoreId)
  /-- REED_RUN_COMPLETE (R163). -/
  | reedRunComplete (c : CoreId)
  /-- RCX_RESTART (R165). -/
  | rcxRestart (src : Src) (c : CoreId) (slots : Byte)
  /-- RCX_STEST (R183). -/
  | rcxStest (src : Src) (c : CoreId)
  /-- REED_INTERRUPT_ENTRY (R176). -/
  | reedInterruptEntry (c : CoreId) (cycles : Nat := 0)
  /-- REED_IRQ_BUDGET_EXCEEDED (R176). -/
  | reedIrqBudgetExceeded (c : CoreId)
  /-- RCX_MBX_DOORBELL (R175). -/
  | rcxMbxDoorbell (src : Src) (c : CoreId)
  /-- REED_TRANSFER_COMPLETE (R177). -/
  | reedTransferComplete (c : CoreId) (ch : Fin 4) (cycles : Nat)
  /-- REED_MEM_ECC_ERROR (R183). -/
  | reedMemEccError (c : CoreId) (prog : Bool) (addr : Nat) (uncorrectable : Bool) (met : Bool := false)
  /-- REED_CORE_TEST_END (R184). -/
  | reedCoreTestEnd (c : CoreId) (pass : Bool)
  /-- RCX_MEMDATA_ACCESS (R90). -/
  | rcxMemdataAccess (src : Src) (c : CoreId) (write : Option Word)
  /-- NOP (R179). -/
  | reedNop (c : CoreId)
  /-- END (R163). -/
  | reedEnd (c : CoreId)
  /-- B (R172). -/
  | reedB (c : CoreId) (cond : Cond) (target : ReedTarget)
  /-- CALL (R172). -/
  | reedCall (c : CoreId) (target : ReedTarget)
  /-- RET (R172). -/
  | reedRet (c : CoreId)
  /-- DBNZ (R172). -/
  | reedDbnz (c : CoreId) (x : Fin 16) (off : Int)
  /-- REP (R173). -/
  | reedRep (c : CoreId) (len : Fin 64) (count : RepCount)
  /-- RETI (R176). -/
  | reedReti (c : CoreId)
  /-- ADD (R179). -/
  | reedAdd (c : CoreId) (d a : Fin 16) (b : Opnd)
  /-- SUB (R179). -/
  | reedSub (c : CoreId) (d a : Fin 16) (b : Opnd)
  /-- AND (R179). -/
  | reedAnd (c : CoreId) (d a : Fin 16) (b : Opnd)
  /-- OR (R179). -/
  | reedOr (c : CoreId) (d a : Fin 16) (b : Opnd)
  /-- XOR (R179). -/
  | reedXor (c : CoreId) (d a : Fin 16) (b : Opnd)
  /-- SHL (R179). -/
  | reedShl (c : CoreId) (d a : Fin 16) (b : Opnd)
  /-- SHR (R179). -/
  | reedShr (c : CoreId) (d a : Fin 16) (b : Opnd)
  /-- ASR (R179). -/
  | reedAsr (c : CoreId) (d a : Fin 16) (b : Opnd)
  /-- MIN (R179). -/
  | reedMin (c : CoreId) (d a : Fin 16) (b : Opnd)
  /-- MAX (R179). -/
  | reedMax (c : CoreId) (d a : Fin 16) (b : Opnd)
  /-- ADDS (R166). -/
  | reedAdds (c : CoreId) (d a : Fin 16) (b : Opnd)
  /-- SUBS (R166). -/
  | reedSubs (c : CoreId) (d a : Fin 16) (b : Opnd)
  /-- MULL (R179). -/
  | reedMull (c : CoreId) (d a : Fin 16) (b : Opnd)
  /-- CMP (R179). -/
  | reedCmp (c : CoreId) (a : Fin 16) (b : Opnd)
  /-- MOV (R179). -/
  | reedMov (c : CoreId) (d : Fin 16) (b : Opnd)
  /-- ABS (R179). -/
  | reedAbs (c : CoreId) (d a : Fin 16)
  /-- NEG (R179). -/
  | reedNeg (c : CoreId) (d a : Fin 16)
  /-- LD (R169). -/
  | reedLd (c : CoreId) (x : Fin 16) (addr : ReedAddr)
  /-- ST (R169). -/
  | reedSt (c : CoreId) (x : Fin 16) (addr : ReedAddr)
  /-- LD2 (R169). -/
  | reedLd2 (c : CoreId) (pair : Fin 8) (addr : ReedAddr)
  /-- ST2 (R169). -/
  | reedSt2 (c : CoreId) (pair : Fin 8) (addr : ReedAddr)
  /-- MAC (R179). -/
  | reedMac (c : CoreId) (ac : Fin 4) (xa xb : Fin 16) (f : Fin 4) (ld : Option MacLoad)
  /-- MSU (R179). -/
  | reedMsu (c : CoreId) (ac : Fin 4) (xa xb : Fin 16) (f : Fin 4) (ld : Option MacLoad)
  /-- MPY (R179). -/
  | reedMpy (c : CoreId) (ac : Fin 4) (xa xb : Fin 16) (f : Fin 4) (ld : Option MacLoad)
  /-- MPYN (R179). -/
  | reedMpyn (c : CoreId) (ac : Fin 4) (xa xb : Fin 16) (f : Fin 4) (ld : Option MacLoad)
  /-- DMACS (R179). -/
  | reedDmacs (c : CoreId) (sub : Bool) (ac : Fin 4) (pa pb : Fin 8) (f : Fin 4) (l1 l2 : Option PairLoad)
  /-- DMACP (R179). -/
  | reedDmacp (c : CoreId) (sub : Bool) (q : Fin 2) (pa pb : Fin 8) (f : Fin 4) (l1 l2 : Option PairLoad)
  /-- CLR (R179). -/
  | reedClr (c : CoreId) (n : Fin 4)
  /-- STQ (R166). -/
  | reedStq (c : CoreId) (d : Fin 16) (n : Fin 4) (f : Fin 4)
  /-- RDG (R179). -/
  | reedRdg (c : CoreId) (d : Fin 16) (n : Fin 4)
  /-- RDH (R179). -/
  | reedRdh (c : CoreId) (d : Fin 16) (n : Fin 4)
  /-- RDL (R179). -/
  | reedRdl (c : CoreId) (d : Fin 16) (n : Fin 4)
  /-- LDA (R179). -/
  | reedLda (c : CoreId) (n : Fin 4) (a : Opnd) (f : Fin 4)
  /-- WRL (R179). -/
  | reedWrl (c : CoreId) (n : Fin 4) (a : Opnd)
  /-- ADDA (R179). -/
  | reedAdda (c : CoreId) (n m : Fin 4)
  /-- SUBA (R179). -/
  | reedSuba (c : CoreId) (n m : Fin 4)
  /-- ASH (R179). -/
  | reedAsh (c : CoreId) (n : Fin 4) (a : Opnd)
  /-- EXP (R181). -/
  | reedExp (c : CoreId) (d : Fin 16) (n : Fin 4)
  /-- NORM (R181). -/
  | reedNorm (c : CoreId) (d : Fin 16) (n : Fin 4)
  /-- ABSA (R179). -/
  | reedAbsa (c : CoreId) (n : Fin 4)
  /-- NEGA (R179). -/
  | reedNega (c : CoreId) (n : Fin 4)
  /-- MOVA (R179). -/
  | reedMova (c : CoreId) (n m : Fin 4)
  /-- SETP (R179). -/
  | reedSetp (c : CoreId) (n : Fin 8) (a : Opnd)
  /-- SETM (R179). -/
  | reedSetm (c : CoreId) (n : Fin 8) (a : Opnd)
  /-- SETB (R179). -/
  | reedSetb (c : CoreId) (n : Fin 8) (a : Opnd)
  /-- SETL (R170). -/
  | reedSetl (c : CoreId) (n : Fin 8) (a : Opnd)
  /-- GETP (R179). -/
  | reedGetp (c : CoreId) (d : Fin 16) (n : Fin 8)
  /-- GETM (R179). -/
  | reedGetm (c : CoreId) (d : Fin 16) (n : Fin 8)
  /-- GETB (R179). -/
  | reedGetb (c : CoreId) (d : Fin 16) (n : Fin 8)
  /-- GETL (R179). -/
  | reedGetl (c : CoreId) (d : Fin 16) (n : Fin 8)
  /-- ADDP (R170). -/
  | reedAddp (c : CoreId) (n : Fin 8) (a : Opnd)
  /-- XRD (R177). -/
  | reedXrd (c : CoreId) (ch : Fin 4) (a : Opnd) (p : Fin 8) (len : BitVec 13)
  /-- XWR (R177). -/
  | reedXwr (c : CoreId) (ch : Fin 4) (a : Opnd) (p : Fin 8) (len : BitVec 13)
  /-- WAITX (R177). -/
  | reedWaitx (c : CoreId) (mask : BitVec 4)
  /-- XST (R179). -/
  | reedXst (c : CoreId) (d : Fin 16)
  /-- GETS (R179). -/
  | reedGets (c : CoreId) (d : Fin 16) (sr : Special)
  /-- SETS (R179). -/
  | reedSets (c : CoreId) (sr : Special) (a : Fin 16)
  /-- EI (R179). -/
  | reedEi (c : CoreId)
  /-- DI (R179). -/
  | reedDi (c : CoreId)
  /-- MBXR (R179). -/
  | reedMbxr (c : CoreId) (d : Fin 16) (m : Fin 4)
  /-- MBXW (R179). -/
  | reedMbxw (c : CoreId) (m : Fin 4) (a : Fin 16)
  /-- MBXDONE (R179). -/
  | reedMbxdone (c : CoreId)
  /-- EVT (R179). -/
  | reedEvt (c : CoreId) (code : BitVec 10)
  /-- SATCLR (R166). -/
  | reedSatclr (c : CoreId)
  /-- ILLEGAL_INSTRUCTION (R180). -/
  | illegalInstruction (c : CoreId)
  /-- STREAM_SUBSCRIBE (R190). -/
  | streamSubscribe (stream : Nat) (subscriber : Nat) (join : Bool) (lowest highest : Nat)
  /-- STREAM_PACKET_RECEIVED (R196). -/
  | streamPacketReceived (p : StreamPacket)
  /-- SLOT_DEADLINE (R201). -/
  | slotDeadline (stream : Nat)
  /-- SLUICE_ECC_ERROR (R203). -/
  | sluiceEccError (addr : Nat) (uncorrectable : Bool)
  /-- SLUICE_BANK_MARCH_END (R203). -/
  | sluiceBankMarchEnd (bank : Fin 8) (pass : Bool)
  /-- STR_DESC_READ (R204). -/
  | strDescRead (src : Src)
  /-- SLU_DESC_READ (R204). -/
  | sluDescRead (src : Src)
  /-- FRAME_RECEIVED (R208). -/
  | frameReceived (port : Fin 4) (frame : RxFrame)
  /-- PAUSE_FRAME_RECEIVED (R218). -/
  | pauseFrameReceived (port : Fin 4) (quanta : Nat)
  /-- PAUSE_EXPIRY (R218). -/
  | pauseExpiry (port : Fin 4)
  /-- TXR_TAIL_WRITE (R214). -/
  | txrTailWrite (src : Src) (port : Fin 4) (tail : Word)
  /-- RXR_TAIL_WRITE (R214). -/
  | rxrTailWrite (src : Src) (port : Fin 4) (tail : Word)
  /-- TX_DESCRIPTOR_SEND (R213). -/
  | txDescriptorSend (port : Fin 4)
  /-- TX_FRAME_SENT (R215). -/
  | txFrameSent (port : Fin 4) (audio : Bool)
  /-- MAC_COUNTER_READ (R219). -/
  | macCounterRead (src : Src) (port : Fin 4) (counter : Fin 16)
  /-- LINK_CHANGE (R219). -/
  | linkChange (port : Fin 4) (up : Bool)
  /-- SERDES_RETRAIN_COMPLETE (R207). -/
  | serdesRetrainComplete (port : Fin 4)
  /-- MAC_BUFFER_ECC_ERROR (R221). -/
  | macBufferEccError (port : Fin 4) (uncorrectable : Bool) (received : Bool)
  /-- MAC_LOOPBACK_TEST_END (R221). -/
  | macLoopbackTestEnd (port : Fin 4) (pass : Bool)
  /-- PHC_INCR_FRAC_WRITE (R223). -/
  | phcIncrFracWrite (src : Src) (value : Word)
  /-- PHC_INCR_NS_WRITE (R223). -/
  | phcIncrNsWrite (src : Src) (value : Word)
  /-- PHC_STEP_GO (R224). -/
  | phcStepGo (src : Src)
  /-- PHC_STEP_PERMIT (R225). -/
  | phcStepPermit (src : Src)
  /-- PHC_TIME_READ (R227). -/
  | phcTimeRead (src : Src)
  /-- PHC_SECONDS_CARRY (R222). -/
  | phcSecondsCarry
  /-- PTP_MESSAGE_RECEIVED (R231). -/
  | ptpMessageReceived (port : Fin 4) (msg : PtpIn)
  /-- PTP_PROFILE (R232). -/
  | ptpProfile (slot : Fin 4) (word : Word)
  /-- PTP_PORT (R232). -/
  | ptpPort (slot : Fin 4) (word1 word2 : Word)
  /-- PTP_STATUS (R232). -/
  | ptpStatus (slot : Fin 4)
  /-- PTP_PARENT (R232). -/
  | ptpParent (slot : Fin 4)
  /-- PTP_CLOCK (R232). -/
  | ptpClock (slot : Fin 4) (word : Word)
  /-- REFPOL_RELOAD (R233). -/
  | refpolReload (slot : Fin 4) (meas : RefMeas)
  /-- REF_CTRL_WRITE (R238). -/
  | refCtrlWrite (src : Src) (value : Word) (meas : RefMeas)
  /-- REF_SLOT_CFG_WRITE (R235). -/
  | refSlotCfgWrite (src : Src) (reg : Fin 5) (value : Word) (meas : RefMeas)
  /-- REF_SSTAT_READ (R236). -/
  | refSstatRead (src : Src)
  /-- REF_SIGNAL_LOSS (R237). -/
  | refSignalLoss (slot : Fin 16) (meas : RefMeas)
  /-- REF_SIGNAL_PRESENT (R235). -/
  | refSignalPresent (slot : Fin 16)
  /-- REF_VALIDATION_DONE (R235). -/
  | refValidationDone (slot : Fin 16) (meas : RefMeas)
  /-- REF_WAIT_RESTORE_DONE (R235). -/
  | refWaitRestoreDone (slot : Fin 16) (meas : RefMeas)
  /-- REF_FREQUENCY_GATE (R236). -/
  | refFrequencyGate (abs : List (Option Int)) (meas : RefMeas)
  /-- REF_QL_CHANGE (R234). -/
  | refQlChange (slot : Fin 16) (received : Option (BitVec 16)) (meas : RefMeas)
  /-- REF_DISPUTE_JUDGE (R239). -/
  | refDisputeJudge (meas : RefMeas)
  /-- REF_VOTED_OUT_RETURN (R239). -/
  | refVotedOutReturn (slot : Fin 16)
  /-- DPLL_BW_STEP_DOWN (R244). -/
  | dpllBwStepDown (e : LoopErr)
  /-- DPLL_LOCK_LOSS (R244). -/
  | dpllLockLoss (e : LoopErr)
  /-- DPLL_SLEW_COMPLETE (R245). -/
  | dpllSlewComplete
  /-- DPLL_HOLDOVER_EXPIRY (R247). -/
  | dpllHoldoverExpiry
  /-- DPLL_SYNTH_UNLOCK (R254). -/
  | dpllSynthUnlock (k : Fin 4)
  /-- DPLL_FREQ_LIMIT (R254). -/
  | dpllFreqLimit (k : Fin 4)
  /-- DPLL_FAULT_RECOVER (R254). -/
  | dpllFaultRecover (k : Fin 4)
  /-- XOIN_LOSS (R254). -/
  | xoinLoss
  /-- MISSING_EDGE_HOLD (R237). -/
  | missingEdgeHold (slot : Fin 16)
  /-- ANNOUNCE_RECEIPT_TIMEOUT (R231). -/
  | announceReceiptTimeout (port : Fin 4)
  /-- AES_RX_SIGNAL_LOSS (R257). -/
  | aesRxSignalLoss (rx : Fin 16)
  /-- AES_RX_PREAMBLES_FOUND (R257). -/
  | aesRxPreamblesFound (rx : Fin 16)
  /-- AES_RX_RATE_MEASURED (R257). -/
  | aesRxRateMeasured (rx : Fin 16) (rate : Nat) (ratio : Word)
  /-- AES_RX_SETTLED (R257). -/
  | aesRxSettled (rx : Fin 16)
  /-- AES_RX_FRAME (R259). -/
  | aesRxFrame (rx : Fin 16) (a b : Subframe)
  /-- AES_RX_SLIP (R258). -/
  | aesRxSlip (rx : Fin 16) (full : Bool)
  /-- AES_RX_BLOCK_END (R260). -/
  | aesRxBlockEnd (rx : Fin 16) (blk : AesBlock)
  /-- AES_CAP_READ (R260). -/
  | aesCapRead (src : Src) (rx : Fin 16)
  /-- AES_TX_BLOCK_START (R262). -/
  | aesTxBlockStart (tx : Fin 16)
  /-- TDM_FRAMING_ERROR (R265). -/
  | tdmFramingError (port : Fin 8)
  /-- TDM_SLIP (R265). -/
  | tdmSlip (port : Fin 8) (full : Bool)
  /-- TDM_MASK_APPLY (R266). -/
  | tdmMaskApply (port : Fin 8) (frame : Nat)
  /-- TDM_SLOT_FADE_END (R267). -/
  | tdmSlotFadeEnd (port : Fin 8) (output : Bool) (slot : Fin 32)
  /-- SDIN_STUCK (R269). -/
  | sdinStuck (input : Fin 64)
  /-- SDIN_STUCK_CLEAR (R269). -/
  | sdinStuckClear (input : Fin 64)
  /-- DEC_BANK_SWAP (R272). -/
  | decBankSwap (ch : Fin 64)
  /-- DEC_SETTLE_END (R272). -/
  | decSettleEnd (ch : Fin 64)
  /-- CHANNEL_ENABLE (R289). -/
  | channelEnable (src : Src) (ch : Chan)
  /-- CHANNEL_DISABLE (R292). -/
  | channelDisable (src : Src) (ch : Chan)
  /-- CHANNEL_CLEAR (R294). -/
  | channelClear (src : Src) (ch : Chan)
  /-- LATE_MEMBER_TIMEOUT (R289). -/
  | lateMemberTimeout (group : Fin 64)
  /-- IDENTITY_FRAME_RECEIVED (R284). -/
  | identityFrameReceived (ch : Chan) (frame : List Byte) (period : Nat)
  /-- NO_STAGE_TIMEOUT (R284). -/
  | noStageTimeout (ch : Chan)
  /-- SENSE_FOLLOWED (R290). -/
  | senseFollowed (ch : Chan)
  /-- CHANNEL_RUN (R290). -/
  | channelRun (ch : Chan)
  /-- FOLLOW_TIMEOUT (R291). -/
  | followTimeout (ch : Chan)
  /-- RELEASE_RETRY_EXPIRY (R291). -/
  | releaseRetryExpiry (ch : Chan)
  /-- STOP_COMPLETE (R292). -/
  | stopComplete (ch : Chan)
  /-- CHANNEL_TRIP (R293). -/
  | channelTrip (ch : Chan) (cause : TripCause)
  /-- SENSE_LOST (R285). -/
  | senseLost (ch : Chan)
  /-- COOL_DOWN_END (R294). -/
  | coolDownEnd (ch : Chan)
  /-- CARRIER_APPLY (R277). -/
  | carrierApply (ch : Chan)
  /-- FENCING_COMPLETE (R296). -/
  | fencingComplete (ch : Chan)
  /-- DRIVE_BLOCK_MISSING_STOP (R299). -/
  | driveBlockMissingStop
  /-- SNS_IDSTAT_READ (R284). -/
  | snsIdstatRead (src : Src)
  /-- CARRIER_PROTECT (R279). -/
  | carrierProtect (slot : Fin 4) (word : Word) (freqs : List Word)
  /-- CARRIER_PLAN (R279). -/
  | carrierPlan (slot : Fin 4) (word : Word)
  /-- CARRIER_PLAN_DONE (R280). -/
  | carrierPlanDone (job : Nat)
  /-- CARRIER_STATUS (R279). -/
  | carrierStatus (slot : Fin 4) (job : Nat)
  /-- CARRIER_REPORT (R279). -/
  | carrierReport (slot : Fin 4) (ch : Nat)
  /-- CARRIER_CHECK (R279). -/
  | carrierCheck (slot : Fin 4) (word : Word)
  /-- DRAM_REFRESH_DUE (R305). -/
  | dramRefreshDue (rank : Fin 4) (queued : Bool)
  /-- DRAM_REFRESH_MAKEUP (R305). -/
  | dramRefreshMakeup (rank : Fin 4)
  /-- DRAM_HOT_CHANGE (R305). -/
  | dramHotChange (hot : Bool)
  /-- DRAM_ACTIVATE (R306). -/
  | dramActivate (rank : Fin 4) (bank : Fin 32) (row : BitVec 16)
  /-- NEIGHBOUR_REFRESH (R306). -/
  | neighbourRefresh (channel : Fin 2)
  /-- DRAM_REFRESH_CYCLE_END (R306). -/
  | dramRefreshCycleEnd (rank : Fin 4)
  /-- DRAM_ECC_ERROR (R307). -/
  | dramEccError (rank : Fin 4) (burst : BitVec 27) (device : BitVec 4) (uncorrectable : Bool)
  /-- DRAM_REREAD_RESULT (R307). -/
  | dramRereadResult (rank : Fin 4) (burst : BitVec 27) (device : BitVec 4) (recurs : Bool)
  /-- DRAM_CA_PARITY_ERROR (R309). -/
  | dramCaParityError (rank : Fin 4)
  /-- DRAM_REPLAY_COMPLETE (R309). -/
  | dramReplayComplete (rank : Fin 4) (ok : Bool) (touched : List (BitVec 27))
  /-- DRAM_MIGRATION_COMPLETE (R311). -/
  | dramMigrationComplete
  /-- DRM_TRAIN_START (R313). -/
  | drmTrainStart (src : Src)
  /-- DRAM_TRAINING_END (R313). -/
  | dramTrainingEnd (passed : BitVec 4)
  /-- DRAM_ZQ_CALIBRATION (R313). -/
  | dramZqCalibration
  /-- DRAM_DQS_TRACK (R313). -/
  | dramDqsTrack (beyond : BitVec 4)
  /-- FAULT_REPORT (R316). -/
  | faultReport (page : Page) (code : Nat) (detail : Word) (unit : Nat)
  /-- FAULT_RECORD_WRITE (R320). -/
  | faultRecordWrite
  /-- FLT_ACK_WRITE (R322). -/
  | fltAckWrite (src : Src) (seq : Word)
  /-- FLT_ACK_ALL (R322). -/
  | fltAckAll (src : Src)
  /-- FLT_REC_READ (R321). -/
  | fltRecRead (src : Src)
  /-- FATAL_ETH_STOP (R325). -/
  | fatalEthStop
  /-- FATAL_HIGH_Z (R325). -/
  | fatalHighZ
  /-- SILL_OWN_TIME_START (R327). -/
  | sillOwnTimeStart
  /-- SILL_CASEMENT_TICK (R327). -/
  | sillCasementTick
  /-- LEASE_SELF_FENCE (R339). -/
  | leaseSelfFence
  /-- SIL_SAFE_FORCE (R328). -/
  | silSafeForce (src : Src)
  /-- SIL_SAFE_RELEASE (R328). -/
  | silSafeRelease (src : Src)
  /-- SIL_WDOG_WRITE (R329). -/
  | silWdogWrite (src : Src) (value : Word)
  /-- SIL_KICK (R329). -/
  | silKick (src : Src)
  /-- WATCHDOG_EXPIRY (R329). -/
  | watchdogExpiry
  /-- THERMAL_SAMPLE (R330). -/
  | thermalSample (temps : List Int)
  /-- SUPPLY_FAULT (R330). -/
  | supplyFault (rail : Fin 4)
  /-- FAULT_READ (R331). -/
  | faultRead (slot : Fin 4) (first : Word)
  /-- FAULT_ACK (R331). -/
  | faultAck (slot : Fin 4) (first last : Word)
  /-- FAULT_TEST (R331). -/
  | faultTest (slot : Fin 4) (word : Word)
  /-- FAULT_STATUS (R331). -/
  | faultStatus (slot : Fin 4) (job : Nat)
  /-- PAIR_MESSAGE_RECEIVED (R335). -/
  | pairMessageReceived (m : PairMsg)
  /-- PARTNER_LOST (R336). -/
  | partnerLost
  /-- HNG_RENEW (R339). -/
  | hngRenew (src : Src)
  /-- HINGE_FRAME_RECEIVED (R342). -/
  | hingeFrameReceived (frame : Word)
  /-- LEASE_TAKEOVER (R339). -/
  | leaseTakeover
  /-- LEASE_FENCE_COMPLETE (R340). -/
  | leaseFenceComplete (lease : Fin 66)
  /-- DUTY_RECEIVED (R338). -/
  | dutyReceived (lease : Fin 66) (eid : Nat) (priority : Byte) (eui : BitVec 64)
  /-- DUTY_ANNOUNCE (R338). -/
  | dutyAnnounce
  /-- LEASE_CLAIM (R341). -/
  | leaseClaim
  /-- CLAIM_RECEIVED (R341). -/
  | claimReceived (leases : List Nat) (priority : Byte) (eui : BitVec 64)
  /-- CLAIM_DECISION (R341). -/
  | claimDecision
  /-- RESYNC_COMPLETE (R343). -/
  | resyncComplete
  /-- CONTROL_MESSAGE_RECEIVED (R348). -/
  | controlMessageReceived (m : ControlMsg)
  /-- REGISTER_ENDPOINT (R16). -/
  | registerEndpoint (eid : Nat) (node : Nat)
  /-- REGISTRATION_RETRY (R16). -/
  | registrationRetry (refused : List Nat)
  /-- CONFIG_SAVE (R346). -/
  | configSave (slot : Fin 4)
  /-- CONFIG_SAVE_DONE (R345). -/
  | configSaveDone (job : Nat) (snapshot : Option (List Byte))
  /-- CONFIG_LIST (R346). -/
  | configList (slot : Fin 4)
  /-- CONFIG_ADOPT (R344). -/
  | configAdopt (slot : Fin 4) (addrLo addrHi length : Word) (info : SnapshotInfo)
  /-- CONFIG_RELOAD (R346). -/
  | configReload (slot : Fin 4)
  /-- CONFIG_STATUS (R346). -/
  | configStatus (slot : Fin 4) (job : Nat)
  /-- RANORI_KEY (R349). -/
  | ranoriKey (slot : Fin 4) (eid addrLo addrHi : Word)
  /-- RANORI_SESSIONS (R349). -/
  | ranoriSessions (slot : Fin 4) (first : Nat)
  /-- RANORI_HANDOVER (R349). -/
  | ranoriHandover (slot : Fin 4) (lease : Nat)
  /-- I2C_WRITE_TRANSACTION (R352). -/
  | i2cWriteTransaction (sill : Bool) (bytes : List Byte)
  /-- I2C_READ_TRANSACTION (R354). -/
  | i2cReadTransaction (sill : Bool) (count : Nat)
  /-- I2C_PROTOCOL_ERROR (R355). -/
  | i2cProtocolError
  /-- I2C_SDA_TIMEOUT (R356). -/
  | i2cSdaTimeout
  /-- ATTENTION_SEND (R357). -/
  | attentionSend (outcome : BusOutcome)
  /-- ATTENTION_RETRY (R358). -/
  | attentionRetry (outcome : BusOutcome)
  /-- PCIE_MEMORY_REQUEST (R361). -/
  | pcieMemoryRequest (bar2 : Bool) (off : Nat) (len : Nat) (write : Option (List Byte))
  /-- PCIE_HOT_RESET (R359). -/
  | pcieHotReset
  /-- MSIX_MESSAGE (R362). -/
  | msixMessage (vector : Fin 32)
  /-- PCI_REARM (R362). -/
  | pciRearm (src : Src) (vectors : Word)
  /-- ERASE_4K (R364). -/
  | erase4k (src : Src)
  /-- ERASE_64K (R364). -/
  | erase64k (src : Src)
  /-- PROGRAM (R364). -/
  | program (src : Src)
  /-- QSPI_COMMAND_END (R364). -/
  | qspiCommandEnd
  /-- POR_ASSERT (R376). -/
  | porAssert
  /-- POR_RELEASE (R369). -/
  | porRelease
  /-- STRAP_LATCH (R368). -/
  | strapLatch (balls : BitVec 7)
  /-- RAIL_OUT_OF_RANGE (R366). -/
  | railOutOfRange (out : Bool)
  /-- VDD_SILL_LOSS (R376). -/
  | vddSillLoss
  /-- BOOT_CENSUS (R371). -/
  | bootCensus (present : BitVec 6) (drive : Bool) (linksFailed : BitVec 6) (driveFailed : Bool) (stepping : BitVec 4)
    (lanes : List (Fin 7 × Fin 2 × Word) := [])
  /-- BOOT_IMAGE_VERIFIED (R370). -/
  | bootImageVerified (sigA sigB : Bool)
  /-- FIRST_COMMIT (R373). -/
  | firstCommit
  /-- CLOCK_WAIT_EXPIRY (R373). -/
  | clockWaitExpiry
  /-- SYS_REBOOT (R367). -/
  | sysReboot (src : Src)
  /-- SYSTEM_VERSION (R377). -/
  | systemVersion (slot : Fin 4)
  /-- SYSTEM_SHUTDOWN (R375). -/
  | systemShutdown (slot : Fin 4)
  /-- SHUTDOWN_STEP_END (R375). -/
  | shutdownStepEnd
  /-- SYSTEM_STATUS (R377). -/
  | systemStatus (slot : Fin 4) (job : Nat)
  /-- MANAGEMENT_CORES_STOP (R25). -/
  | managementCoresStop
  /-- MANAGEMENT_CORES_RESUME (R61). -/
  | managementCoresResume
  /-- PCIE_LINK_UP (R359). -/
  | pcieLinkUp (gen : Fin 4) (width : Fin 3)
  /-- VDD_SILL_POWER_UP (R320). -/
  | vddSillPowerUp
  /-- STUCK_BUS_RETRY (R356). -/
  | stuckBusRetry (sdaHigh : Bool)
deriving DecidableEq, Repr

end Sys2Proof
end

