-- ==== Sys2Proof/Decode.lean ====
section
/-! DEFINITION. The commands that the table's bits spell: no row of the opcode table has bits, since every command reaches
the block as an access, a bus event or an event on a pin. -/

namespace Sys2Proof

/-- The command that a word spells by the opcode table's bits. The table gives none to any row. -/
def decodeTableWord (_nbits _w : Nat) : Option Instr := none

end Sys2Proof
end

