-- ==== Sys2Proof/Config.lean ====
section
/-! DEFINITION. What an implementation fixes and the spec leaves open: opaque constants that nothing can evaluate, and the
fixed numbers of time and capacity. -/

namespace Sys2Proof.Config

/-- The factory-programmed EUI-64 (R18) (DESIGN CHOICE, notes/assumptions/14.md). -/
opaque eui : BitVec 64

/-- The factory station address of a port (MAC.ADDR), 48 bits. -/
opaque macAddr : Nat → BitVec 48

/-- PG_CAP.BLOCK_CAP of a page, whose contents the spec does not give (R31). -/
opaque blockCap : Block → BitVec 16

/-- Contents and version of the boot ROM, which the spec does not give. -/
opaque bootRom : Nat → Byte
opaque bootRomVersion : Word

/-- Whether a quotient that the spec defines and whose rounding it does not state rounds up, by numerator and denominator
(DESIGN CHOICE, notes/assumptions/64.md). -/
opaque roundsUp : Int → Int → Bool

/-- A fresh free 32-bit value, by the free counter of the state. -/
opaque freeWord : Nat → Word

/-- A fresh free choice, by the free counter of the state. -/
opaque freeBit : Nat → Bool

/-- The CRCC byte of AES3 over 23 channel status bytes, and the sample-rate bits of channel status bytes 0 and 4 for a rate
in Hz (R262): AES3 gives them, and the spec does not (DESIGN CHOICE, notes/assumptions/106.md). -/
opaque aesCrcc : List Byte → Byte
opaque aesRate0 : Nat → BitVec 2
opaque aesRate4 : Nat → BitVec 4

/-- Time units of a hub cycle (1.25 ns), of a Sill cycle (31.25 ns) and of a millisecond; one unit is 1/3675 of a Sill cycle. -/
def hubCycle : Nat := 147
def sillCycle : Nat := 3675
def millisecond : Nat := 117600000

/-- Whether C after SUB and CMP is the borrow (R179 names C and not its sense) (DESIGN CHOICE, notes/assumptions/72.md). -/
opaque subCarryIsBorrow : Bool

/-- What the filters of a drive channel give, whose responses the spec states and whose coefficients it does not (R276, R281, R285), in 2^-31,
by a free value of the casement, their input and the loop tick: the interpolator to the loop rate, and the SENSE decimator
(DESIGN CHOICE, notes/assumptions/205.md). -/
opaque driveInterp : Word → List Word → Nat → Int
opaque senseDecimate : Word → List Bool → Nat → Int

/-- Kp and Ki of a LOOP.BW code in 2^-16, and the loop ticks by which x is delayed to match the sense path (R281): the spec gives the
crossover and not the numbers (DESIGN CHOICE, notes/assumptions/205.md). -/
opaque loopGains : Nat → Int × Int
opaque senseDelay : Nat

/-- The PHC increment that the PTP service's own servo writes for an offset in ns and a frequency in 0.001 ppb (R240): the
servo's law is not given. -/
opaque servoIncrement : Int → Int → BitVec 33

/-- The leases that the node with a NODE EID marks in its HNG.ELIG words in a casement (R337): no message carries them
(DESIGN CHOICE, notes/assumptions/207.md). -/
opaque partnerMarks : Nat → Nat → BitVec 66

/-- A DPLL's phase error in ns at an instant, as its own hardware measures it (DPL.PHASE): a free value (notes/assumptions/181.md). -/
opaque dpllPhase : Nat → Nat → Int

end Sys2Proof.Config
end

