-- ==== Sys2Proof/Machine/Curves.lean ====
section
/-! DEFINITION. The curves that the spec gives by formula (R83, R96, R97, R101, R102, R143, R147): cosine, power and exponential
in fixed point, fine enough that only the rounding of a result to its grid, which the spec leaves open, remains free
(DESIGN CHOICE, notes/assumptions/64.md). -/

namespace Sys2Proof.Machine

open Sys2Proof (Word)

namespace Curve

/-- Fractional bits of the working numbers, and the number one. -/
def bits : Nat := 96
def one : Int := 2 ^ 96

/-- A quotient on the integer grid: exact where it divides, and otherwise the integer below or above, which the spec does
not say. -/
def roundRatio (num den : Int) : Int :=
  if num % den = 0 then num / den else num / den + (if Config.roundsUp num den then 1 else 0)

/-- A number with `k` more fractional bits than its grid. -/
def roundBits (v : Int) (k : Nat) : Int := roundRatio v (2 ^ k)

/-- The number rounded to `k` fractional bits of the 96: what is left of the working error goes with the rest. -/
def settleTo (v : Int) (k : Nat) : Int := (v + 2 ^ (95 - k)) / 2 ^ (96 - k)

/-- Product of two working numbers. -/
def mul (a b : Int) : Int := a * b / one

/-- π in 2^-96. -/
def pi : Int := 248902613312231085230521944622

/-- The sum of `n` terms from `term` on, the one after term `i` being it times `x` over `d i`. -/
def series (x : Int) (d : Nat → Int) : Nat → Nat → Int → Int
  | 0, _, _ => 0
  | n + 1, i, term => term + series x d n (i + 1) (mul term x / d i)

/-- cos(π a ÷ b) for 2 a ≤ b, and for a ≤ b. -/
def cosSmall (a b : Nat) : Int :=
  let x := pi * a / b
  series (-(mul x x)) (fun i => ((2 * i + 1) * (2 * i + 2) : Nat)) 22 0 one
def cosPi (a b : Nat) : Int :=
  if 2 * a = b then 0 else if 2 * a < b then cosSmall a b else -(cosSmall (b - a) b)

/-- e to the power `x` for |x| ≤ 1. -/
def exp (x : Int) : Int := series x (fun i => ((i + 1 : Nat) : Int)) 30 0 one

/-- ln 2 in 2^-96. -/
def ln2 : Int := 54916777467707473351141471128

/-- Binary digits of the logarithm of `x` from 1 up to 2, as a number of `n` digits. -/
def logDigits : Nat → Int → Int
  | 0, _ => 0
  | n + 1, x =>
    let y := mul x x
    if 2 * one ≤ y then 2 ^ n + logDigits n (y / 2) else logDigits n y

/-- log2 of the ratio of two positive integers, in 2^-80. -/
def log2 (num den : Nat) : Int :=
  let e : Int := (num.log2 : Int) - (den.log2 : Int)
  let x : Int := (if 0 ≤ e then (num * 2 ^ 96 : Int) / (den * 2 ^ e.toNat) else (num * 2 ^ 96 * 2 ^ (-e).toNat : Int) / den)
  if x < one then (e - 1) * 2 ^ 80 + logDigits 80 (2 * x) else e * 2 ^ 80 + logDigits 80 x

/-- A positive integer times 2 to the power `y` ÷ 2^80, in 2^-40. -/
def scaled (a : Nat) (y : Int) : Int :=
  let e := y / 2 ^ 80
  let f := exp (mul ((y % 2 ^ 80) * 2 ^ 16) ln2)
  let v : Int := a * f
  settleTo (if 0 ≤ e then v * 2 ^ e.toNat else v / 2 ^ (-e).toNat) 40

end Curve

/-- The raised-cosine weight (1 − cos(π a ÷ b)) ÷ 2 in 2^-65, and its complement. -/
def riseWeight (a b : Nat) : Int := 2 ^ 64 - Curve.settleTo (Curve.cosPi a b) 64
def fallWeight (a b : Nat) : Int := 2 ^ 65 - riseWeight a b

/-- Gain of a raised-cosine control ramp from `g0` to `g1` at sample `t` of `len` (R96). -/
def cosineRamp (g0 g1 : Word) (t len : Nat) : Word :=
  BitVec.ofInt 32 (Curve.roundBits (g0.toInt * fallWeight (t + 1) len + g1.toInt * riseWeight (t + 1) len) 65)

/-- The floor 2^-20 that stands for silence, in Q3.29. -/
def silence : Nat := 512

/-- Gain of a ramp that is linear in dB, of one sign (R96). -/
def decibelPart (g0 g1 : Int) (t len : Nat) : Int :=
  let a0 := Nat.max g0.natAbs silence
  let a1 := Nat.max g1.natAbs silence
  let v := Curve.roundBits (Curve.scaled a0 (Curve.log2 a1 a0 * (t + 1 : Nat) / (len : Int))) 40
  if g0 < 0 ∨ (g0 = 0 ∧ g1 < 0) then -v else v

/-- Gain of a ramp that is linear in dB (R96): between gains of opposite sign it closes over the first half and opens over
the second (R97). -/
def decibelRamp (g0 g1 : Word) (t len : Nat) : Word :=
  let a := g0.toInt
  let b := g1.toInt
  let half := len / 2
  if a * b < 0 then
    if t + 1 = half then 0
    else if t < half then BitVec.ofInt 32 (decibelPart a 0 t half)
    else BitVec.ofInt 32 (decibelPart 0 b (t - half) (len - half))
  else BitVec.ofInt 32 (decibelPart a b t len)

/-- Factor of a protect fade from factor `f` at sample `t` of `len` (R101, R102). -/
def fadeFactor (f : Word) (len t : Nat) : Word := BitVec.ofInt 32 (Curve.roundBits (f.toInt * fallWeight (t + 1) len) 65)

/-- Factor of a restore at sample `t` of `len` (R102). -/
def restoreFactor (len t : Nat) : Word := BitVec.ofInt 32 (Curve.roundBits (2 ^ 29 * riseWeight (t + 1) len) 65)

/-- Control gain times protect factor in Q3.29 (R94, SHT.RD0). -/
def gainProduct (g f : Word) : Word := BitVec.ofInt 32 (Curve.roundBits (g.toInt * f.toInt) 29)

/-- Sample `t` of a raised-cosine crossfade of `len` samples from one sample to another (R83). -/
def crossMix (t len : Nat) (a b : Word) : Word :=
  BitVec.ofInt 32 (Curve.roundBits (a.toInt * fallWeight t len + b.toInt * riseWeight t len) 65)

/-- The allpass coefficient for a delay of `delta` / 256 sample, in Q2.30 (R147). -/
def interpCoeff (delta : Nat) : Word := BitVec.ofInt 32 (Curve.roundRatio ((256 - delta : Int) * 2 ^ 30) (256 + delta))

/-- The limiter's gain THRESH ÷ p, an attack step from `g` toward `gt`, and a release step over `tr` samples, in 2^-62; and
the product of a sample and a gain (R143). -/
def limiterRatio (thresh p : Int) : Int := Curve.roundRatio (thresh * 2 ^ 62) p
def limiterFall (g gt : Int) (attack : Nat) : Int := g - Curve.roundBits (g - gt) attack
def limiterRise (g : Int) (tr : Nat) : Int :=
  g + Curve.roundBits ((2 ^ 62 - g) * (2 ^ 64 - Curve.settleTo (Curve.exp (-(Curve.one / (tr : Int)))) 64)) 64
def limiterOut (x g : Int) : Int := (x * g + 2 ^ 61) / 2 ^ 62

/-- A limiter gain as a reduction in 0.1 dB (BQD.LIM) (DESIGN CHOICE, notes/assumptions/69.md). -/
def gainReduction (g : Int) : Nat :=
  if g ≤ 0 ∨ 2 ^ 62 ≤ g then 0
  else (Curve.roundRatio (Curve.log2 (2 ^ 62) g.toNat * 60205999132796239) (2 ^ 80 * 1000000000000000)).toNat

end Sys2Proof.Machine
end

