-- ==== Sys2Proof/Machine/Crc.lean ====
section
/-! DEFINITION. The cyclic redundancy codes of the spec: CRC-8 of hinge frames (R342), CRC-16 of identity frames (R283), CRC-32
of the address filter (R209) and CRC-32C of images, configuration copies and digests (R334, R345). -/

namespace Sys2Proof.Machine

open Sys2Proof (Word Byte)

/-- The bits of a byte, most significant first. -/
def msbBits (b : Byte) : List Bool := [7, 6, 5, 4, 3, 2, 1, 0].map (fun k => b.getLsbD k)

/-- A CRC of width `w` over bits, most significant first, from the value `c`. -/
def crcMsb (w poly : Nat) : Nat → List Bool → Nat
  | c, [] => c
  | c, b :: bs =>
    let top := (c / 2 ^ (w - 1) % 2 == 1) != b
    let s := c * 2 % 2 ^ w
    crcMsb w poly (if top then s ^^^ poly else s) bs

/-- CRC-8, polynomial 0x07, initial value 0 (R342). -/
def crc8 (bs : List Byte) : Nat := crcMsb 8 0x07 0 (bs.flatMap msbBits)

/-- CRC-16, polynomial 0x1021, initial value 0xFFFF (R283). -/
def crc16 (bs : List Byte) : Nat := crcMsb 16 0x1021 0xFFFF (bs.flatMap msbBits)

/-- The bits of a byte, least significant first. -/
def lsbBits (b : Byte) : List Bool := [0, 1, 2, 3, 4, 5, 6, 7].map (fun k => b.getLsbD k)

/-- A reflected 32-bit CRC with the polynomial `poly`, from the value `c`. -/
def crcLsb (poly : Nat) : Nat → List Bool → Nat
  | c, [] => c
  | c, b :: bs => crcLsb poly (if ((c % 2 == 1) != b) then (c / 2) ^^^ poly else c / 2) bs

/-- CRC-32C over bytes (Castagnoli). -/
def crc32c (bs : List Byte) : Nat := crcLsb 0x82F63B78 0xFFFFFFFF (bs.flatMap lsbBits) ^^^ 0xFFFFFFFF

/-- CRC-32 of IEEE 802.3 over bytes (R209). -/
def crc32 (bs : List Byte) : Nat := crcLsb 0xEDB88320 0xFFFFFFFF (bs.flatMap lsbBits) ^^^ 0xFFFFFFFF

/-- A hinge frame (R342): TYPE, TSEQ and its CRC-8. -/
def hingeFrame (type tseq : Nat) : Word :=
  let b := BitVec.ofNat 8 (type % 4 * 64 + tseq % 64)
  BitVec.ofNat 32 (0xB4000000 + b.toNat * 65536 + crc8 [0xB4, b, 0])

end Sys2Proof.Machine
end

