-- ==== Sys2Proof/Machine/RegTable.lean ====
section
/-! DEFINITION. Every register of the spec: its offset, its reset value and its fields with their places and access types
(R9), block by block, in the order of the chapters. Each field has one name, used wherever the model reads or writes it. -/

namespace Sys2Proof.Machine

/-- A field of a register: the register's offset in its page, and the field's bits [hi:lo]. -/
structure Field where
  off : Nat
  hi : Nat
  lo : Nat
deriving DecidableEq, Repr

/-- The access types of R9. A keyed field is one of these with the `keyed` mark of its row. -/
inductive Access
  | rw | ro | w1c | w1t | rc | sh | wo
deriving DecidableEq, Repr

/-- One field of a register's table: where it lies, its access type, whether it is keyed (WK), and the page numbers in
which it is writable where the table restricts them (an empty list: all). -/
structure FieldRow where
  field : Field
  access : Access
  keyed : Bool := false
  only : List Nat := []
deriving DecidableEq, Repr

/-- One register: offset, reset value and fields. -/
structure RegRow where
  off : Nat
  reset : Nat
  fields : List FieldRow
deriving DecidableEq, Repr

namespace Fld

/-- PG_ID.TYPE -/
def pgIdType : Field := ⟨0x000, 31, 20⟩
/-- PG_ID.INSTANCE -/
def pgIdInstance : Field := ⟨0x000, 19, 12⟩
/-- PG_ID.MAJOR -/
def pgIdMajor : Field := ⟨0x000, 11, 8⟩
/-- PG_ID.MINOR -/
def pgIdMinor : Field := ⟨0x000, 7, 0⟩
/-- PG_CAP.BLOCK_CAP -/
def pgCapBlockCap : Field := ⟨0x004, 31, 16⟩
/-- PG_CAP.NIRQ -/
def pgCapNirq : Field := ⟨0x004, 15, 8⟩
/-- PG_CAP.HAS_KEY -/
def pgCapHasKey : Field := ⟨0x004, 2, 2⟩
/-- PG_CAP.HAS_SHADOW -/
def pgCapHasShadow : Field := ⟨0x004, 1, 1⟩
/-- PG_CAP.PRESENT -/
def pgCapPresent : Field := ⟨0x004, 0, 0⟩
/-- PG_CTRL.COMMIT_MODE -/
def pgCtrlCommitMode : Field := ⟨0x008, 5, 4⟩
/-- PG_CTRL.FREEZE -/
def pgCtrlFreeze : Field := ⟨0x008, 2, 2⟩
/-- PG_CTRL.SOFT_RESET -/
def pgCtrlSoftReset : Field := ⟨0x008, 1, 1⟩
/-- PG_CTRL.ENABLE -/
def pgCtrlEnable : Field := ⟨0x008, 0, 0⟩
/-- PG_STAT.BLOCK_STAT -/
def pgStatBlockStat : Field := ⟨0x00C, 31, 16⟩
/-- PG_STAT.FROZEN -/
def pgStatFrozen : Field := ⟨0x00C, 7, 7⟩
/-- PG_STAT.KEY_OPEN -/
def pgStatKeyOpen : Field := ⟨0x00C, 6, 6⟩
/-- PG_STAT.COMMIT_WAIT -/
def pgStatCommitWait : Field := ⟨0x00C, 5, 5⟩
/-- PG_STAT.SHADOW_DIRTY -/
def pgStatShadowDirty : Field := ⟨0x00C, 4, 4⟩
/-- PG_STAT.FAULTED -/
def pgStatFaulted : Field := ⟨0x00C, 3, 3⟩
/-- PG_STAT.PENDING -/
def pgStatPending : Field := ⟨0x00C, 2, 2⟩
/-- PG_STAT.BUSY -/
def pgStatBusy : Field := ⟨0x00C, 1, 1⟩
/-- PG_STAT.ACTIVE -/
def pgStatActive : Field := ⟨0x00C, 0, 0⟩
/-- PG_IRQ.IRQ -/
def pgIrqIrq : Field := ⟨0x010, 31, 0⟩
/-- PG_IRQEN.IRQEN -/
def pgIrqenIrqen : Field := ⟨0x014, 31, 0⟩
/-- PG_IRQSET.IRQSET -/
def pgIrqsetIrqset : Field := ⟨0x018, 31, 0⟩
/-- PG_FLTCAP.CASEMENT -/
def pgFltcapCasement : Field := ⟨0x01C, 31, 16⟩
/-- PG_FLTCAP.MORE -/
def pgFltcapMore : Field := ⟨0x01C, 10, 10⟩
/-- PG_FLTCAP.CLASS -/
def pgFltcapClass : Field := ⟨0x01C, 9, 8⟩
/-- PG_FLTCAP.CODE -/
def pgFltcapCode : Field := ⟨0x01C, 7, 0⟩
/-- PG_FLTCNT.CONTAINED -/
def pgFltcntContained : Field := ⟨0x020, 31, 16⟩
/-- PG_FLTCNT.CORRECTED -/
def pgFltcntCorrected : Field := ⟨0x020, 15, 0⟩
/-- PG_COMMIT.CASEMENT -/
def pgCommitCasement : Field := ⟨0x024, 31, 0⟩
/-- PG_COMMIT.COMMIT -/
def pgCommitCommit : Field := ⟨0x024, 0, 0⟩
/-- PG_KEY.DROPS -/
def pgKeyDrops : Field := ⟨0x028, 31, 16⟩
/-- PG_KEY.HOLDER -/
def pgKeyHolder : Field := ⟨0x028, 11, 9⟩
/-- PG_KEY.OPEN -/
def pgKeyOpen : Field := ⟨0x028, 8, 8⟩
/-- PG_KEY.CODE -/
def pgKeyCode : Field := ⟨0x028, 7, 0⟩
/-- MTX.REMAP.REMAP -/
def mtxRemapRemap : Field := ⟨0x040, 0, 0⟩
/-- MTX.DECERR.HAIRPIN -/
def mtxDecerrHairpin : Field := ⟨0x044, 31, 16⟩
/-- MTX.DECERR.DECODE -/
def mtxDecerrDecode : Field := ⟨0x044, 15, 0⟩
/-- MTX.ERRADDR.ADDR -/
def mtxErraddrAddr : Field := ⟨0x048, 31, 0⟩
/-- MTX.ERRINFO.VALID -/
def mtxErrinfoValid : Field := ⟨0x04C, 16, 16⟩
/-- MTX.ERRINFO.MASTER -/
def mtxErrinfoMaster : Field := ⟨0x04C, 12, 8⟩
/-- MTX.ERRINFO.ADDR_HI -/
def mtxErrinfoAddrHi : Field := ⟨0x04C, 7, 0⟩
/-- MTX.HOLD.CYCLE -/
def mtxHoldCycle : Field := ⟨0x050, 31, 16⟩
/-- MTX.HOLD.ORDER -/
def mtxHoldOrder : Field := ⟨0x050, 15, 0⟩
/-- MGT.MBX_DB.RING -/
def mgtMbxDbRing : Field := ⟨0x040, 3, 0⟩
/-- MGT.MBX_STAT.DROPS -/
def mgtMbxStatDrops : Field := ⟨0x044, 31, 16⟩
/-- MGT.MBX_STAT.DONE -/
def mgtMbxStatDone : Field := ⟨0x044, 11, 8⟩
/-- MGT.MBX_STAT.BUSY -/
def mgtMbxStatBusy : Field := ⟨0x044, 3, 0⟩
/-- MGT.MBX_TMO.MS -/
def mgtMbxTmoMs : Field := ⟨0x048, 15, 0⟩
/-- CAS.RATE.RATE -/
def casRateRate : Field := ⟨0x040, 2, 0⟩
/-- CAS.CTRL.REINDEX_NOW -/
def casCtrlReindexNow : Field := ⟨0x044, 1, 1⟩
/-- CAS.CTRL.AUTO_REINDEX -/
def casCtrlAutoReindex : Field := ⟨0x044, 0, 0⟩
/-- CAS.STAT.DEGRADED -/
def casStatDegraded : Field := ⟨0x048, 17, 17⟩
/-- CAS.STAT.TRANSITION -/
def casStatTransition : Field := ⟨0x048, 16, 16⟩
/-- CAS.STAT.RATE -/
def casStatRate : Field := ⟨0x048, 15, 13⟩
/-- CAS.STAT.SPC -/
def casStatSpc : Field := ⟨0x048, 12, 8⟩
/-- CAS.STAT.REINDEXING -/
def casStatReindexing : Field := ⟨0x048, 1, 1⟩
/-- CAS.STAT.ALIGNED -/
def casStatAligned : Field := ⟨0x048, 0, 0⟩
/-- CAS.INDEX_LO.INDEX -/
def casIndexLoIndex : Field := ⟨0x04C, 31, 0⟩
/-- CAS.INDEX_HI.INDEX -/
def casIndexHiIndex : Field := ⟨0x050, 31, 0⟩
/-- CAS.ALIGN.NS -/
def casAlignNs : Field := ⟨0x054, 31, 0⟩
/-- CAS.ALIGN_LIM.NS -/
def casAlignLimNs : Field := ⟨0x058, 23, 0⟩
/-- CAS.LOAD.RESERVE_PEAK -/
def casLoadReservePeak : Field := ⟨0x05C, 31, 24⟩
/-- CAS.LOAD.ADMITTED -/
def casLoadAdmitted : Field := ⟨0x05C, 23, 16⟩
/-- CAS.LOAD.ENG_PEAK -/
def casLoadEngPeak : Field := ⟨0x05C, 15, 8⟩
/-- CAS.LOAD.ENG_NOW -/
def casLoadEngNow : Field := ⟨0x05C, 7, 0⟩
/-- CAS.REFUSE.LOAD_PCT -/
def casRefuseLoadPct : Field := ⟨0x060, 31, 24⟩
/-- CAS.REFUSE.REASON -/
def casRefuseReason : Field := ⟨0x060, 23, 16⟩
/-- CAS.REFUSE.BUDGET -/
def casRefuseBudget : Field := ⟨0x060, 15, 8⟩
/-- CAS.REFUSE.JOB -/
def casRefuseJob : Field := ⟨0x060, 7, 0⟩
/-- CAS.EVENTS.REINDEX -/
def casEventsReindex : Field := ⟨0x064, 31, 24⟩
/-- CAS.EVENTS.DEFERRED -/
def casEventsDeferred : Field := ⟨0x064, 23, 16⟩
/-- CAS.EVENTS.UNFINISHED -/
def casEventsUnfinished : Field := ⟨0x064, 15, 0⟩
/-- CAS.OVR_INFO.VALID -/
def casOvrInfoValid : Field := ⟨0x068, 31, 31⟩
/-- CAS.OVR_INFO.DIE -/
def casOvrInfoDie : Field := ⟨0x068, 23, 20⟩
/-- CAS.OVR_INFO.UNIT -/
def casOvrInfoUnit : Field := ⟨0x068, 19, 16⟩
/-- CAS.OVR_INFO.ITEM -/
def casOvrInfoItem : Field := ⟨0x068, 15, 0⟩
/-- CAS.LAT_SEL.SINK_KIND -/
def casLatSelSinkKind : Field := ⟨0x06C, 31, 29⟩
/-- CAS.LAT_SEL.SINK -/
def casLatSelSink : Field := ⟨0x06C, 28, 16⟩
/-- CAS.LAT_SEL.SOURCE -/
def casLatSelSource : Field := ⟨0x06C, 11, 0⟩
/-- CAS.LAT_VAL.VALID -/
def casLatValValid : Field := ⟨0x070, 31, 31⟩
/-- CAS.LAT_VAL.MULTI -/
def casLatValMulti : Field := ⟨0x070, 30, 30⟩
/-- CAS.LAT_VAL.SAMPLES -/
def casLatValSamples : Field := ⟨0x070, 27, 8⟩
/-- CAS.LAT_VAL.FRACTION -/
def casLatValFraction : Field := ⟨0x070, 7, 0⟩
/-- XPT.CTRL.FOLLOW -/
def xptCtrlFollow : Field := ⟨0x040, 1, 1⟩
/-- XPT.CTRL.SWAP -/
def xptCtrlSwap : Field := ⟨0x040, 0, 0⟩
/-- XPT.STAT.INACTIVE_DIRTY -/
def xptStatInactiveDirty : Field := ⟨0x044, 2, 2⟩
/-- XPT.STAT.COPYING -/
def xptStatCopying : Field := ⟨0x044, 1, 1⟩
/-- XPT.STAT.ACTIVE_BANK -/
def xptStatActiveBank : Field := ⟨0x044, 0, 0⟩
/-- XPT.COUNT.XFADE -/
def xptCountXfade : Field := ⟨0x048, 31, 16⟩
/-- XPT.COUNT.VALID -/
def xptCountValid : Field := ⟨0x048, 15, 0⟩
/-- XPT.HELD.PATHS -/
def xptHeldPaths : Field := ⟨0x04C, 15, 0⟩
/-- XPT.WERR.ACTIVE -/
def xptWerrActive : Field := ⟨0x050, 31, 16⟩
/-- XPT.WERR.MASKED -/
def xptWerrMasked : Field := ⟨0x050, 15, 0⟩
/-- XPT.OBJ_SEL.OBJ -/
def xptObjSelObj : Field := ⟨0x054, 31, 28⟩
/-- XPT.OBJ_SEL.SINK_KIND -/
def xptObjSelSinkKind : Field := ⟨0x054, 27, 25⟩
/-- XPT.OBJ_SEL.INDEX -/
def xptObjSelIndex : Field := ⟨0x054, 12, 0⟩
/-- XPT.OBJ_VALk.VAL -/
def xptObjValVal (k : Nat) : Field := ⟨0x058 + 0x4 * k, 31, 0⟩
/-- SHT.CTRL.MUTE_ALL -/
def shtCtrlMuteAll : Field := ⟨0x040, 0, 0⟩
/-- SHT.STAT.FADED_BUNDLES -/
def shtStatFadedBundles : Field := ⟨0x044, 23, 16⟩
/-- SHT.STAT.MUTE_PIN -/
def shtStatMutePin : Field := ⟨0x044, 1, 1⟩
/-- SHT.STAT.MUTED -/
def shtStatMuted : Field := ⟨0x044, 0, 0⟩
/-- SHT.SEL.KIND -/
def shtSelKind : Field := ⟨0x048, 31, 28⟩
/-- SHT.SEL.SINK_KIND -/
def shtSelSinkKind : Field := ⟨0x048, 27, 25⟩
/-- SHT.SEL.INDEX -/
def shtSelIndex : Field := ⟨0x048, 13, 0⟩
/-- SHT.WGAIN.GAIN -/
def shtWgainGain : Field := ⟨0x04C, 31, 0⟩
/-- SHT.WCFG.SHUT -/
def shtWcfgShut : Field := ⟨0x050, 31, 31⟩
/-- SHT.WCFG.LAW -/
def shtWcfgLaw : Field := ⟨0x050, 29, 28⟩
/-- SHT.WCFG.RESTORE -/
def shtWcfgRestore : Field := ⟨0x050, 27, 16⟩
/-- SHT.WCFG.RAMP -/
def shtWcfgRamp : Field := ⟨0x050, 11, 0⟩
/-- SHT.PUSH.PUSH -/
def shtPushPush : Field := ⟨0x054, 0, 0⟩
/-- SHT.QSTAT.QUEUED -/
def shtQstatQueued : Field := ⟨0x058, 24, 16⟩
/-- SHT.QSTAT.DROPS -/
def shtQstatDrops : Field := ⟨0x058, 15, 0⟩
/-- SHT.RD0.GAIN -/
def shtRd0Gain : Field := ⟨0x05C, 31, 0⟩
/-- SHT.RD1.TARGET -/
def shtRd1Target : Field := ⟨0x060, 31, 0⟩
/-- SHT.RD2.CFG -/
def shtRd2Cfg : Field := ⟨0x064, 31, 0⟩
/-- SHT.RD3.LEFT -/
def shtRd3Left : Field := ⟨0x068, 31, 20⟩
/-- SHT.RD3.CAUSES -/
def shtRd3Causes : Field := ⟨0x068, 15, 8⟩
/-- SHT.RD3.PSTATE -/
def shtRd3Pstate : Field := ⟨0x068, 7, 4⟩
/-- SHT.RD3.CSTATE -/
def shtRd3Cstate : Field := ⟨0x068, 3, 0⟩
/-- SHT.EVENTS.BUNDLE_FADES -/
def shtEventsBundleFades : Field := ⟨0x06C, 31, 16⟩
/-- SHT.EVENTS.REVERSALS -/
def shtEventsReversals : Field := ⟨0x06C, 15, 0⟩
/-- SHT.MUTES.EMERGENCY -/
def shtMutesEmergency : Field := ⟨0x070, 31, 16⟩
/-- SHT.MUTES.PIN -/
def shtMutesPin : Field := ⟨0x070, 15, 0⟩
/-- PEN.MAP.SPARE_FOR -/
def penMapSpareFor : Field := ⟨0x040, 23, 20⟩
/-- PEN.MAP.STATE -/
def penMapState : Field := ⟨0x040, 17, 0⟩
/-- PEN.SUSPECT.SUSPECT -/
def penSuspectSuspect : Field := ⟨0x044, 8, 0⟩
/-- PEN.CHECK.RECOMPUTED -/
def penCheckRecomputed : Field := ⟨0x048, 31, 16⟩
/-- PEN.CHECK.MISMATCH -/
def penCheckMismatch : Field := ⟨0x048, 15, 0⟩
/-- PEN.MMCAP.VALID -/
def penMmcapValid : Field := ⟨0x04C, 31, 31⟩
/-- PEN.MMCAP.ENGINE -/
def penMmcapEngine : Field := ⟨0x04C, 27, 24⟩
/-- PEN.MMCAP.LANE -/
def penMmcapLane : Field := ⟨0x04C, 23, 22⟩
/-- PEN.MMCAP.STAGE -/
def penMmcapStage : Field := ⟨0x04C, 21, 20⟩
/-- PEN.MMCAP.ITEM -/
def penMmcapItem : Field := ⟨0x04C, 15, 0⟩
/-- PEN.SAT.COUNT -/
def penSatCount : Field := ⟨0x050, 31, 16⟩
/-- PEN.SAT.STICKY -/
def penSatSticky : Field := ⟨0x050, 8, 0⟩
/-- PEN.SATCAP.VALID -/
def penSatcapValid : Field := ⟨0x054, 31, 31⟩
/-- PEN.SATCAP.ENGINE -/
def penSatcapEngine : Field := ⟨0x054, 27, 24⟩
/-- PEN.SATCAP.STAGE -/
def penSatcapStage : Field := ⟨0x054, 21, 20⟩
/-- PEN.SATCAP.ITEM -/
def penSatcapItem : Field := ⟨0x054, 15, 0⟩
/-- PEN.STEST.LAST_FAIL -/
def penStestLastFail : Field := ⟨0x058, 24, 16⟩
/-- PEN.STEST.RUN -/
def penStestRun : Field := ⟨0x058, 8, 0⟩
/-- PEN.INJECT.ARM -/
def penInjectArm : Field := ⟨0x05C, 31, 31⟩
/-- PEN.INJECT.COUNT -/
def penInjectCount : Field := ⟨0x05C, 9, 8⟩
/-- PEN.INJECT.ENGINE -/
def penInjectEngine : Field := ⟨0x05C, 3, 0⟩
/-- FEN.ECC.UNCORRECTED -/
def fenEccUncorrected : Field := ⟨0x040, 31, 16⟩
/-- FEN.ECC.CORRECTED -/
def fenEccCorrected : Field := ⟨0x040, 15, 0⟩
/-- FEN.ECCCAP.VALID -/
def fenEcccapValid : Field := ⟨0x044, 31, 31⟩
/-- FEN.ECCCAP.UNCORR -/
def fenEcccapUncorr : Field := ⟨0x044, 30, 30⟩
/-- FEN.ECCCAP.BANK -/
def fenEcccapBank : Field := ⟨0x044, 28, 24⟩
/-- FEN.ECCCAP.OFFSET -/
def fenEcccapOffset : Field := ⟨0x044, 18, 0⟩
/-- FEN.RETIRED.BANK -/
def fenRetiredBank : Field := ⟨0x048, 23, 0⟩
/-- FEN.USE.FREE_KIB -/
def fenUseFreeKib : Field := ⟨0x04C, 29, 16⟩
/-- FEN.USE.USED_KIB -/
def fenUseUsedKib : Field := ⟨0x04C, 13, 0⟩
/-- LNK.STAT.LINK1 -/
def lnkStatLink1 : Field := ⟨0x040, 11, 8⟩
/-- LNK.STAT.LINK0 -/
def lnkStatLink0 : Field := ⟨0x040, 3, 0⟩
/-- LNK.CRCERR.LINK1 -/
def lnkCrcerrLink1 : Field := ⟨0x044, 31, 16⟩
/-- LNK.CRCERR.LINK0 -/
def lnkCrcerrLink0 : Field := ⟨0x044, 15, 0⟩
/-- LNK.REPLAY.LINK1 -/
def lnkReplayLink1 : Field := ⟨0x048, 31, 16⟩
/-- LNK.REPLAY.LINK0 -/
def lnkReplayLink0 : Field := ⟨0x048, 15, 0⟩
/-- LNK.LANES0.LANE -/
def lnkLanes0Lane : Field := ⟨0x04C, 31, 0⟩
/-- LNK.LANES1.LANE -/
def lnkLanes1Lane : Field := ⟨0x050, 31, 0⟩
/-- LNK.LOAD.L1_DOWN -/
def lnkLoadL1Down : Field := ⟨0x054, 31, 24⟩
/-- LNK.LOAD.L1_UP -/
def lnkLoadL1Up : Field := ⟨0x054, 23, 16⟩
/-- LNK.LOAD.L0_DOWN -/
def lnkLoadL0Down : Field := ⟨0x054, 15, 8⟩
/-- LNK.LOAD.L0_UP -/
def lnkLoadL0Up : Field := ⟨0x054, 7, 0⟩
/-- BQD.SEL.KIND -/
def bqdSelKind : Field := ⟨0x040, 31, 30⟩
/-- BQD.SEL.INDEX -/
def bqdSelIndex : Field := ⟨0x040, 27, 16⟩
/-- BQD.SEL.RECORD -/
def bqdSelRecord : Field := ⟨0x040, 5, 0⟩
/-- BQD.Wk.WORD -/
def bqdWWord (k : Nat) : Field := ⟨0x044 + 0x4 * k, 31, 0⟩
/-- BQD.ACT.CANCEL -/
def bqdActCancel : Field := ⟨0x05C, 6, 6⟩
/-- BQD.ACT.SWAPREQ -/
def bqdActSwapreq : Field := ⟨0x05C, 5, 5⟩
/-- BQD.ACT.PREP -/
def bqdActPrep : Field := ⟨0x05C, 4, 4⟩
/-- BQD.ACT.READ_INACTIVE -/
def bqdActReadInactive : Field := ⟨0x05C, 3, 3⟩
/-- BQD.ACT.READ_ACTIVE -/
def bqdActReadActive : Field := ⟨0x05C, 2, 2⟩
/-- BQD.ACT.WRITE_INACTIVE -/
def bqdActWriteInactive : Field := ⟨0x05C, 1, 1⟩
/-- BQD.ACT.WRITE_ACTIVE -/
def bqdActWriteActive : Field := ⟨0x05C, 0, 0⟩
/-- BQD.SWAP_AT.SAMPLE -/
def bqdSwapAtSample : Field := ⟨0x060, 4, 0⟩
/-- BQD.STAT.MARKED -/
def bqdStatMarked : Field := ⟨0x064, 28, 16⟩
/-- BQD.STAT.SECTIONS -/
def bqdStatSections : Field := ⟨0x064, 13, 8⟩
/-- BQD.STAT.VALID -/
def bqdStatValid : Field := ⟨0x064, 3, 3⟩
/-- BQD.STAT.SWAP_PENDING -/
def bqdStatSwapPending : Field := ⟨0x064, 2, 2⟩
/-- BQD.STAT.PREP_BUSY -/
def bqdStatPrepBusy : Field := ⟨0x064, 1, 1⟩
/-- BQD.STAT.ACTIVE_BANK -/
def bqdStatActiveBank : Field := ⟨0x064, 0, 0⟩
/-- BQD.ERR.DISCARDED -/
def bqdErrDiscarded : Field := ⟨0x068, 31, 24⟩
/-- BQD.ERR.DEFERRED -/
def bqdErrDeferred : Field := ⟨0x068, 23, 16⟩
/-- BQD.ERR.DROPS -/
def bqdErrDrops : Field := ⟨0x068, 15, 0⟩
/-- BQD.LOC0.OFFSET -/
def bqdLoc0Offset : Field := ⟨0x06C, 23, 0⟩
/-- BQD.LOC1.OFFSET -/
def bqdLoc1Offset : Field := ⟨0x070, 23, 0⟩
/-- BQD.LIM.GR_PEAK -/
def bqdLimGrPeak : Field := ⟨0x074, 31, 16⟩
/-- BQD.LIM.GR_NOW -/
def bqdLimGrNow : Field := ⟨0x074, 15, 0⟩
/-- BQD.LIMCLIP.COUNT -/
def bqdLimclipCount : Field := ⟨0x078, 31, 0⟩
/-- FIR.SEL.STRIP -/
def firSelStrip : Field := ⟨0x040, 9, 0⟩
/-- FIR.ACT.CANCEL -/
def firActCancel : Field := ⟨0x044, 2, 2⟩
/-- FIR.ACT.SWAPREQ -/
def firActSwapreq : Field := ⟨0x044, 1, 1⟩
/-- FIR.ACT.PREP -/
def firActPrep : Field := ⟨0x044, 0, 0⟩
/-- FIR.SWAP_AT.SAMPLE -/
def firSwapAtSample : Field := ⟨0x048, 4, 0⟩
/-- FIR.STAT.VALID -/
def firStatValid : Field := ⟨0x04C, 31, 31⟩
/-- FIR.STAT.SEGMENTS -/
def firStatSegments : Field := ⟨0x04C, 28, 16⟩
/-- FIR.STAT.SWAP_PENDING -/
def firStatSwapPending : Field := ⟨0x04C, 2, 2⟩
/-- FIR.STAT.PREP_BUSY -/
def firStatPrepBusy : Field := ⟨0x04C, 1, 1⟩
/-- FIR.STAT.ACTIVE_BANK -/
def firStatActiveBank : Field := ⟨0x04C, 0, 0⟩
/-- FIR.LOC0.OFFSET -/
def firLoc0Offset : Field := ⟨0x050, 23, 0⟩
/-- FIR.LOC1.OFFSET -/
def firLoc1Offset : Field := ⟨0x054, 23, 0⟩
/-- FIR.HIST.OFFSET -/
def firHistOffset : Field := ⟨0x058, 23, 0⟩
/-- FIR.POOL.TOTAL -/
def firPoolTotal : Field := ⟨0x05C, 31, 16⟩
/-- FIR.POOL.USED -/
def firPoolUsed : Field := ⟨0x05C, 15, 0⟩
/-- FIR.ERR.DISCARDED -/
def firErrDiscarded : Field := ⟨0x060, 31, 24⟩
/-- FIR.ERR.DEFERRED -/
def firErrDeferred : Field := ⟨0x060, 23, 16⟩
/-- FIR.ERR.DROPS -/
def firErrDrops : Field := ⟨0x060, 15, 0⟩
/-- DLY.SEL.KIND -/
def dlySelKind : Field := ⟨0x040, 31, 30⟩
/-- DLY.SEL.INDEX -/
def dlySelIndex : Field := ⟨0x040, 11, 0⟩
/-- DLY.CFG.VALID -/
def dlyCfgValid : Field := ⟨0x044, 31, 31⟩
/-- DLY.CFG.CLASS -/
def dlyCfgClass : Field := ⟨0x044, 29, 28⟩
/-- DLY.CFG.FRAC -/
def dlyCfgFrac : Field := ⟨0x044, 24, 24⟩
/-- DLY.CFG.CAPACITY -/
def dlyCfgCapacity : Field := ⟨0x044, 18, 0⟩
/-- DLY.TARGET.SAMPLES -/
def dlyTargetSamples : Field := ⟨0x048, 26, 8⟩
/-- DLY.TARGET.FRACTION -/
def dlyTargetFraction : Field := ⟨0x048, 7, 0⟩
/-- DLY.NOW.SAMPLES -/
def dlyNowSamples : Field := ⟨0x04C, 26, 8⟩
/-- DLY.NOW.FRACTION -/
def dlyNowFraction : Field := ⟨0x04C, 7, 0⟩
/-- DLY.STATE.LEFT -/
def dlyStateLeft : Field := ⟨0x050, 31, 12⟩
/-- DLY.STATE.POISON -/
def dlyStatePoison : Field := ⟨0x050, 5, 5⟩
/-- DLY.STATE.SLOWED -/
def dlyStateSlowed : Field := ⟨0x050, 4, 4⟩
/-- DLY.STATE.MODE -/
def dlyStateMode : Field := ⟨0x050, 2, 0⟩
/-- DLY.STEER.APPLIED -/
def dlySteerApplied : Field := ⟨0x054, 31, 16⟩
/-- DLY.STEER.COPYING -/
def dlySteerCopying : Field := ⟨0x054, 2, 2⟩
/-- DLY.STEER.PENDING -/
def dlySteerPending : Field := ⟨0x054, 1, 1⟩
/-- DLY.STEER.ACTIVE_BANK -/
def dlySteerActiveBank : Field := ⟨0x054, 0, 0⟩
/-- DLY.STEER_SEQ.SEQ -/
def dlySteerSeqSeq : Field := ⟨0x058, 31, 0⟩
/-- DLY.STEER_LOC0.OFFSET -/
def dlySteerLoc0Offset : Field := ⟨0x05C, 23, 0⟩
/-- DLY.STEER_LOC1.OFFSET -/
def dlySteerLoc1Offset : Field := ⟨0x060, 23, 0⟩
/-- DLY.GLIDE_MAX.RATE -/
def dlyGlideMaxRate : Field := ⟨0x064, 9, 0⟩
/-- DLY.COUNT.LATE -/
def dlyCountLate : Field := ⟨0x068, 31, 24⟩
/-- DLY.COUNT.CLAMPED -/
def dlyCountClamped : Field := ⟨0x068, 23, 16⟩
/-- DLY.COUNT.SLOWED -/
def dlyCountSlowed : Field := ⟨0x068, 15, 8⟩
/-- DLY.COUNT.WAIT -/
def dlyCountWait : Field := ⟨0x068, 7, 0⟩
/-- DLY.POISON.COUNT -/
def dlyPoisonCount : Field := ⟨0x06C, 15, 0⟩
/-- RCX.STAT.RUNNABLE -/
def rcxStatRunnable : Field := ⟨0x040, 31, 24⟩
/-- RCX.STAT.STOPPED -/
def rcxStatStopped : Field := ⟨0x040, 23, 16⟩
/-- RCX.STAT.RETIRED -/
def rcxStatRetired : Field := ⟨0x040, 15, 15⟩
/-- RCX.STAT.SLOT -/
def rcxStatSlot : Field := ⟨0x040, 10, 8⟩
/-- RCX.STAT.STATE -/
def rcxStatState : Field := ⟨0x040, 1, 0⟩
/-- RCX.SEL.SLOT -/
def rcxSelSlot : Field := ⟨0x044, 2, 0⟩
/-- RCX.PDESC0.VALID -/
def rcxPdesc0Valid : Field := ⟨0x048, 31, 31⟩
/-- RCX.PDESC0.HOOK -/
def rcxPdesc0Hook : Field := ⟨0x048, 30, 30⟩
/-- RCX.PDESC0.BUDGET -/
def rcxPdesc0Budget : Field := ⟨0x048, 17, 0⟩
/-- RCX.PDESC1.NOUT -/
def rcxPdesc1Nout : Field := ⟨0x04C, 30, 24⟩
/-- RCX.PDESC1.NIN -/
def rcxPdesc1Nin : Field := ⟨0x04C, 22, 16⟩
/-- RCX.PDESC1.ENTRY -/
def rcxPdesc1Entry : Field := ⟨0x04C, 13, 0⟩
/-- RCX.PCYC_LAST.CYCLES -/
def rcxPcycLastCycles : Field := ⟨0x050, 17, 0⟩
/-- RCX.PCYC_PEAK.CYCLES -/
def rcxPcycPeakCycles : Field := ⟨0x054, 17, 0⟩
/-- RCX.PCNT.CONSEC -/
def rcxPcntConsec : Field := ⟨0x058, 31, 24⟩
/-- RCX.PCNT.REPCLAMP -/
def rcxPcntRepclamp : Field := ⟨0x058, 23, 16⟩
/-- RCX.PCNT.STOPS -/
def rcxPcntStops : Field := ⟨0x058, 15, 0⟩
/-- RCX.OVR_LIMIT.LIMIT -/
def rcxOvrLimitLimit : Field := ⟨0x05C, 7, 0⟩
/-- RCX.ERRCAP.VALID -/
def rcxErrcapValid : Field := ⟨0x060, 31, 31⟩
/-- RCX.ERRCAP.HANDLER -/
def rcxErrcapHandler : Field := ⟨0x060, 30, 30⟩
/-- RCX.ERRCAP.CODE -/
def rcxErrcapCode : Field := ⟨0x060, 27, 24⟩
/-- RCX.ERRCAP.SLOT -/
def rcxErrcapSlot : Field := ⟨0x060, 23, 21⟩
/-- RCX.ERRCAP.PC -/
def rcxErrcapPc : Field := ⟨0x060, 13, 0⟩
/-- RCX.SAT.COUNT -/
def rcxSatCount : Field := ⟨0x064, 31, 16⟩
/-- RCX.SAT.STICKY -/
def rcxSatSticky : Field := ⟨0x064, 2, 0⟩
/-- RCX.IRQ_BUDGET.CYCLES -/
def rcxIrqBudgetCycles : Field := ⟨0x068, 17, 0⟩
/-- RCX.IRQ_STAT.HOLDOFF_PEAK -/
def rcxIrqStatHoldoffPeak : Field := ⟨0x06C, 24, 16⟩
/-- RCX.IRQ_STAT.OVER -/
def rcxIrqStatOver : Field := ⟨0x06C, 15, 8⟩
/-- RCX.IRQ_STAT.PEND -/
def rcxIrqStatPend : Field := ⟨0x06C, 2, 0⟩
/-- RCX.IRQ_CYC.CYCLES -/
def rcxIrqCycCycles : Field := ⟨0x070, 17, 0⟩
/-- RCX.MBX_CTL.DROPS -/
def rcxMbxCtlDrops : Field := ⟨0x074, 31, 16⟩
/-- RCX.MBX_CTL.DONE -/
def rcxMbxCtlDone : Field := ⟨0x074, 9, 9⟩
/-- RCX.MBX_CTL.FULL -/
def rcxMbxCtlFull : Field := ⟨0x074, 8, 8⟩
/-- RCX.MBX_CTL.DB -/
def rcxMbxCtlDb : Field := ⟨0x074, 0, 0⟩
/-- RCX.ACT.RESTART -/
def rcxActRestart : Field := ⟨0x078, 15, 8⟩
/-- RCX.ACT.STEST -/
def rcxActStest : Field := ⟨0x078, 0, 0⟩
/-- RCX.MEMERR.UNCORRECTED -/
def rcxMemerrUncorrected : Field := ⟨0x07C, 31, 16⟩
/-- RCX.MEMERR.CORRECTED -/
def rcxMemerrCorrected : Field := ⟨0x07C, 15, 0⟩
/-- RCX.MBX_INk.WORD -/
def rcxMbxInWord (k : Nat) : Field := ⟨0x080 + 0x4 * k, 31, 0⟩
/-- RCX.MBX_OUTk.WORD -/
def rcxMbxOutWord (k : Nat) : Field := ⟨0x090 + 0x4 * k, 31, 0⟩
/-- RCX.EVTSELk.KIND -/
def rcxEvtselKind (k : Nat) : Field := ⟨0x0A0 + 0x4 * k, 31, 28⟩
/-- RCX.EVTSELk.SINK_KIND -/
def rcxEvtselSinkKind (k : Nat) : Field := ⟨0x0A0 + 0x4 * k, 27, 25⟩
/-- RCX.EVTSELk.EDGES -/
def rcxEvtselEdges (k : Nat) : Field := ⟨0x0A0 + 0x4 * k, 24, 21⟩
/-- RCX.EVTSELk.INDEX -/
def rcxEvtselIndex (k : Nat) : Field := ⟨0x0A0 + 0x4 * k, 13, 0⟩
/-- RCX.EVTCODE.VALID -/
def rcxEvtcodeValid : Field := ⟨0x0B0, 31, 31⟩
/-- RCX.EVTCODE.SLOT -/
def rcxEvtcodeSlot : Field := ⟨0x0B0, 12, 10⟩
/-- RCX.EVTCODE.CODE -/
def rcxEvtcodeCode : Field := ⟨0x0B0, 9, 0⟩
/-- RCX.MEMSEL.PROG -/
def rcxMemselProg : Field := ⟨0x0B4, 31, 31⟩
/-- RCX.MEMSEL.ADDR -/
def rcxMemselAddr : Field := ⟨0x0B4, 14, 0⟩
/-- RCX.MEMDATA.DATA -/
def rcxMemdataData : Field := ⟨0x0B8, 31, 0⟩
/-- STR.SEL.STREAM -/
def strSelStream : Field := ⟨0x040, 7, 0⟩
/-- STR.DESC0.VALID -/
def strDesc0Valid : Field := ⟨0x044, 31, 31⟩
/-- STR.DESC0.KIND -/
def strDesc0Kind : Field := ⟨0x044, 30, 30⟩
/-- STR.DESC0.DUAL -/
def strDesc0Dual : Field := ⟨0x044, 29, 29⟩
/-- STR.DESC0.PORT -/
def strDesc0Port : Field := ⟨0x044, 28, 27⟩
/-- STR.DESC0.EID -/
def strDesc0Eid : Field := ⟨0x044, 23, 0⟩
/-- STR.DESC1.VERSION -/
def strDesc1Version : Field := ⟨0x048, 31, 28⟩
/-- STR.DESC1.SUBSCRIBERS -/
def strDesc1Subscribers : Field := ⟨0x048, 23, 16⟩
/-- STR.DESC1.CHANNELS -/
def strDesc1Channels : Field := ⟨0x048, 7, 0⟩
/-- STR.DESC2.FIRST -/
def strDesc2First : Field := ⟨0x04C, 27, 16⟩
/-- STR.DESC2.DSCP -/
def strDesc2Dscp : Field := ⟨0x04C, 13, 8⟩
/-- STR.DESC2.PTIME -/
def strDesc2Ptime : Field := ⟨0x04C, 7, 4⟩
/-- STR.DESC2.CONV -/
def strDesc2Conv : Field := ⟨0x04C, 1, 0⟩
/-- STR.DESC3.UDP_DST -/
def strDesc3UdpDst : Field := ⟨0x050, 31, 16⟩
/-- STR.DESC3.PT -/
def strDesc3Pt : Field := ⟨0x050, 15, 8⟩
/-- STR.PKTS.COUNT -/
def strPktsCount : Field := ⟨0x054, 31, 0⟩
/-- STR.WITHHELD.SECOND -/
def strWithheldSecond : Field := ⟨0x058, 31, 16⟩
/-- STR.WITHHELD.FIRST -/
def strWithheldFirst : Field := ⟨0x058, 15, 0⟩
/-- STR.LAUNCH.PEAK -/
def strLaunchPeak : Field := ⟨0x05C, 31, 16⟩
/-- STR.LAUNCH.LAST -/
def strLaunchLast : Field := ⟨0x05C, 15, 0⟩
/-- STR.VERSION.INCOMPAT -/
def strVersionIncompat : Field := ⟨0x060, 23, 16⟩
/-- STR.VERSION.MAX -/
def strVersionMax : Field := ⟨0x060, 7, 4⟩
/-- STR.VERSION.MIN -/
def strVersionMin : Field := ⟨0x060, 3, 0⟩
/-- SLU.SEL.STREAM -/
def sluSelStream : Field := ⟨0x040, 8, 0⟩
/-- SLU.DESC0.VALID -/
def sluDesc0Valid : Field := ⟨0x044, 31, 31⟩
/-- SLU.DESC0.KIND -/
def sluDesc0Kind : Field := ⟨0x044, 30, 30⟩
/-- SLU.DESC0.DUAL -/
def sluDesc0Dual : Field := ⟨0x044, 29, 29⟩
/-- SLU.DESC0.PORT -/
def sluDesc0Port : Field := ⟨0x044, 28, 27⟩
/-- SLU.DESC0.PARTNER -/
def sluDesc0Partner : Field := ⟨0x044, 26, 26⟩
/-- SLU.DESC0.EID -/
def sluDesc0Eid : Field := ⟨0x044, 23, 0⟩
/-- SLU.DESC1.VERSION -/
def sluDesc1Version : Field := ⟨0x048, 31, 28⟩
/-- SLU.DESC1.BUNDLE -/
def sluDesc1Bundle : Field := ⟨0x048, 23, 16⟩
/-- SLU.DESC1.DEPTH -/
def sluDesc1Depth : Field := ⟨0x048, 15, 8⟩
/-- SLU.DESC1.CHANNELS -/
def sluDesc1Channels : Field := ⟨0x048, 7, 0⟩
/-- SLU.DESC2.FIRST -/
def sluDesc2First : Field := ⟨0x04C, 27, 16⟩
/-- SLU.DESC2.PTIME -/
def sluDesc2Ptime : Field := ⟨0x04C, 7, 4⟩
/-- SLU.DESC2.CONV -/
def sluDesc2Conv : Field := ⟨0x04C, 1, 0⟩
/-- SLU.DESC3.UDP_DST -/
def sluDesc3UdpDst : Field := ⟨0x050, 31, 16⟩
/-- SLU.DESC3.PT -/
def sluDesc3Pt : Field := ⟨0x050, 15, 8⟩
/-- SLU.STATE.HEALTHY_RUN -/
def sluStateHealthyRun : Field := ⟨0x054, 15, 8⟩
/-- SLU.STATE.PATHS -/
def sluStatePaths : Field := ⟨0x054, 5, 4⟩
/-- SLU.STATE.STATE -/
def sluStateState : Field := ⟨0x054, 2, 0⟩
/-- SLU.BOG0.LATE -/
def sluBog0Late : Field := ⟨0x058, 31, 16⟩
/-- SLU.BOG0.DUPLICATE -/
def sluBog0Duplicate : Field := ⟨0x058, 15, 0⟩
/-- SLU.BOG1.EARLY -/
def sluBog1Early : Field := ⟨0x05C, 31, 16⟩
/-- SLU.BOG1.INVALID -/
def sluBog1Invalid : Field := ⟨0x05C, 15, 0⟩
/-- SLU.BOG2.CORRUPT -/
def sluBog2Corrupt : Field := ⟨0x060, 31, 16⟩
/-- SLU.BOG2.LOST -/
def sluBog2Lost : Field := ⟨0x060, 15, 0⟩
/-- SLU.MISSING.UNDERRUN -/
def sluMissingUnderrun : Field := ⟨0x064, 31, 16⟩
/-- SLU.MISSING.OVERRUN -/
def sluMissingOverrun : Field := ⟨0x064, 15, 0⟩
/-- SLU.PATH.SECOND -/
def sluPathSecond : Field := ⟨0x068, 31, 16⟩
/-- SLU.PATH.FIRST -/
def sluPathFirst : Field := ⟨0x068, 15, 0⟩
/-- SLU.MARGIN.MIN_US -/
def sluMarginMinUs : Field := ⟨0x06C, 31, 16⟩
/-- SLU.MARGIN.LAST_US -/
def sluMarginLastUs : Field := ⟨0x06C, 15, 0⟩
/-- SLU.UNMATCHED.ETH3 -/
def sluUnmatchedEth3 : Field := ⟨0x070, 31, 24⟩
/-- SLU.UNMATCHED.ETH2 -/
def sluUnmatchedEth2 : Field := ⟨0x070, 23, 16⟩
/-- SLU.UNMATCHED.ETH1 -/
def sluUnmatchedEth1 : Field := ⟨0x070, 15, 8⟩
/-- SLU.UNMATCHED.ETH0 -/
def sluUnmatchedEth0 : Field := ⟨0x070, 7, 0⟩
/-- SLU.USE.FREE_KIB -/
def sluUseFreeKib : Field := ⟨0x074, 31, 16⟩
/-- SLU.USE.USED_KIB -/
def sluUseUsedKib : Field := ⟨0x074, 15, 0⟩
/-- SLU.ECC.RETIRED -/
def sluEccRetired : Field := ⟨0x078, 23, 16⟩
/-- SLU.ECC.UNCORRECTED -/
def sluEccUncorrected : Field := ⟨0x078, 15, 8⟩
/-- SLU.ECC.CORRECTED -/
def sluEccCorrected : Field := ⟨0x078, 7, 0⟩
/-- MAC.CFG.KEEP_BAD -/
def macCfgKeepBad : Field := ⟨0x040, 7, 7⟩
/-- MAC.CFG.RX_PAUSE_EN -/
def macCfgRxPauseEn : Field := ⟨0x040, 6, 6⟩
/-- MAC.CFG.PROMISC -/
def macCfgPromisc : Field := ⟨0x040, 5, 5⟩
/-- MAC.CFG.PAIRED -/
def macCfgPaired : Field := ⟨0x040, 4, 4⟩
/-- MAC.CFG.FEC -/
def macCfgFec : Field := ⟨0x040, 3, 2⟩
/-- MAC.CFG.SPEED -/
def macCfgSpeed : Field := ⟨0x040, 0, 0⟩
/-- MAC.MAXLEN.BYTES -/
def macMaxlenBytes : Field := ⟨0x044, 13, 0⟩
/-- MAC.ADDR_LO.ADDR -/
def macAddrLoAddr : Field := ⟨0x048, 31, 0⟩
/-- MAC.ADDR_HI.ADDR -/
def macAddrHiAddr : Field := ⟨0x04C, 15, 0⟩
/-- MAC.MCHASHk.HASH -/
def macMchashHash (k : Nat) : Field := ⟨0x050 + 0x4 * k, 31, 0⟩
/-- MAC.RXCLASS.UDP_HI -/
def macRxclassUdpHi : Field := ⟨0x070, 31, 16⟩
/-- MAC.RXCLASS.UDP_LO -/
def macRxclassUdpLo : Field := ⟨0x070, 15, 0⟩
/-- MAC.STAT.RETIRED -/
def macStatRetired : Field := ⟨0x074, 7, 7⟩
/-- MAC.STAT.CFG_DROP -/
def macStatCfgDrop : Field := ⟨0x074, 6, 6⟩
/-- MAC.STAT.PAUSED -/
def macStatPaused : Field := ⟨0x074, 5, 5⟩
/-- MAC.STAT.TRAINING -/
def macStatTraining : Field := ⟨0x074, 4, 4⟩
/-- MAC.STAT.REMOTE_FAULT -/
def macStatRemoteFault : Field := ⟨0x074, 3, 3⟩
/-- MAC.STAT.LOCAL_FAULT -/
def macStatLocalFault : Field := ⟨0x074, 2, 2⟩
/-- MAC.STAT.BLOCK_LOCK -/
def macStatBlockLock : Field := ⟨0x074, 1, 1⟩
/-- MAC.STAT.LINK -/
def macStatLink : Field := ⟨0x074, 0, 0⟩
/-- MAC.TSCORR.TX -/
def macTscorrTx : Field := ⟨0x078, 31, 16⟩
/-- MAC.TSCORR.RX -/
def macTscorrRx : Field := ⟨0x078, 15, 0⟩
/-- MAC.TSADJ.TX -/
def macTsadjTx : Field := ⟨0x07C, 31, 16⟩
/-- MAC.TSADJ.RX -/
def macTsadjRx : Field := ⟨0x07C, 15, 0⟩
/-- MAC.TXR_BASE_LO.ADDR -/
def macTxrBaseLoAddr : Field := ⟨0x080, 31, 0⟩
/-- MAC.RXR_BASE_LO.ADDR -/
def macRxrBaseLoAddr : Field := ⟨0x090, 31, 0⟩
/-- MAC.TXR_BASE_HI.SIZE -/
def macTxrBaseHiSize : Field := ⟨0x084, 19, 16⟩
/-- MAC.TXR_BASE_HI.ADDR_HI -/
def macTxrBaseHiAddrHi : Field := ⟨0x084, 7, 0⟩
/-- MAC.RXR_BASE_HI.SIZE -/
def macRxrBaseHiSize : Field := ⟨0x094, 19, 16⟩
/-- MAC.RXR_BASE_HI.ADDR_HI -/
def macRxrBaseHiAddrHi : Field := ⟨0x094, 7, 0⟩
/-- MAC.TXR_TAIL.INDEX -/
def macTxrTailIndex : Field := ⟨0x088, 11, 0⟩
/-- MAC.TXR_HEAD.INDEX -/
def macTxrHeadIndex : Field := ⟨0x08C, 11, 0⟩
/-- MAC.RXR_TAIL.INDEX -/
def macRxrTailIndex : Field := ⟨0x098, 11, 0⟩
/-- MAC.RXR_HEAD.INDEX -/
def macRxrHeadIndex : Field := ⟨0x09C, 11, 0⟩
/-- MAC.PAUSE.LEFT -/
def macPauseLeft : Field := ⟨0x0A0, 31, 16⟩
/-- MAC.PAUSE.CAP_US -/
def macPauseCapUs : Field := ⟨0x0A0, 15, 0⟩
/-- MAC.CNT_LOk.COUNT -/
def macCntLoCount (k : Nat) : Field := ⟨0x100 + 0x8 * k, 31, 0⟩
/-- MAC.CNT_HIk.COUNT -/
def macCntHiCount (k : Nat) : Field := ⟨0x104 + 0x8 * k, 31, 0⟩
/-- PHC.CTRL.STEER -/
def phcCtrlSteer : Field := ⟨0x040, 0, 0⟩
/-- PHC.TIME_NS.EPOCH -/
def phcTimeNsEpoch : Field := ⟨0x044, 31, 30⟩
/-- PHC.TIME_NS.NS -/
def phcTimeNsNs : Field := ⟨0x044, 29, 0⟩
/-- PHC.TIME_SEC_LO.VAL -/
def phcTimeSecLoVal : Field := ⟨0x048, 31, 0⟩
/-- PHC.TIME_SEC_HI.VAL -/
def phcTimeSecHiVal : Field := ⟨0x04C, 31, 0⟩
/-- PHC.TIME_FRAC.VAL -/
def phcTimeFracVal : Field := ⟨0x050, 31, 0⟩
/-- PHC.INCR_FRAC.FRAC -/
def phcIncrFracFrac : Field := ⟨0x054, 31, 0⟩
/-- PHC.INCR_NS.NS -/
def phcIncrNsNs : Field := ⟨0x058, 7, 0⟩
/-- PHC.STEP_NS.NS -/
def phcStepNsNs : Field := ⟨0x05C, 31, 0⟩
/-- PHC.STEP_SEC_LO.SEC -/
def phcStepSecLoSec : Field := ⟨0x060, 31, 0⟩
/-- PHC.STEP_SEC_HI.SEC -/
def phcStepSecHiSec : Field := ⟨0x064, 15, 0⟩
/-- PHC.STEP_CTRL.PERMIT -/
def phcStepCtrlPermit : Field := ⟨0x068, 1, 1⟩
/-- PHC.STEP_CTRL.GO -/
def phcStepCtrlGo : Field := ⟨0x068, 0, 0⟩
/-- PHC.STEP_LIMIT.NS -/
def phcStepLimitNs : Field := ⟨0x06C, 31, 0⟩
/-- PHC.STAT.DP1_STEERING -/
def phcStatDp1Steering : Field := ⟨0x070, 8, 8⟩
/-- PHC.STAT.LAST_RESULT -/
def phcStatLastResult : Field := ⟨0x070, 7, 4⟩
/-- PHC.STAT.EPOCH -/
def phcStatEpoch : Field := ⟨0x070, 3, 2⟩
/-- PHC.STAT.STEP_BUSY -/
def phcStatStepBusy : Field := ⟨0x070, 1, 1⟩
/-- PHC.STAT.PERMIT_ARMED -/
def phcStatPermitArmed : Field := ⟨0x070, 0, 0⟩
/-- PHC.EVENTS.STEPS -/
def phcEventsSteps : Field := ⟨0x074, 31, 16⟩
/-- PHC.EVENTS.REFUSED -/
def phcEventsRefused : Field := ⟨0x074, 15, 8⟩
/-- PHC.EVENTS.INCR_DROPS -/
def phcEventsIncrDrops : Field := ⟨0x074, 7, 0⟩
/-- PHC.LAST_STEP.NS -/
def phcLastStepNs : Field := ⟨0x078, 31, 0⟩
/-- REF.CTRL.STEP_ON_SWITCH -/
def refCtrlStepOnSwitch : Field := ⟨0x040, 8, 8⟩
/-- REF.CTRL.MANUAL -/
def refCtrlManual : Field := ⟨0x040, 7, 4⟩
/-- REF.CTRL.MODE -/
def refCtrlMode : Field := ⟨0x040, 1, 0⟩
/-- REF.STAT.QUALIFIED -/
def refStatQualified : Field := ⟨0x044, 31, 16⟩
/-- REF.STAT.MANUAL_HELD -/
def refStatManualHeld : Field := ⟨0x044, 15, 15⟩
/-- REF.STAT.ACTIVE -/
def refStatActive : Field := ⟨0x044, 11, 8⟩
/-- REF.STAT.ACTIVE_VALID -/
def refStatActiveValid : Field := ⟨0x044, 7, 7⟩
/-- REF.STAT.STATE -/
def refStatState : Field := ⟨0x044, 2, 0⟩
/-- REF.AGREE.PPB -/
def refAgreePpb : Field := ⟨0x048, 15, 0⟩
/-- REF.QLMAP.G2 -/
def refQlmapG2 : Field := ⟨0x04C, 31, 16⟩
/-- REF.QLMAP.G1 -/
def refQlmapG1 : Field := ⟨0x04C, 15, 0⟩
/-- REF.FLIM_ABS.HARD -/
def refFlimAbsHard : Field := ⟨0x050, 31, 16⟩
/-- REF.FLIM_ABS.SOFT -/
def refFlimAbsSoft : Field := ⟨0x050, 15, 0⟩
/-- REF.FLIM_REL.HARD -/
def refFlimRelHard : Field := ⟨0x054, 31, 16⟩
/-- REF.FLIM_REL.SOFT -/
def refFlimRelSoft : Field := ⟨0x054, 15, 0⟩
/-- REF.DRIFT_LIM.HARD -/
def refDriftLimHard : Field := ⟨0x058, 31, 16⟩
/-- REF.DRIFT_LIM.SOFT -/
def refDriftLimSoft : Field := ⟨0x058, 15, 0⟩
/-- REF.HOLDOVER.AVG -/
def refHoldoverAvg : Field := ⟨0x05C, 31, 24⟩
/-- REF.HOLDOVER.LIMIT_S -/
def refHoldoverLimitS : Field := ⟨0x05C, 23, 0⟩
/-- REF.HO_STAT.HIST_OK -/
def refHoStatHistOk : Field := ⟨0x060, 31, 31⟩
/-- REF.HO_STAT.EXPIRED -/
def refHoStatExpired : Field := ⟨0x060, 30, 30⟩
/-- REF.HO_STAT.ELAPSED -/
def refHoStatElapsed : Field := ⟨0x060, 23, 0⟩
/-- REF.HO_FREQ.FREQ -/
def refHoFreqFreq : Field := ⟨0x064, 31, 0⟩
/-- REF.EVENTS.SWITCHES -/
def refEventsSwitches : Field := ⟨0x068, 31, 16⟩
/-- REF.EVENTS.DISPUTES -/
def refEventsDisputes : Field := ⟨0x068, 15, 8⟩
/-- REF.EVENTS.VOTES -/
def refEventsVotes : Field := ⟨0x068, 7, 0⟩
/-- REF.SEL.SLOT -/
def refSelSlot : Field := ⟨0x06C, 3, 0⟩
/-- REF.SCFG0.ENABLE -/
def refScfg0Enable : Field := ⟨0x070, 31, 31⟩
/-- REF.SCFG0.SOURCE -/
def refScfg0Source : Field := ⟨0x070, 28, 24⟩
/-- REF.SCFG0.KIND -/
def refScfg0Kind : Field := ⟨0x070, 22, 20⟩
/-- REF.SCFG0.RANK -/
def refScfg0Rank : Field := ⟨0x070, 19, 16⟩
/-- REF.SCFG0.WTR_EN -/
def refScfg0WtrEn : Field := ⟨0x070, 15, 15⟩
/-- REF.SCFG0.WTR_S -/
def refScfg0WtrS : Field := ⟨0x070, 11, 0⟩
/-- REF.SCFG1.QL_MIN -/
def refScfg1QlMin : Field := ⟨0x074, 31, 16⟩
/-- REF.SCFG1.USER_QL -/
def refScfg1UserQl : Field := ⟨0x074, 15, 0⟩
/-- REF.SCFG2.NUM -/
def refScfg2Num : Field := ⟨0x078, 31, 0⟩
/-- REF.SCFG3.POL -/
def refScfg3Pol : Field := ⟨0x07C, 31, 31⟩
/-- REF.SCFG3.DEN -/
def refScfg3Den : Field := ⟨0x07C, 15, 0⟩
/-- REF.SOFFSET.NS -/
def refSoffsetNs : Field := ⟨0x080, 31, 0⟩
/-- REF.SSTAT.WTR_LEFT -/
def refSstatWtrLeft : Field := ⟨0x084, 31, 20⟩
/-- REF.SSTAT.DISPUTE -/
def refSstatDispute : Field := ⟨0x084, 17, 17⟩
/-- REF.SSTAT.ACTIVE -/
def refSstatActive : Field := ⟨0x084, 16, 16⟩
/-- REF.SSTAT.CFG_ERR -/
def refSstatCfgErr : Field := ⟨0x084, 8, 8⟩
/-- REF.SSTAT.STATE -/
def refSstatState : Field := ⟨0x084, 3, 0⟩
/-- REF.SQL.RECEIVED -/
def refSqlReceived : Field := ⟨0x088, 31, 16⟩
/-- REF.SQL.IN_FORCE -/
def refSqlInForce : Field := ⟨0x088, 15, 0⟩
/-- REF.SFREQ_ABS.VAL -/
def refSfreqAbsVal : Field := ⟨0x08C, 31, 0⟩
/-- REF.SFREQ_REL.VAL -/
def refSfreqRelVal : Field := ⟨0x090, 31, 0⟩
/-- REF.SDRIFT.VAL -/
def refSdriftVal : Field := ⟨0x094, 31, 0⟩
/-- REF.WCKk.ENABLE -/
def refWckEnable (k : Nat) : Field := ⟨0x0A0 + 0x4 * k, 31, 31⟩
/-- REF.WCKk.SQUELCH -/
def refWckSquelch (k : Nat) : Field := ⟨0x0A0 + 0x4 * k, 30, 30⟩
/-- REF.WCKk.SRC -/
def refWckSrc (k : Nat) : Field := ⟨0x0A0 + 0x4 * k, 29, 28⟩
/-- REF.WCKk.RATE -/
def refWckRate (k : Nat) : Field := ⟨0x0A0 + 0x4 * k, 26, 24⟩
/-- REF.WCKk.ERR -/
def refWckErr (k : Nat) : Field := ⟨0x0A0 + 0x4 * k, 22, 22⟩
/-- REF.WCKk.OFFSET_NS -/
def refWckOffsetNs (k : Nat) : Field := ⟨0x0A0 + 0x4 * k, 15, 0⟩
/-- REF.PPS.ENABLE -/
def refPpsEnable : Field := ⟨0x0B0, 31, 31⟩
/-- REF.PPS.SQUELCH -/
def refPpsSquelch : Field := ⟨0x0B0, 30, 30⟩
/-- REF.PPS.WIDTH_US -/
def refPpsWidthUs : Field := ⟨0x0B0, 19, 0⟩
/-- REF.TEN.ENABLE -/
def refTenEnable : Field := ⟨0x0B4, 31, 31⟩
/-- REF.TEN.SQUELCH -/
def refTenSquelch : Field := ⟨0x0B4, 30, 30⟩
/-- REF.TEN.SRC -/
def refTenSrc : Field := ⟨0x0B4, 29, 28⟩
/-- REF.TEN.ERR -/
def refTenErr : Field := ⟨0x0B4, 22, 22⟩
/-- DPL.CFG.FAMILY -/
def dplCfgFamily : Field := ⟨0x040, 25, 24⟩
/-- DPL.CFG.SLOT -/
def dplCfgSlot : Field := ⟨0x040, 23, 20⟩
/-- DPL.CFG.INPUT -/
def dplCfgInput : Field := ⟨0x040, 17, 16⟩
/-- DPL.CFG.ACQ_BW -/
def dplCfgAcqBw : Field := ⟨0x040, 12, 8⟩
/-- DPL.CFG.BW -/
def dplCfgBw : Field := ⟨0x040, 4, 0⟩
/-- DPL.PSL.NS_PER_S -/
def dplPslNsPerS : Field := ⟨0x044, 16, 0⟩
/-- DPL.LOCK.WINDOW_NS -/
def dplLockWindowNs : Field := ⟨0x048, 15, 0⟩
/-- DPL.STAT.BW_CLAMPED -/
def dplStatBwClamped : Field := ⟨0x04C, 17, 17⟩
/-- DPL.STAT.SLEWING -/
def dplStatSlewing : Field := ⟨0x04C, 16, 16⟩
/-- DPL.STAT.BW_NOW -/
def dplStatBwNow : Field := ⟨0x04C, 12, 8⟩
/-- DPL.STAT.STATE -/
def dplStatState : Field := ⟨0x04C, 2, 0⟩
/-- DPL.PHASE.NS -/
def dplPhaseNs : Field := ⟨0x050, 31, 0⟩
/-- DPL.SLEW_LEFT.NS -/
def dplSlewLeftNs : Field := ⟨0x054, 31, 0⟩
/-- DPL.FREQ.FREQ -/
def dplFreqFreq : Field := ⟨0x058, 31, 0⟩
/-- DPL.EVENTS.LOCK_LOSS -/
def dplEventsLockLoss : Field := ⟨0x05C, 31, 16⟩
/-- DPL.EVENTS.HOLDOVERS -/
def dplEventsHoldovers : Field := ⟨0x05C, 15, 0⟩
/-- AES.CFG.TX_VSET -/
def aesCfgTxVset : Field := ⟨0x040, 11, 10⟩
/-- AES.CFG.TX_USER -/
def aesCfgTxUser : Field := ⟨0x040, 9, 9⟩
/-- AES.CFG.TX_REFOUT -/
def aesCfgTxRefout : Field := ⟨0x040, 8, 8⟩
/-- AES.CFG.TX_DIV -/
def aesCfgTxDiv : Field := ⟨0x040, 7, 6⟩
/-- AES.CFG.TX_AUTO_RATE -/
def aesCfgTxAutoRate : Field := ⟨0x040, 5, 5⟩
/-- AES.CFG.V_MUTE -/
def aesCfgVMute : Field := ⟨0x040, 4, 4⟩
/-- AES.CFG.RX_SYNC -/
def aesCfgRxSync : Field := ⟨0x040, 2, 2⟩
/-- AES.CFG.TX_ON -/
def aesCfgTxOn : Field := ⟨0x040, 1, 1⟩
/-- AES.CFG.RX_ON -/
def aesCfgRxOn : Field := ⟨0x040, 0, 0⟩
/-- AES.RX_STAT.RATE -/
def aesRxStatRate : Field := ⟨0x044, 31, 16⟩
/-- AES.RX_STAT.FRESH -/
def aesRxStatFresh : Field := ⟨0x044, 8, 8⟩
/-- AES.RX_STAT.MODE_ERR -/
def aesRxStatModeErr : Field := ⟨0x044, 7, 7⟩
/-- AES.RX_STAT.V_B -/
def aesRxStatVB : Field := ⟨0x044, 6, 6⟩
/-- AES.RX_STAT.V_A -/
def aesRxStatVA : Field := ⟨0x044, 5, 5⟩
/-- AES.RX_STAT.PRO -/
def aesRxStatPro : Field := ⟨0x044, 4, 4⟩
/-- AES.RX_STAT.STATE -/
def aesRxStatState : Field := ⟨0x044, 2, 0⟩
/-- AES.RX_RATIO.RATIO -/
def aesRxRatioRatio : Field := ⟨0x048, 31, 0⟩
/-- AES.RX_ERR.PARITY -/
def aesRxErrParity : Field := ⟨0x04C, 31, 24⟩
/-- AES.RX_ERR.CRCC -/
def aesRxErrCrcc : Field := ⟨0x04C, 23, 16⟩
/-- AES.RX_ERR.BLKSYNC -/
def aesRxErrBlksync : Field := ⟨0x04C, 15, 8⟩
/-- AES.RX_ERR.SLIPS -/
def aesRxErrSlips : Field := ⟨0x04C, 7, 0⟩
/-- AES.RX_VCNT.V_B -/
def aesRxVcntVB : Field := ⟨0x050, 31, 16⟩
/-- AES.RX_VCNT.V_A -/
def aesRxVcntVA : Field := ⟨0x050, 15, 0⟩
/-- AES.CAP_SEL.WHAT -/
def aesCapSelWhat : Field := ⟨0x054, 1, 0⟩
/-- AES.CAPk.BYTES -/
def aesCapBytes (k : Nat) : Field := ⟨0x058 + 0x4 * k, 31, 0⟩
/-- AES.TX_CSk.BYTES -/
def aesTxCsBytes (k : Nat) : Field := ⟨0x070 + 0x4 * k, 31, 0⟩
/-- AES.TX_Uk.BYTES -/
def aesTxUBytes (k : Nat) : Field := ⟨0x088 + 0x4 * k, 31, 0⟩
/-- AES.TX_STAT.GRADE -/
def aesTxStatGrade : Field := ⟨0x0A0, 3, 2⟩
/-- AES.TX_STAT.CS_PENDING -/
def aesTxStatCsPending : Field := ⟨0x0A0, 1, 1⟩
/-- AES.TX_STAT.RUNNING -/
def aesTxStatRunning : Field := ⟨0x0A0, 0, 0⟩
/-- AES.ERR.MASKED -/
def aesErrMasked : Field := ⟨0x0A4, 15, 0⟩
/-- TDM.CFG.TRISTATE -/
def tdmCfgTristate : Field := ⟨0x040, 13, 13⟩
/-- TDM.CFG.DELAY1 -/
def tdmCfgDelay1 : Field := ⟨0x040, 12, 12⟩
/-- TDM.CFG.FS_POL -/
def tdmCfgFsPol : Field := ⟨0x040, 11, 11⟩
/-- TDM.CFG.FS_LONG -/
def tdmCfgFsLong : Field := ⟨0x040, 10, 10⟩
/-- TDM.CFG.MASTER -/
def tdmCfgMaster : Field := ⟨0x040, 9, 9⟩
/-- TDM.CFG.DIV -/
def tdmCfgDiv : Field := ⟨0x040, 8, 7⟩
/-- TDM.CFG.SLOTS_M1 -/
def tdmCfgSlotsM1 : Field := ⟨0x040, 6, 2⟩
/-- TDM.CFG.WIDTH -/
def tdmCfgWidth : Field := ⟨0x040, 1, 0⟩
/-- TDM.RXMASK.SLOT -/
def tdmRxmaskSlot : Field := ⟨0x044, 31, 0⟩
/-- TDM.TXMASK.SLOT -/
def tdmTxmaskSlot : Field := ⟨0x048, 31, 0⟩
/-- TDM.MASKCTL.GRACEFUL -/
def tdmMaskctlGraceful : Field := ⟨0x04C, 0, 0⟩
/-- TDM.RXACT.SLOT -/
def tdmRxactSlot : Field := ⟨0x050, 31, 0⟩
/-- TDM.TXACT.SLOT -/
def tdmTxactSlot : Field := ⟨0x054, 31, 0⟩
/-- TDM.STAT.FIFO -/
def tdmStatFifo : Field := ⟨0x058, 10, 8⟩
/-- TDM.STAT.FADING -/
def tdmStatFading : Field := ⟨0x058, 1, 1⟩
/-- TDM.STAT.CLOCKED -/
def tdmStatClocked : Field := ⟨0x058, 0, 0⟩
/-- TDM.ERR.FRAMING -/
def tdmErrFraming : Field := ⟨0x05C, 31, 24⟩
/-- TDM.ERR.SLIPS -/
def tdmErrSlips : Field := ⟨0x05C, 23, 16⟩
/-- TDM.ERR.MASKED -/
def tdmErrMasked : Field := ⟨0x05C, 15, 0⟩
/-- SDI.CTRL.CLK_EN -/
def sdiCtrlClkEn : Field := ⟨0x040, 3, 0⟩
/-- SDI.STUCK0.INPUT -/
def sdiStuck0Input : Field := ⟨0x044, 31, 0⟩
/-- SDI.STUCK1.INPUT -/
def sdiStuck1Input : Field := ⟨0x048, 31, 0⟩
/-- SDI.EVENTS.STUCK -/
def sdiEventsStuck : Field := ⟨0x04C, 15, 0⟩
/-- DEC.SEL.CHANNEL -/
def decSelChannel : Field := ⟨0x040, 5, 0⟩
/-- DEC.CFG.ON -/
def decCfgOn : Field := ⟨0x044, 31, 31⟩
/-- DEC.CFG.PIN -/
def decCfgPin : Field := ⟨0x044, 13, 8⟩
/-- DEC.CFG.PRESET -/
def decCfgPreset : Field := ⟨0x044, 1, 0⟩
/-- DEC.STAT.SETTLE_LEFT -/
def decStatSettleLeft : Field := ⟨0x048, 31, 20⟩
/-- DEC.STAT.SAT -/
def decStatSat : Field := ⟨0x048, 19, 19⟩
/-- DEC.STAT.BANK -/
def decStatBank : Field := ⟨0x048, 18, 18⟩
/-- DEC.STAT.SETTLING -/
def decStatSettling : Field := ⟨0x048, 17, 17⟩
/-- DEC.STAT.FADING -/
def decStatFading : Field := ⟨0x048, 16, 16⟩
/-- DEC.STAT.PIN -/
def decStatPin : Field := ⟨0x048, 13, 8⟩
/-- DEC.STAT.PRESET -/
def decStatPreset : Field := ⟨0x048, 1, 0⟩
/-- DEC.DELAY.PRESET_DLY -/
def decDelayPresetDly : Field := ⟨0x04C, 31, 16⟩
/-- DEC.DELAY.TOTAL -/
def decDelayTotal : Field := ⟨0x04C, 15, 0⟩
/-- DEC.ERR.MASKED -/
def decErrMasked : Field := ⟨0x050, 15, 0⟩
/-- MOD.CHCTLk.CH_EN -/
def modChctlChEn (k : Nat) : Field := ⟨0x040 + 0x20 * k, 31, 31⟩
/-- MOD.CHCTLk.CLEAR -/
def modChctlClear (k : Nat) : Field := ⟨0x040 + 0x20 * k, 30, 30⟩
/-- MOD.CHCTLk.ROLE -/
def modChctlRole (k : Nat) : Field := ⟨0x040 + 0x20 * k, 29, 29⟩
/-- MOD.CHCTLk.RGROUP -/
def modChctlRgroup (k : Nat) : Field := ⟨0x040 + 0x20 * k, 21, 16⟩
/-- MOD.CARRIERk.CMODE -/
def modCarrierCmode (k : Nat) : Field := ⟨0x044 + 0x20 * k, 31, 31⟩
/-- MOD.CARRIERk.PHASE -/
def modCarrierPhase (k : Nat) : Field := ⟨0x044 + 0x20 * k, 27, 16⟩
/-- MOD.CARRIERk.PERIOD -/
def modCarrierPeriod (k : Nat) : Field := ⟨0x044 + 0x20 * k, 11, 0⟩
/-- MOD.LOOPk.FF_GAIN -/
def modLoopFfGain (k : Nat) : Field := ⟨0x048 + 0x20 * k, 31, 16⟩
/-- MOD.LOOPk.CORR_MAX -/
def modLoopCorrMax (k : Nat) : Field := ⟨0x048 + 0x20 * k, 15, 8⟩
/-- MOD.LOOPk.BW -/
def modLoopBw (k : Nat) : Field := ⟨0x048 + 0x20 * k, 1, 0⟩
/-- MOD.PROTk.ILIM -/
def modProtIlim (k : Nat) : Field := ⟨0x04C + 0x20 * k, 15, 0⟩
/-- MOD.CHSTATk.STATE -/
def modChstatState (k : Nat) : Field := ⟨0x050 + 0x20 * k, 31, 28⟩
/-- MOD.CHSTATk.BUSY -/
def modChstatBusy (k : Nat) : Field := ⟨0x050 + 0x20 * k, 27, 27⟩
/-- MOD.CHSTATk.PENDING -/
def modChstatPending (k : Nat) : Field := ⟨0x050 + 0x20 * k, 26, 26⟩
/-- MOD.CHSTATk.ID_OK -/
def modChstatIdOk (k : Nat) : Field := ⟨0x050 + 0x20 * k, 25, 25⟩
/-- MOD.CHSTATk.FOLLOWED -/
def modChstatFollowed (k : Nat) : Field := ⟨0x050 + 0x20 * k, 24, 24⟩
/-- MOD.CHSTATk.RAMPED -/
def modChstatRamped (k : Nat) : Field := ⟨0x050 + 0x20 * k, 23, 23⟩
/-- MOD.CHSTATk.LATE_MEMBER -/
def modChstatLateMember (k : Nat) : Field := ⟨0x050 + 0x20 * k, 22, 22⟩
/-- MOD.CHSTATk.NOT_FOLLOWED -/
def modChstatNotFollowed (k : Nat) : Field := ⟨0x050 + 0x20 * k, 21, 21⟩
/-- MOD.CHSTATk.FOLLOW_TMO -/
def modChstatFollowTmo (k : Nat) : Field := ⟨0x050 + 0x20 * k, 20, 20⟩
/-- MOD.CHSTATk.GRP_ERR -/
def modChstatGrpErr (k : Nat) : Field := ⟨0x050 + 0x20 * k, 19, 19⟩
/-- MOD.CHSTATk.TRIP_CAUSE -/
def modChstatTripCause (k : Nat) : Field := ⟨0x050 + 0x20 * k, 18, 16⟩
/-- MOD.CHSTATk.COOL_LEFT -/
def modChstatCoolLeft (k : Nat) : Field := ⟨0x050 + 0x20 * k, 15, 0⟩
/-- MOD.TRIPSk.WINDOW -/
def modTripsWindow (k : Nat) : Field := ⟨0x054 + 0x20 * k, 31, 24⟩
/-- MOD.TRIPSk.TOTAL -/
def modTripsTotal (k : Nat) : Field := ⟨0x054 + 0x20 * k, 15, 0⟩
/-- MOD.CLIPk.CLIP -/
def modClipClip (k : Nat) : Field := ⟨0x058 + 0x20 * k, 31, 16⟩
/-- MOD.CLIPk.PCLAMP -/
def modClipPclamp (k : Nat) : Field := ⟨0x058 + 0x20 * k, 15, 0⟩
/-- SNS.SEL.CHANNEL -/
def snsSelChannel : Field := ⟨0x040, 7, 0⟩
/-- SNS.IDSTAT.FRAMES -/
def snsIdstatFrames : Field := ⟨0x044, 31, 16⟩
/-- SNS.IDSTAT.BAD -/
def snsIdstatBad : Field := ⟨0x044, 15, 8⟩
/-- SNS.IDSTAT.VERSION -/
def snsIdstatVersion : Field := ⟨0x044, 7, 4⟩
/-- SNS.IDSTAT.RESULT -/
def snsIdstatResult : Field := ⟨0x044, 3, 0⟩
/-- SNS.IDk.BYTES -/
def snsIdBytes (k : Nat) : Field := ⟨0x048 + 0x4 * k, 31, 0⟩
/-- SNS.METER.I_PEAK -/
def snsMeterIPeak : Field := ⟨0x068, 31, 16⟩
/-- SNS.METER.V_PEAK -/
def snsMeterVPeak : Field := ⟨0x068, 15, 0⟩
/-- SNS.LNK.LINK1 -/
def snsLnkLink1 : Field := ⟨0x06C, 11, 8⟩
/-- SNS.LNK.LINK0 -/
def snsLnkLink0 : Field := ⟨0x06C, 3, 0⟩
/-- SNS.LNKERR.REPLAY -/
def snsLnkerrReplay : Field := ⟨0x070, 31, 16⟩
/-- SNS.LNKERR.CRCERR -/
def snsLnkerrCrcerr : Field := ⟨0x070, 15, 0⟩
/-- RAIL.SEL.GROUP -/
def railSelGroup : Field := ⟨0x040, 5, 0⟩
/-- RAIL.CFG.HEADROOM -/
def railCfgHeadroom : Field := ⟨0x044, 31, 24⟩
/-- RAIL.CFG.DECAY -/
def railCfgDecay : Field := ⟨0x044, 23, 16⟩
/-- RAIL.CFG.ENABLE -/
def railCfgEnable : Field := ⟨0x044, 15, 15⟩
/-- RAIL.CFG.LOOK -/
def railCfgLook : Field := ⟨0x044, 14, 14⟩
/-- RAIL.CFG.FLOOR -/
def railCfgFloor : Field := ⟨0x044, 11, 0⟩
/-- RAIL.STAT.PEAK -/
def railStatPeak : Field := ⟨0x048, 31, 20⟩
/-- RAIL.STAT.SHORT_LOOK -/
def railStatShortLook : Field := ⟨0x048, 16, 16⟩
/-- RAIL.STAT.NOW -/
def railStatNow : Field := ⟨0x048, 11, 0⟩
/-- DRM.CFG.BLAST -/
def drmCfgBlast : Field := ⟨0x040, 11, 10⟩
/-- DRM.CFG.SPARE_EN -/
def drmCfgSpareEn : Field := ⟨0x040, 8, 8⟩
/-- DRM.CFG.SPARE -/
def drmCfgSpare : Field := ⟨0x040, 7, 6⟩
/-- DRM.CFG.DENSITY -/
def drmCfgDensity : Field := ⟨0x040, 5, 4⟩
/-- DRM.CFG.RANKS -/
def drmCfgRanks : Field := ⟨0x040, 3, 0⟩
/-- DRM.XORk.MASK -/
def drmXorMask (k : Nat) : Field := ⟨0x044 + 0x4 * k, 26, 0⟩
/-- DRM.REFRESH.POSTPONE_MAX -/
def drmRefreshPostponeMax : Field := ⟨0x058, 3, 0⟩
/-- DRM.ACT.THRESH -/
def drmActThresh : Field := ⟨0x05C, 15, 0⟩
/-- DRM.ACTCNT.NR -/
def drmActcntNr : Field := ⟨0x060, 31, 16⟩
/-- DRM.ACTCNT.THROTTLE -/
def drmActcntThrottle : Field := ⟨0x060, 15, 0⟩
/-- DRM.ECC.UNCORRECTED -/
def drmEccUncorrected : Field := ⟨0x064, 31, 16⟩
/-- DRM.ECC.CORRECTED -/
def drmEccCorrected : Field := ⟨0x064, 15, 0⟩
/-- DRM.ECCCAP.VALID -/
def drmEcccapValid : Field := ⟨0x068, 31, 31⟩
/-- DRM.ECCCAP.UNCORR -/
def drmEcccapUncorr : Field := ⟨0x068, 30, 30⟩
/-- DRM.ECCCAP.CA_PARITY -/
def drmEcccapCaParity : Field := ⟨0x068, 29, 29⟩
/-- DRM.ECCCAP.DEVICE -/
def drmEcccapDevice : Field := ⟨0x068, 19, 16⟩
/-- DRM.ECCCAP.RANK -/
def drmEcccapRank : Field := ⟨0x068, 1, 0⟩
/-- DRM.ECCADDR.BURST -/
def drmEccaddrBurst : Field := ⟨0x06C, 26, 0⟩
/-- DRM.RANKSTAT.STATE -/
def drmRankstatState : Field := ⟨0x070, 15, 0⟩
/-- DRM.MIG.RATE -/
def drmMigRate : Field := ⟨0x074, 11, 0⟩
/-- DRM.MIG_MARK.ACTIVE -/
def drmMigMarkActive : Field := ⟨0x078, 31, 31⟩
/-- DRM.MIG_MARK.W -/
def drmMigMarkW : Field := ⟨0x078, 26, 0⟩
/-- DRM.STAT.CFG_DROP -/
def drmStatCfgDrop : Field := ⟨0x07C, 5, 5⟩
/-- DRM.STAT.NO_SPARE -/
def drmStatNoSpare : Field := ⟨0x07C, 4, 4⟩
/-- DRM.STAT.HOT -/
def drmStatHot : Field := ⟨0x07C, 3, 3⟩
/-- DRM.STAT.MAP_ERR -/
def drmStatMapErr : Field := ⟨0x07C, 2, 2⟩
/-- DRM.STAT.TRAINING -/
def drmStatTraining : Field := ⟨0x07C, 1, 1⟩
/-- DRM.STAT.TRAINED -/
def drmStatTrained : Field := ⟨0x07C, 0, 0⟩
/-- DRM.TRAIN.START -/
def drmTrainStart : Field := ⟨0x080, 0, 0⟩
/-- DRM.POISON.MARKED -/
def drmPoisonMarked : Field := ⟨0x084, 31, 16⟩
/-- DRM.POISON.READS -/
def drmPoisonReads : Field := ⟨0x084, 15, 0⟩
/-- DRM.REFSTAT.MAKEUP -/
def drmRefstatMakeup : Field := ⟨0x088, 31, 16⟩
/-- DRM.REFSTAT.FORCED -/
def drmRefstatForced : Field := ⟨0x088, 15, 8⟩
/-- DRM.REFSTAT.PEAK -/
def drmRefstatPeak : Field := ⟨0x088, 3, 0⟩
/-- FLT.CTRL.AUTO_ACK_COR -/
def fltCtrlAutoAckCor : Field := ⟨0x040, 0, 0⟩
/-- FLT.ESC_COR.WINDOW_MS -/
def fltEscCorWindowMs : Field := ⟨0x044, 31, 16⟩
/-- FLT.ESC_COR.N -/
def fltEscCorN : Field := ⟨0x044, 7, 0⟩
/-- FLT.ESC_CON.WINDOW_MS -/
def fltEscConWindowMs : Field := ⟨0x048, 31, 16⟩
/-- FLT.ESC_CON.N -/
def fltEscConN : Field := ⟨0x048, 7, 0⟩
/-- FLT.STAT.UNACK -/
def fltStatUnack : Field := ⟨0x04C, 24, 16⟩
/-- FLT.STAT.OVERFLOW -/
def fltStatOverflow : Field := ⟨0x04C, 2, 2⟩
/-- FLT.STAT.FATAL -/
def fltStatFatal : Field := ⟨0x04C, 1, 1⟩
/-- FLT.STAT.ERR -/
def fltStatErr : Field := ⟨0x04C, 0, 0⟩
/-- FLT.NEXT_SEQ.SEQ -/
def fltNextSeqSeq : Field := ⟨0x050, 31, 0⟩
/-- FLT.OLDEST_SEQ.SEQ -/
def fltOldestSeqSeq : Field := ⟨0x054, 31, 0⟩
/-- FLT.RD_SEQ.SEQ -/
def fltRdSeqSeq : Field := ⟨0x058, 31, 0⟩
/-- FLT.RECk.WORD -/
def fltRecWord (k : Nat) : Field := ⟨0x060 + 0x4 * k, 31, 0⟩
/-- FLT.ACK.SEQ -/
def fltAckSeq : Field := ⟨0x080, 31, 0⟩
/-- FLT.ACK_ALL.ALL -/
def fltAckAllAll : Field := ⟨0x084, 0, 0⟩
/-- FLT.COUNTS.LOST -/
def fltCountsLost : Field := ⟨0x088, 31, 24⟩
/-- FLT.COUNTS.REPEAT -/
def fltCountsRepeat : Field := ⟨0x088, 23, 16⟩
/-- FLT.COUNTS.COUNTED -/
def fltCountsCounted : Field := ⟨0x088, 15, 0⟩
/-- SIL.STAT.OWN_TIME -/
def silStatOwnTime : Field := ⟨0x040, 4, 4⟩
/-- SIL.STAT.FATAL -/
def silStatFatal : Field := ⟨0x040, 3, 3⟩
/-- SIL.STAT.THERM_WARN -/
def silStatThermWarn : Field := ⟨0x040, 2, 2⟩
/-- SIL.STAT.WDOG_EXPIRED -/
def silStatWdogExpired : Field := ⟨0x040, 1, 1⟩
/-- SIL.STAT.SAFE -/
def silStatSafe : Field := ⟨0x040, 0, 0⟩
/-- SIL.SAFE.AUTO_THERM -/
def silSafeAutoTherm : Field := ⟨0x044, 8, 8⟩
/-- SIL.SAFE.RELEASE -/
def silSafeRelease : Field := ⟨0x044, 1, 1⟩
/-- SIL.SAFE.FORCE -/
def silSafeForce : Field := ⟨0x044, 0, 0⟩
/-- SIL.WDOG.ENABLE -/
def silWdogEnable : Field := ⟨0x048, 31, 31⟩
/-- SIL.WDOG.TIMEOUT_MS -/
def silWdogTimeoutMs : Field := ⟨0x048, 15, 0⟩
/-- SIL.KICK.KICK -/
def silKickKick : Field := ⟨0x04C, 0, 0⟩
/-- SIL.THERM.SHUT -/
def silThermShut : Field := ⟨0x050, 15, 8⟩
/-- SIL.THERM.WARN -/
def silThermWarn : Field := ⟨0x050, 7, 0⟩
/-- SIL.TEMP0.TEMP -/
def silTemp0Temp : Field := ⟨0x054, 31, 0⟩
/-- SIL.TEMP1.TEMP -/
def silTemp1Temp : Field := ⟨0x058, 31, 0⟩
/-- SIL.EVENTS.WDOG -/
def silEventsWdog : Field := ⟨0x05C, 31, 24⟩
/-- SIL.EVENTS.SAFE -/
def silEventsSafe : Field := ⟨0x05C, 23, 16⟩
/-- SIL.EVENTS.FENCES -/
def silEventsFences : Field := ⟨0x05C, 15, 8⟩
/-- SIL.EVENTS.THERM -/
def silEventsTherm : Field := ⟨0x05C, 7, 0⟩
/-- HNG.CFG.PRIORITY -/
def hngCfgPriority : Field := ⟨0x040, 15, 8⟩
/-- HNG.CFG.WIRE_EN -/
def hngCfgWireEn : Field := ⟨0x040, 1, 1⟩
/-- HNG.CFG.PORTS -/
def hngCfgPorts : Field := ⟨0x040, 0, 0⟩
/-- HNG.PARTNER.EID -/
def hngPartnerEid : Field := ⟨0x044, 23, 0⟩
/-- HNG.TERM.RENEW -/
def hngTermRenew : Field := ⟨0x048, 31, 16⟩
/-- HNG.TERM.TERM -/
def hngTermTerm : Field := ⟨0x048, 15, 0⟩
/-- HNG.STAT.DUTY_CONFLICT -/
def hngStatDutyConflict : Field := ⟨0x04C, 7, 7⟩
/-- HNG.STAT.RESYNC -/
def hngStatResync : Field := ⟨0x04C, 6, 6⟩
/-- HNG.STAT.SUSPECT -/
def hngStatSuspect : Field := ⟨0x04C, 5, 5⟩
/-- HNG.STAT.CFG_DIFF -/
def hngStatCfgDiff : Field := ⟨0x04C, 4, 4⟩
/-- HNG.STAT.WIRE_UP -/
def hngStatWireUp : Field := ⟨0x04C, 3, 3⟩
/-- HNG.STAT.SENIOR -/
def hngStatSenior : Field := ⟨0x04C, 2, 2⟩
/-- HNG.STAT.PARTNER_UP -/
def hngStatPartnerUp : Field := ⟨0x04C, 1, 1⟩
/-- HNG.STAT.PAIRED -/
def hngStatPaired : Field := ⟨0x04C, 0, 0⟩
/-- HNG.ELIGk.LEASE -/
def hngEligLease (k : Nat) : Field := ⟨0x050 + 0x4 * k, if k = 2 then 1 else 31, 0⟩
/-- HNG.HELDk.LEASE -/
def hngHeldLease (k : Nat) : Field := ⟨0x05C + 0x4 * k, 31, 0⟩
/-- HNG.EXPIRY.CASEMENT -/
def hngExpiryCasement : Field := ⟨0x068, 31, 0⟩
/-- HNG.P_EXPIRY.CASEMENT -/
def hngPExpiryCasement : Field := ⟨0x06C, 31, 0⟩
/-- HNG.RENEW.RENEW -/
def hngRenewRenew : Field := ⟨0x070, 0, 0⟩
/-- HNG.OFF.OFF -/
def hngOffOff : Field := ⟨0x074, 31, 0⟩
/-- HNG.DIGEST.MISMATCH -/
def hngDigestMismatch : Field := ⟨0x078, 31, 16⟩
/-- HNG.DIGEST.LATE -/
def hngDigestLate : Field := ⟨0x078, 15, 8⟩
/-- HNG.DIGEST.LIMIT -/
def hngDigestLimit : Field := ⟨0x078, 7, 0⟩
/-- HNG.DGCAP.VALID -/
def hngDgcapValid : Field := ⟨0x07C, 31, 31⟩
/-- HNG.DGCAP.GROUP -/
def hngDgcapGroup : Field := ⟨0x07C, 30, 30⟩
/-- HNG.DGCAP.OBJECT -/
def hngDgcapObject : Field := ⟨0x07C, 23, 16⟩
/-- HNG.DGCAP.CASEMENT -/
def hngDgcapCasement : Field := ⟨0x07C, 15, 0⟩
/-- HNG.SECCNT.TAG_FAIL -/
def hngSeccntTagFail : Field := ⟨0x080, 31, 24⟩
/-- HNG.SECCNT.REPLAY -/
def hngSeccntReplay : Field := ⟨0x080, 23, 16⟩
/-- HNG.SECCNT.RATE_DROP -/
def hngSeccntRateDrop : Field := ⟨0x080, 15, 8⟩
/-- HNG.SECCNT.INCOMPAT -/
def hngSeccntIncompat : Field := ⟨0x080, 7, 4⟩
/-- HNG.SECCNT.WIRE_BAD -/
def hngSeccntWireBad : Field := ⟨0x080, 3, 0⟩
/-- HNG.RATE.BURST -/
def hngRateBurst : Field := ⟨0x084, 31, 16⟩
/-- HNG.RATE.PER_S -/
def hngRatePerS : Field := ⟨0x084, 15, 0⟩
/-- HNG.EVENTS.TAKEOVERS -/
def hngEventsTakeovers : Field := ⟨0x088, 31, 16⟩
/-- HNG.EVENTS.RELEASES -/
def hngEventsReleases : Field := ⟨0x088, 15, 8⟩
/-- HNG.EVENTS.CLAIMS_LOST -/
def hngEventsClaimsLost : Field := ⟨0x088, 7, 0⟩
/-- I2C.CFG.ATTN_EN -/
def i2cCfgAttnEn : Field := ⟨0x040, 31, 31⟩
/-- I2C.CFG.CTL_SPEED -/
def i2cCfgCtlSpeed : Field := ⟨0x040, 25, 24⟩
/-- I2C.CFG.HOST_ADDR -/
def i2cCfgHostAddr : Field := ⟨0x040, 22, 16⟩
/-- I2C.CFG.CAUSE_MASK -/
def i2cCfgCauseMask : Field := ⟨0x040, 3, 0⟩
/-- I2C.STAT.STUCK -/
def i2cStatStuck : Field := ⟨0x044, 13, 13⟩
/-- I2C.STAT.ATTN_BUSY -/
def i2cStatAttnBusy : Field := ⟨0x044, 12, 12⟩
/-- I2C.STAT.ATTN_PEND -/
def i2cStatAttnPend : Field := ⟨0x044, 11, 8⟩
/-- I2C.STAT.ADDR_ERR -/
def i2cStatAddrErr : Field := ⟨0x044, 7, 7⟩
/-- I2C.STAT.ADDR -/
def i2cStatAddr : Field := ⟨0x044, 6, 0⟩
/-- I2C.ERR.PROTOCOL -/
def i2cErrProtocol : Field := ⟨0x048, 31, 24⟩
/-- I2C.ERR.TIMEOUT -/
def i2cErrTimeout : Field := ⟨0x048, 23, 16⟩
/-- I2C.ERR.ATTN_FAIL -/
def i2cErrAttnFail : Field := ⟨0x048, 15, 8⟩
/-- I2C.ERR.PARTIAL -/
def i2cErrPartial : Field := ⟨0x048, 7, 0⟩
/-- PCI.STAT.WIDTH -/
def pciStatWidth : Field := ⟨0x040, 4, 3⟩
/-- PCI.STAT.SPEED -/
def pciStatSpeed : Field := ⟨0x040, 2, 1⟩
/-- PCI.STAT.LINK -/
def pciStatLink : Field := ⟨0x040, 0, 0⟩
/-- PCI.VEC_SEL.REGION -/
def pciVecSelRegion : Field := ⟨0x044, 31, 28⟩
/-- PCI.VEC_SEL.PAGE -/
def pciVecSelPage : Field := ⟨0x044, 27, 20⟩
/-- PCI.VEC_MAP.NONE -/
def pciVecMapNone : Field := ⟨0x048, 5, 5⟩
/-- PCI.VEC_MAP.VECTOR -/
def pciVecMapVector : Field := ⟨0x048, 4, 0⟩
/-- PCI.PINMASK.VEC -/
def pciPinmaskVec : Field := ⟨0x04C, 31, 0⟩
/-- PCI.REARM.VEC -/
def pciRearmVec : Field := ⟨0x050, 31, 0⟩
/-- PCI.OUT_BASE_LO.ADDR -/
def pciOutBaseLoAddr : Field := ⟨0x054, 31, 0⟩
/-- PCI.OUT_BASE_HI.ADDR -/
def pciOutBaseHiAddr : Field := ⟨0x058, 31, 0⟩
/-- PCI.ERR.READ -/
def pciErrRead : Field := ⟨0x05C, 31, 16⟩
/-- PCI.ERR.WRITE -/
def pciErrWrite : Field := ⟨0x05C, 15, 8⟩
/-- PCI.ERR.NARROW -/
def pciErrNarrow : Field := ⟨0x05C, 7, 0⟩
/-- QSP.CMD.OP -/
def qspCmdOp : Field := ⟨0x040, 2, 0⟩
/-- QSP.ADDR.ADDR -/
def qspAddrAddr : Field := ⟨0x044, 27, 0⟩
/-- QSP.STAT.BUSYRD -/
def qspStatBusyrd : Field := ⟨0x048, 31, 16⟩
/-- QSP.STAT.CFG_JOB -/
def qspStatCfgJob : Field := ⟨0x048, 2, 2⟩
/-- QSP.STAT.REFUSED -/
def qspStatRefused : Field := ⟨0x048, 1, 1⟩
/-- QSP.STAT.BUSY -/
def qspStatBusy : Field := ⟨0x048, 0, 0⟩
/-- SEC.STAT.KEYS -/
def secStatKeys : Field := ⟨0x040, 31, 16⟩
/-- SEC.STAT.IMAGE -/
def secStatImage : Field := ⟨0x040, 0, 0⟩
/-- SEC.IMG_SEQ.SEQ -/
def secImgSeqSeq : Field := ⟨0x044, 31, 0⟩
/-- SYS.CTRL.REBOOT -/
def sysCtrlReboot : Field := ⟨0x040, 0, 0⟩
/-- SYS.BOOT.NOCFG -/
def sysBootNocfg : Field := ⟨0x044, 31, 31⟩
/-- SYS.BOOT.RESULT_B -/
def sysBootResultB : Field := ⟨0x044, 27, 26⟩
/-- SYS.BOOT.RESULT_A -/
def sysBootResultA : Field := ⟨0x044, 25, 24⟩
/-- SYS.BOOT.STAGE -/
def sysBootStage : Field := ⟨0x044, 3, 0⟩
/-- SYS.STRAPS.RAW -/
def sysStrapsRaw : Field := ⟨0x048, 6, 0⟩
/-- SYS.CENSUS.STEPPING -/
def sysCensusStepping : Field := ⟨0x04C, 31, 28⟩
/-- SYS.CENSUS.VARIANT -/
def sysCensusVariant : Field := ⟨0x04C, 27, 24⟩
/-- SYS.CENSUS.DRV_FAILED -/
def sysCensusDrvFailed : Field := ⟨0x04C, 22, 22⟩
/-- SYS.CENSUS.ENG_FAILED -/
def sysCensusEngFailed : Field := ⟨0x04C, 21, 16⟩
/-- SYS.CENSUS.DRV_PRESENT -/
def sysCensusDrvPresent : Field := ⟨0x04C, 6, 6⟩
/-- SYS.CENSUS.ENG_PRESENT -/
def sysCensusEngPresent : Field := ⟨0x04C, 5, 0⟩
/-- SYS.EUI_LO.EUI -/
def sysEuiLoEui : Field := ⟨0x050, 31, 0⟩
/-- SYS.EUI_HI.EUI -/
def sysEuiHiEui : Field := ⟨0x054, 31, 0⟩

end Fld

namespace Reg
open Fld

/-- Registers of the MTX page (02_control_plane.md). -/
def mtxRows : List RegRow := [
  ⟨0x040, 0x00000000, [⟨mtxRemapRemap, .rw, false, []⟩]⟩,
  ⟨0x044, 0x00000000, [⟨mtxDecerrHairpin, .rc, false, []⟩, ⟨mtxDecerrDecode, .rc, false, []⟩]⟩,
  ⟨0x048, 0x00000000, [⟨mtxErraddrAddr, .ro, false, []⟩]⟩,
  ⟨0x04C, 0x00000000, [⟨mtxErrinfoValid, .w1c, false, []⟩, ⟨mtxErrinfoMaster, .ro, false, []⟩, ⟨mtxErrinfoAddrHi, .ro, false, []⟩]⟩,
  ⟨0x050, 0x00000000, [⟨mtxHoldCycle, .rc, false, []⟩, ⟨mtxHoldOrder, .rc, false, []⟩]⟩]
/-- Registers of the MGT page (02_control_plane.md). -/
def mgtRows : List RegRow := [
  ⟨0x040, 0x00000000, [⟨mgtMbxDbRing, .w1t, false, []⟩]⟩,
  ⟨0x044, 0x00000000, [⟨mgtMbxStatDrops, .rc, false, []⟩, ⟨mgtMbxStatDone, .w1c, false, []⟩, ⟨mgtMbxStatBusy, .ro, false, []⟩]⟩,
  ⟨0x048, 0x000003E8, [⟨mgtMbxTmoMs, .rw, false, []⟩]⟩]
/-- Registers of the CAS page (03_casement.md). -/
def casRows : List RegRow := [
  ⟨0x040, 0x00000003, [⟨casRateRate, .sh, true, []⟩]⟩,
  ⟨0x044, 0x00000001, [⟨casCtrlReindexNow, .w1t, true, []⟩, ⟨casCtrlAutoReindex, .rw, false, []⟩]⟩,
  ⟨0x048, 0x00006C00, [⟨casStatDegraded, .ro, false, []⟩, ⟨casStatTransition, .ro, false, []⟩, ⟨casStatRate, .ro, false, []⟩, ⟨casStatSpc, .ro, false, []⟩, ⟨casStatReindexing, .ro, false, []⟩, ⟨casStatAligned, .ro, false, []⟩]⟩,
  ⟨0x04C, 0x00000000, [⟨casIndexLoIndex, .ro, false, []⟩]⟩,
  ⟨0x050, 0x00000000, [⟨casIndexHiIndex, .ro, false, []⟩]⟩,
  ⟨0x054, 0x00000000, [⟨casAlignNs, .ro, false, []⟩]⟩,
  ⟨0x058, 0x0000F424, [⟨casAlignLimNs, .rw, false, []⟩]⟩,
  ⟨0x05C, 0x00000000, [⟨casLoadReservePeak, .rc, false, []⟩, ⟨casLoadAdmitted, .ro, false, []⟩, ⟨casLoadEngPeak, .rc, false, []⟩, ⟨casLoadEngNow, .ro, false, []⟩]⟩,
  ⟨0x060, 0x00000000, [⟨casRefuseLoadPct, .ro, false, []⟩, ⟨casRefuseReason, .ro, false, []⟩, ⟨casRefuseBudget, .ro, false, []⟩, ⟨casRefuseJob, .ro, false, []⟩]⟩,
  ⟨0x064, 0x00000000, [⟨casEventsReindex, .rc, false, []⟩, ⟨casEventsDeferred, .rc, false, []⟩, ⟨casEventsUnfinished, .rc, false, []⟩]⟩,
  ⟨0x068, 0x00000000, [⟨casOvrInfoValid, .w1c, false, []⟩, ⟨casOvrInfoDie, .ro, false, []⟩, ⟨casOvrInfoUnit, .ro, false, []⟩, ⟨casOvrInfoItem, .ro, false, []⟩]⟩,
  ⟨0x06C, 0x00000000, [⟨casLatSelSinkKind, .rw, false, []⟩, ⟨casLatSelSink, .rw, false, []⟩, ⟨casLatSelSource, .rw, false, []⟩]⟩,
  ⟨0x070, 0x00000000, [⟨casLatValValid, .ro, false, []⟩, ⟨casLatValMulti, .ro, false, []⟩, ⟨casLatValSamples, .ro, false, []⟩, ⟨casLatValFraction, .ro, false, []⟩]⟩]
/-- Registers of the XPT page (04_routing_mixing.md). -/
def xptRows : List RegRow := [
  ⟨0x040, 0x00000002, [⟨xptCtrlFollow, .rw, false, []⟩, ⟨xptCtrlSwap, .sh, true, []⟩]⟩,
  ⟨0x044, 0x00000000, [⟨xptStatInactiveDirty, .ro, false, []⟩, ⟨xptStatCopying, .ro, false, []⟩, ⟨xptStatActiveBank, .ro, false, []⟩]⟩,
  ⟨0x048, 0x00000000, [⟨xptCountXfade, .ro, false, []⟩, ⟨xptCountValid, .ro, false, []⟩]⟩,
  ⟨0x04C, 0x00000000, [⟨xptHeldPaths, .ro, false, []⟩]⟩,
  ⟨0x050, 0x00000000, [⟨xptWerrActive, .rc, false, []⟩, ⟨xptWerrMasked, .rc, false, []⟩]⟩,
  ⟨0x054, 0x00000000, [⟨xptObjSelObj, .rw, false, []⟩, ⟨xptObjSelSinkKind, .rw, false, []⟩, ⟨xptObjSelIndex, .rw, false, []⟩]⟩,
  ⟨0x058, 0x00000000, [⟨xptObjValVal 0, .ro, false, []⟩]⟩,
  ⟨0x05C, 0x00000000, [⟨xptObjValVal 1, .ro, false, []⟩]⟩,
  ⟨0x060, 0x00000000, [⟨xptObjValVal 2, .ro, false, []⟩]⟩,
  ⟨0x064, 0x00000000, [⟨xptObjValVal 3, .ro, false, []⟩]⟩]
/-- Registers of the SHT page (05_shutter.md). -/
def shtRows : List RegRow := [
  ⟨0x040, 0x00000000, [⟨shtCtrlMuteAll, .rw, false, []⟩]⟩,
  ⟨0x044, 0x00000000, [⟨shtStatFadedBundles, .ro, false, []⟩, ⟨shtStatMutePin, .ro, false, []⟩, ⟨shtStatMuted, .ro, false, []⟩]⟩,
  ⟨0x048, 0x00000000, [⟨shtSelKind, .rw, false, []⟩, ⟨shtSelSinkKind, .rw, false, []⟩, ⟨shtSelIndex, .rw, false, []⟩]⟩,
  ⟨0x04C, 0x20000000, [⟨shtWgainGain, .rw, false, []⟩]⟩,
  ⟨0x050, 0x00280014, [⟨shtWcfgShut, .rw, false, []⟩, ⟨shtWcfgLaw, .rw, false, []⟩, ⟨shtWcfgRestore, .rw, false, []⟩, ⟨shtWcfgRamp, .rw, false, []⟩]⟩,
  ⟨0x054, 0x00000000, [⟨shtPushPush, .w1t, false, []⟩]⟩,
  ⟨0x058, 0x00000000, [⟨shtQstatQueued, .ro, false, []⟩, ⟨shtQstatDrops, .rc, false, []⟩]⟩,
  ⟨0x05C, 0x00000000, [⟨shtRd0Gain, .ro, false, []⟩]⟩,
  ⟨0x060, 0x00000000, [⟨shtRd1Target, .ro, false, []⟩]⟩,
  ⟨0x064, 0x00000000, [⟨shtRd2Cfg, .ro, false, []⟩]⟩,
  ⟨0x068, 0x00000000, [⟨shtRd3Left, .ro, false, []⟩, ⟨shtRd3Causes, .ro, false, []⟩, ⟨shtRd3Pstate, .ro, false, []⟩, ⟨shtRd3Cstate, .ro, false, []⟩]⟩,
  ⟨0x06C, 0x00000000, [⟨shtEventsBundleFades, .rc, false, []⟩, ⟨shtEventsReversals, .rc, false, []⟩]⟩,
  ⟨0x070, 0x00000000, [⟨shtMutesEmergency, .rc, false, []⟩, ⟨shtMutesPin, .rc, false, []⟩]⟩]
/-- Registers of the PEN page (06_path_engines.md). -/
def penRows : List RegRow := [
  ⟨0x040, 0x00F10000, [⟨penMapSpareFor, .ro, false, []⟩, ⟨penMapState, .ro, false, []⟩]⟩,
  ⟨0x044, 0x00000000, [⟨penSuspectSuspect, .ro, false, []⟩]⟩,
  ⟨0x048, 0x00000000, [⟨penCheckRecomputed, .rc, false, []⟩, ⟨penCheckMismatch, .rc, false, []⟩]⟩,
  ⟨0x04C, 0x00000000, [⟨penMmcapValid, .w1c, false, []⟩, ⟨penMmcapEngine, .ro, false, []⟩, ⟨penMmcapLane, .ro, false, []⟩, ⟨penMmcapStage, .ro, false, []⟩, ⟨penMmcapItem, .ro, false, []⟩]⟩,
  ⟨0x050, 0x00000000, [⟨penSatCount, .rc, false, []⟩, ⟨penSatSticky, .w1c, false, []⟩]⟩,
  ⟨0x054, 0x00000000, [⟨penSatcapValid, .w1c, false, []⟩, ⟨penSatcapEngine, .ro, false, []⟩, ⟨penSatcapStage, .ro, false, []⟩, ⟨penSatcapItem, .ro, false, []⟩]⟩,
  ⟨0x058, 0x00000000, [⟨penStestLastFail, .ro, false, []⟩, ⟨penStestRun, .w1t, false, []⟩]⟩,
  ⟨0x05C, 0x00000000, [⟨penInjectArm, .w1t, true, []⟩, ⟨penInjectCount, .rw, true, []⟩, ⟨penInjectEngine, .rw, true, []⟩]⟩]
/-- Registers of the FEN page (06_path_engines.md). -/
def fenRows : List RegRow := [
  ⟨0x040, 0x00000000, [⟨fenEccUncorrected, .rc, false, []⟩, ⟨fenEccCorrected, .rc, false, []⟩]⟩,
  ⟨0x044, 0x00000000, [⟨fenEcccapValid, .w1c, false, []⟩, ⟨fenEcccapUncorr, .ro, false, []⟩, ⟨fenEcccapBank, .ro, false, []⟩, ⟨fenEcccapOffset, .ro, false, []⟩]⟩,
  ⟨0x048, 0x00000000, [⟨fenRetiredBank, .ro, false, []⟩]⟩,
  ⟨0x04C, 0x00000000, [⟨fenUseFreeKib, .ro, false, []⟩, ⟨fenUseUsedKib, .ro, false, []⟩]⟩]
/-- Registers of the LNK page (06_path_engines.md). -/
def lnkRows : List RegRow := [
  ⟨0x040, 0x00000000, [⟨lnkStatLink1, .ro, false, []⟩, ⟨lnkStatLink0, .ro, false, []⟩]⟩,
  ⟨0x044, 0x00000000, [⟨lnkCrcerrLink1, .rc, false, []⟩, ⟨lnkCrcerrLink0, .rc, false, []⟩]⟩,
  ⟨0x048, 0x00000000, [⟨lnkReplayLink1, .rc, false, []⟩, ⟨lnkReplayLink0, .rc, false, []⟩]⟩,
  ⟨0x04C, 0x00000000, [⟨lnkLanes0Lane, .ro, false, []⟩]⟩,
  ⟨0x050, 0x00000000, [⟨lnkLanes1Lane, .ro, false, []⟩]⟩,
  ⟨0x054, 0x00000000, [⟨lnkLoadL1Down, .rc, false, []⟩, ⟨lnkLoadL1Up, .rc, false, []⟩, ⟨lnkLoadL0Down, .rc, false, []⟩, ⟨lnkLoadL0Up, .rc, false, []⟩]⟩]
/-- Registers of the BQD page (07_equalisers_fir.md). -/
def bqdRows : List RegRow := [
  ⟨0x040, 0x00000000, [⟨bqdSelKind, .rw, false, []⟩, ⟨bqdSelIndex, .rw, false, []⟩, ⟨bqdSelRecord, .rw, false, []⟩]⟩,
  ⟨0x044, 0x00000000, [⟨bqdWWord 0, .rw, false, []⟩]⟩,
  ⟨0x048, 0x00000000, [⟨bqdWWord 1, .rw, false, []⟩]⟩,
  ⟨0x04C, 0x00000000, [⟨bqdWWord 2, .rw, false, []⟩]⟩,
  ⟨0x050, 0x00000000, [⟨bqdWWord 3, .rw, false, []⟩]⟩,
  ⟨0x054, 0x00000000, [⟨bqdWWord 4, .rw, false, []⟩]⟩,
  ⟨0x058, 0x00000000, [⟨bqdWWord 5, .rw, false, []⟩]⟩,
  ⟨0x05C, 0x00000000, [⟨bqdActCancel, .w1t, false, []⟩, ⟨bqdActSwapreq, .w1t, false, []⟩, ⟨bqdActPrep, .w1t, false, []⟩, ⟨bqdActReadInactive, .w1t, false, []⟩, ⟨bqdActReadActive, .w1t, false, []⟩, ⟨bqdActWriteInactive, .w1t, false, []⟩, ⟨bqdActWriteActive, .w1t, false, []⟩]⟩,
  ⟨0x060, 0x00000000, [⟨bqdSwapAtSample, .sh, false, []⟩]⟩,
  ⟨0x064, 0x00000000, [⟨bqdStatMarked, .ro, false, []⟩, ⟨bqdStatSections, .ro, false, []⟩, ⟨bqdStatValid, .ro, false, []⟩, ⟨bqdStatSwapPending, .ro, false, []⟩, ⟨bqdStatPrepBusy, .ro, false, []⟩, ⟨bqdStatActiveBank, .ro, false, []⟩]⟩,
  ⟨0x068, 0x00000000, [⟨bqdErrDiscarded, .rc, false, []⟩, ⟨bqdErrDeferred, .rc, false, []⟩, ⟨bqdErrDrops, .rc, false, []⟩]⟩,
  ⟨0x06C, 0x00000000, [⟨bqdLoc0Offset, .ro, false, []⟩]⟩,
  ⟨0x070, 0x00000000, [⟨bqdLoc1Offset, .ro, false, []⟩]⟩,
  ⟨0x074, 0x00000000, [⟨bqdLimGrPeak, .rc, false, []⟩, ⟨bqdLimGrNow, .ro, false, []⟩]⟩,
  ⟨0x078, 0x00000000, [⟨bqdLimclipCount, .rc, false, []⟩]⟩]
/-- Registers of the FIR page (07_equalisers_fir.md). -/
def firRows : List RegRow := [
  ⟨0x040, 0x00000000, [⟨firSelStrip, .rw, false, []⟩]⟩,
  ⟨0x044, 0x00000000, [⟨firActCancel, .w1t, false, []⟩, ⟨firActSwapreq, .w1t, false, []⟩, ⟨firActPrep, .w1t, false, []⟩]⟩,
  ⟨0x048, 0x00000000, [⟨firSwapAtSample, .sh, false, []⟩]⟩,
  ⟨0x04C, 0x00000000, [⟨firStatValid, .ro, false, []⟩, ⟨firStatSegments, .ro, false, []⟩, ⟨firStatSwapPending, .ro, false, []⟩, ⟨firStatPrepBusy, .ro, false, []⟩, ⟨firStatActiveBank, .ro, false, []⟩]⟩,
  ⟨0x050, 0x00000000, [⟨firLoc0Offset, .ro, false, []⟩]⟩,
  ⟨0x054, 0x00000000, [⟨firLoc1Offset, .ro, false, []⟩]⟩,
  ⟨0x058, 0x00000000, [⟨firHistOffset, .ro, false, []⟩]⟩,
  ⟨0x05C, 0x0C000000, [⟨firPoolTotal, .ro, false, []⟩, ⟨firPoolUsed, .ro, false, []⟩]⟩,
  ⟨0x060, 0x00000000, [⟨firErrDiscarded, .rc, false, []⟩, ⟨firErrDeferred, .rc, false, []⟩, ⟨firErrDrops, .rc, false, []⟩]⟩]
/-- Registers of the DLY page (08_delay_steering.md). -/
def dlyRows : List RegRow := [
  ⟨0x040, 0x00000000, [⟨dlySelKind, .rw, false, []⟩, ⟨dlySelIndex, .rw, false, []⟩]⟩,
  ⟨0x044, 0x00000000, [⟨dlyCfgValid, .ro, false, []⟩, ⟨dlyCfgClass, .ro, false, []⟩, ⟨dlyCfgFrac, .ro, false, []⟩, ⟨dlyCfgCapacity, .ro, false, []⟩]⟩,
  ⟨0x048, 0x00000000, [⟨dlyTargetSamples, .ro, false, []⟩, ⟨dlyTargetFraction, .ro, false, []⟩]⟩,
  ⟨0x04C, 0x00000000, [⟨dlyNowSamples, .ro, false, []⟩, ⟨dlyNowFraction, .ro, false, []⟩]⟩,
  ⟨0x050, 0x00000000, [⟨dlyStateLeft, .ro, false, []⟩, ⟨dlyStatePoison, .ro, false, []⟩, ⟨dlyStateSlowed, .ro, false, []⟩, ⟨dlyStateMode, .ro, false, []⟩]⟩,
  ⟨0x054, 0x00000000, [⟨dlySteerApplied, .ro, false, []⟩, ⟨dlySteerCopying, .ro, false, []⟩, ⟨dlySteerPending, .ro, false, []⟩, ⟨dlySteerActiveBank, .ro, false, []⟩]⟩,
  ⟨0x058, 0x00000000, [⟨dlySteerSeqSeq, .ro, false, []⟩]⟩,
  ⟨0x05C, 0x00000000, [⟨dlySteerLoc0Offset, .ro, false, []⟩]⟩,
  ⟨0x060, 0x00000000, [⟨dlySteerLoc1Offset, .ro, false, []⟩]⟩,
  ⟨0x064, 0x000000FA, [⟨dlyGlideMaxRate, .rw, false, []⟩]⟩,
  ⟨0x068, 0x00000000, [⟨dlyCountLate, .rc, false, []⟩, ⟨dlyCountClamped, .rc, false, []⟩, ⟨dlyCountSlowed, .rc, false, []⟩, ⟨dlyCountWait, .rc, false, []⟩]⟩,
  ⟨0x06C, 0x00000000, [⟨dlyPoisonCount, .rc, false, []⟩]⟩]
/-- Registers of the RCX page (09_reed_cores.md). -/
def rcxRows0 : List RegRow := [
  ⟨0x040, 0x00000000, [⟨rcxStatRunnable, .ro, false, []⟩, ⟨rcxStatStopped, .ro, false, []⟩, ⟨rcxStatRetired, .ro, false, []⟩, ⟨rcxStatSlot, .ro, false, []⟩, ⟨rcxStatState, .ro, false, []⟩]⟩,
  ⟨0x044, 0x00000000, [⟨rcxSelSlot, .rw, false, []⟩]⟩,
  ⟨0x048, 0x00000000, [⟨rcxPdesc0Valid, .ro, false, []⟩, ⟨rcxPdesc0Hook, .ro, false, []⟩, ⟨rcxPdesc0Budget, .ro, false, []⟩]⟩,
  ⟨0x04C, 0x00000000, [⟨rcxPdesc1Nout, .ro, false, []⟩, ⟨rcxPdesc1Nin, .ro, false, []⟩, ⟨rcxPdesc1Entry, .ro, false, []⟩]⟩,
  ⟨0x050, 0x00000000, [⟨rcxPcycLastCycles, .ro, false, []⟩]⟩,
  ⟨0x054, 0x00000000, [⟨rcxPcycPeakCycles, .rc, false, []⟩]⟩,
  ⟨0x058, 0x00000000, [⟨rcxPcntConsec, .ro, false, []⟩, ⟨rcxPcntRepclamp, .rc, false, []⟩, ⟨rcxPcntStops, .rc, false, []⟩]⟩,
  ⟨0x05C, 0x00000008, [⟨rcxOvrLimitLimit, .rw, false, []⟩]⟩,
  ⟨0x060, 0x00000000, [⟨rcxErrcapValid, .w1c, false, []⟩, ⟨rcxErrcapHandler, .ro, false, []⟩, ⟨rcxErrcapCode, .ro, false, []⟩, ⟨rcxErrcapSlot, .ro, false, []⟩, ⟨rcxErrcapPc, .ro, false, []⟩]⟩,
  ⟨0x064, 0x00000000, [⟨rcxSatCount, .rc, false, []⟩, ⟨rcxSatSticky, .w1c, false, []⟩]⟩,
  ⟨0x068, 0x00002EE0, [⟨rcxIrqBudgetCycles, .rw, false, []⟩]⟩,
  ⟨0x06C, 0x00000000, [⟨rcxIrqStatHoldoffPeak, .rc, false, []⟩, ⟨rcxIrqStatOver, .rc, false, []⟩, ⟨rcxIrqStatPend, .ro, false, []⟩]⟩,
  ⟨0x070, 0x00000000, [⟨rcxIrqCycCycles, .ro, false, []⟩]⟩,
  ⟨0x074, 0x00000000, [⟨rcxMbxCtlDrops, .rc, false, []⟩, ⟨rcxMbxCtlDone, .w1c, false, []⟩, ⟨rcxMbxCtlFull, .ro, false, []⟩, ⟨rcxMbxCtlDb, .w1t, false, []⟩]⟩,
  ⟨0x078, 0x00000000, [⟨rcxActRestart, .w1t, false, []⟩, ⟨rcxActStest, .w1t, false, []⟩]⟩,
  ⟨0x07C, 0x00000000, [⟨rcxMemerrUncorrected, .rc, false, []⟩, ⟨rcxMemerrCorrected, .rc, false, []⟩]⟩,
  ⟨0x080, 0x00000000, [⟨rcxMbxInWord 0, .rw, false, []⟩]⟩,
  ⟨0x084, 0x00000000, [⟨rcxMbxInWord 1, .rw, false, []⟩]⟩,
  ⟨0x088, 0x00000000, [⟨rcxMbxInWord 2, .rw, false, []⟩]⟩,
  ⟨0x08C, 0x00000000, [⟨rcxMbxInWord 3, .rw, false, []⟩]⟩,
  ⟨0x090, 0x00000000, [⟨rcxMbxOutWord 0, .ro, false, []⟩]⟩,
  ⟨0x094, 0x00000000, [⟨rcxMbxOutWord 1, .ro, false, []⟩]⟩,
  ⟨0x098, 0x00000000, [⟨rcxMbxOutWord 2, .ro, false, []⟩]⟩,
  ⟨0x09C, 0x00000000, [⟨rcxMbxOutWord 3, .ro, false, []⟩]⟩]
/-- Registers of the RCX page (09_reed_cores.md). -/
def rcxRows1 : List RegRow := [
  ⟨0x0A0, 0x00000000, [⟨rcxEvtselKind 0, .rw, false, []⟩, ⟨rcxEvtselSinkKind 0, .rw, false, []⟩, ⟨rcxEvtselEdges 0, .rw, false, []⟩, ⟨rcxEvtselIndex 0, .rw, false, []⟩]⟩,
  ⟨0x0A4, 0x00000000, [⟨rcxEvtselKind 1, .rw, false, []⟩, ⟨rcxEvtselSinkKind 1, .rw, false, []⟩, ⟨rcxEvtselEdges 1, .rw, false, []⟩, ⟨rcxEvtselIndex 1, .rw, false, []⟩]⟩,
  ⟨0x0A8, 0x00000000, [⟨rcxEvtselKind 2, .rw, false, []⟩, ⟨rcxEvtselSinkKind 2, .rw, false, []⟩, ⟨rcxEvtselEdges 2, .rw, false, []⟩, ⟨rcxEvtselIndex 2, .rw, false, []⟩]⟩,
  ⟨0x0AC, 0x00000000, [⟨rcxEvtselKind 3, .rw, false, []⟩, ⟨rcxEvtselSinkKind 3, .rw, false, []⟩, ⟨rcxEvtselEdges 3, .rw, false, []⟩, ⟨rcxEvtselIndex 3, .rw, false, []⟩]⟩,
  ⟨0x0B0, 0x00000000, [⟨rcxEvtcodeValid, .w1c, false, []⟩, ⟨rcxEvtcodeSlot, .ro, false, []⟩, ⟨rcxEvtcodeCode, .ro, false, []⟩]⟩,
  ⟨0x0B4, 0x00000000, [⟨rcxMemselProg, .rw, false, []⟩, ⟨rcxMemselAddr, .rw, false, []⟩]⟩,
  ⟨0x0B8, 0x00000000, [⟨rcxMemdataData, .rw, false, []⟩]⟩]
/-- All registers of the RCX page. -/
def rcxRows : List RegRow := rcxRows0 ++ rcxRows1
/-- Registers of the STR page (10_network_streams.md). -/
def strRows : List RegRow := [
  ⟨0x040, 0x00000000, [⟨strSelStream, .rw, false, []⟩]⟩,
  ⟨0x044, 0x00000000, [⟨strDesc0Valid, .ro, false, []⟩, ⟨strDesc0Kind, .ro, false, []⟩, ⟨strDesc0Dual, .ro, false, []⟩, ⟨strDesc0Port, .ro, false, []⟩, ⟨strDesc0Eid, .ro, false, []⟩]⟩,
  ⟨0x048, 0x00000000, [⟨strDesc1Version, .ro, false, []⟩, ⟨strDesc1Subscribers, .ro, false, []⟩, ⟨strDesc1Channels, .ro, false, []⟩]⟩,
  ⟨0x04C, 0x00000000, [⟨strDesc2First, .ro, false, []⟩, ⟨strDesc2Dscp, .ro, false, []⟩, ⟨strDesc2Ptime, .ro, false, []⟩, ⟨strDesc2Conv, .ro, false, []⟩]⟩,
  ⟨0x050, 0x00000000, [⟨strDesc3UdpDst, .ro, false, []⟩, ⟨strDesc3Pt, .ro, false, []⟩]⟩,
  ⟨0x054, 0x00000000, [⟨strPktsCount, .rc, false, []⟩]⟩,
  ⟨0x058, 0x00000000, [⟨strWithheldSecond, .rc, false, []⟩, ⟨strWithheldFirst, .rc, false, []⟩]⟩,
  ⟨0x05C, 0x00000000, [⟨strLaunchPeak, .rc, false, []⟩, ⟨strLaunchLast, .ro, false, []⟩]⟩,
  ⟨0x060, 0x00000021, [⟨strVersionIncompat, .rc, false, []⟩, ⟨strVersionMax, .ro, false, []⟩, ⟨strVersionMin, .ro, false, []⟩]⟩]
/-- Registers of the SLU page (10_network_streams.md). -/
def sluRows : List RegRow := [
  ⟨0x040, 0x00000000, [⟨sluSelStream, .rw, false, []⟩]⟩,
  ⟨0x044, 0x00000000, [⟨sluDesc0Valid, .ro, false, []⟩, ⟨sluDesc0Kind, .ro, false, []⟩, ⟨sluDesc0Dual, .ro, false, []⟩, ⟨sluDesc0Port, .ro, false, []⟩, ⟨sluDesc0Partner, .ro, false, []⟩, ⟨sluDesc0Eid, .ro, false, []⟩]⟩,
  ⟨0x048, 0x00000000, [⟨sluDesc1Version, .ro, false, []⟩, ⟨sluDesc1Bundle, .ro, false, []⟩, ⟨sluDesc1Depth, .ro, false, []⟩, ⟨sluDesc1Channels, .ro, false, []⟩]⟩,
  ⟨0x04C, 0x00000000, [⟨sluDesc2First, .ro, false, []⟩, ⟨sluDesc2Ptime, .ro, false, []⟩, ⟨sluDesc2Conv, .ro, false, []⟩]⟩,
  ⟨0x050, 0x00000000, [⟨sluDesc3UdpDst, .ro, false, []⟩, ⟨sluDesc3Pt, .ro, false, []⟩]⟩,
  ⟨0x054, 0x00000000, [⟨sluStateHealthyRun, .ro, false, []⟩, ⟨sluStatePaths, .ro, false, []⟩, ⟨sluStateState, .ro, false, []⟩]⟩,
  ⟨0x058, 0x00000000, [⟨sluBog0Late, .rc, false, []⟩, ⟨sluBog0Duplicate, .rc, false, []⟩]⟩,
  ⟨0x05C, 0x00000000, [⟨sluBog1Early, .rc, false, []⟩, ⟨sluBog1Invalid, .rc, false, []⟩]⟩,
  ⟨0x060, 0x00000000, [⟨sluBog2Corrupt, .rc, false, []⟩, ⟨sluBog2Lost, .rc, false, []⟩]⟩,
  ⟨0x064, 0x00000000, [⟨sluMissingUnderrun, .rc, false, []⟩, ⟨sluMissingOverrun, .rc, false, []⟩]⟩,
  ⟨0x068, 0x00000000, [⟨sluPathSecond, .rc, false, []⟩, ⟨sluPathFirst, .rc, false, []⟩]⟩,
  ⟨0x06C, 0xFFFF0000, [⟨sluMarginMinUs, .rc, false, []⟩, ⟨sluMarginLastUs, .ro, false, []⟩]⟩,
  ⟨0x070, 0x00000000, [⟨sluUnmatchedEth3, .rc, false, []⟩, ⟨sluUnmatchedEth2, .rc, false, []⟩, ⟨sluUnmatchedEth1, .rc, false, []⟩, ⟨sluUnmatchedEth0, .rc, false, []⟩]⟩,
  ⟨0x074, 0x08000000, [⟨sluUseFreeKib, .ro, false, []⟩, ⟨sluUseUsedKib, .ro, false, []⟩]⟩,
  ⟨0x078, 0x00000000, [⟨sluEccRetired, .ro, false, []⟩, ⟨sluEccUncorrected, .rc, false, []⟩, ⟨sluEccCorrected, .rc, false, []⟩]⟩]
/-- Registers of the MAC page (11_ethernet_time.md). -/
def macRows0 : List RegRow := [
  ⟨0x040, 0x00000040, [⟨macCfgKeepBad, .rw, false, []⟩, ⟨macCfgRxPauseEn, .rw, false, []⟩, ⟨macCfgPromisc, .rw, false, []⟩, ⟨macCfgPaired, .rw, false, [0, 2]⟩, ⟨macCfgFec, .rw, false, []⟩, ⟨macCfgSpeed, .rw, false, []⟩]⟩,
  ⟨0x044, 0x00002400, [⟨macMaxlenBytes, .rw, false, []⟩]⟩,
  ⟨0x048, 0x00000000, [⟨macAddrLoAddr, .rw, false, []⟩]⟩,
  ⟨0x04C, 0x00000000, [⟨macAddrHiAddr, .rw, false, []⟩]⟩,
  ⟨0x050, 0x00000000, [⟨macMchashHash 0, .rw, false, []⟩]⟩,
  ⟨0x054, 0x00000000, [⟨macMchashHash 1, .rw, false, []⟩]⟩,
  ⟨0x058, 0x00000000, [⟨macMchashHash 2, .rw, false, []⟩]⟩,
  ⟨0x05C, 0x00000000, [⟨macMchashHash 3, .rw, false, []⟩]⟩,
  ⟨0x060, 0x00000000, [⟨macMchashHash 4, .rw, false, []⟩]⟩,
  ⟨0x064, 0x00000000, [⟨macMchashHash 5, .rw, false, []⟩]⟩,
  ⟨0x068, 0x00000000, [⟨macMchashHash 6, .rw, false, []⟩]⟩,
  ⟨0x06C, 0x00000000, [⟨macMchashHash 7, .rw, false, []⟩]⟩,
  ⟨0x070, 0x00000000, [⟨macRxclassUdpHi, .sh, false, []⟩, ⟨macRxclassUdpLo, .sh, false, []⟩]⟩,
  ⟨0x074, 0x00000000, [⟨macStatRetired, .ro, false, []⟩, ⟨macStatCfgDrop, .w1c, false, []⟩, ⟨macStatPaused, .ro, false, []⟩, ⟨macStatTraining, .ro, false, []⟩, ⟨macStatRemoteFault, .ro, false, []⟩, ⟨macStatLocalFault, .ro, false, []⟩, ⟨macStatBlockLock, .ro, false, []⟩, ⟨macStatLink, .ro, false, []⟩]⟩,
  ⟨0x078, 0x26803D40, [⟨macTscorrTx, .ro, false, []⟩, ⟨macTscorrRx, .ro, false, []⟩]⟩,
  ⟨0x07C, 0x00000000, [⟨macTsadjTx, .rw, false, []⟩, ⟨macTsadjRx, .rw, false, []⟩]⟩,
  ⟨0x080, 0x00000000, [⟨macTxrBaseLoAddr, .rw, false, []⟩]⟩,
  ⟨0x090, 0x00000000, [⟨macRxrBaseLoAddr, .rw, false, []⟩]⟩,
  ⟨0x084, 0x00040000, [⟨macTxrBaseHiSize, .rw, false, []⟩, ⟨macTxrBaseHiAddrHi, .rw, false, []⟩]⟩,
  ⟨0x094, 0x00040000, [⟨macRxrBaseHiSize, .rw, false, []⟩, ⟨macRxrBaseHiAddrHi, .rw, false, []⟩]⟩,
  ⟨0x088, 0x00000000, [⟨macTxrTailIndex, .rw, false, []⟩]⟩,
  ⟨0x08C, 0x00000000, [⟨macTxrHeadIndex, .ro, false, []⟩]⟩,
  ⟨0x098, 0x00000000, [⟨macRxrTailIndex, .rw, false, []⟩]⟩,
  ⟨0x09C, 0x00000000, [⟨macRxrHeadIndex, .ro, false, []⟩]⟩]
/-- Registers of the MAC page (11_ethernet_time.md). -/
def macRows1 : List RegRow := [
  ⟨0x0A0, 0x000003E8, [⟨macPauseLeft, .ro, false, []⟩, ⟨macPauseCapUs, .rw, false, []⟩]⟩,
  ⟨0x100, 0x00000000, [⟨macCntLoCount 0, .rc, false, []⟩]⟩,
  ⟨0x104, 0x00000000, [⟨macCntHiCount 0, .ro, false, []⟩]⟩,
  ⟨0x108, 0x00000000, [⟨macCntLoCount 1, .rc, false, []⟩]⟩,
  ⟨0x10C, 0x00000000, [⟨macCntHiCount 1, .ro, false, []⟩]⟩,
  ⟨0x110, 0x00000000, [⟨macCntLoCount 2, .rc, false, []⟩]⟩,
  ⟨0x114, 0x00000000, [⟨macCntHiCount 2, .ro, false, []⟩]⟩,
  ⟨0x118, 0x00000000, [⟨macCntLoCount 3, .rc, false, []⟩]⟩,
  ⟨0x11C, 0x00000000, [⟨macCntHiCount 3, .ro, false, []⟩]⟩,
  ⟨0x120, 0x00000000, [⟨macCntLoCount 4, .rc, false, []⟩]⟩,
  ⟨0x124, 0x00000000, [⟨macCntHiCount 4, .ro, false, []⟩]⟩,
  ⟨0x128, 0x00000000, [⟨macCntLoCount 5, .rc, false, []⟩]⟩,
  ⟨0x12C, 0x00000000, [⟨macCntHiCount 5, .ro, false, []⟩]⟩,
  ⟨0x130, 0x00000000, [⟨macCntLoCount 6, .rc, false, []⟩]⟩,
  ⟨0x134, 0x00000000, [⟨macCntHiCount 6, .ro, false, []⟩]⟩,
  ⟨0x138, 0x00000000, [⟨macCntLoCount 7, .rc, false, []⟩]⟩,
  ⟨0x13C, 0x00000000, [⟨macCntHiCount 7, .ro, false, []⟩]⟩,
  ⟨0x140, 0x00000000, [⟨macCntLoCount 8, .rc, false, []⟩]⟩,
  ⟨0x144, 0x00000000, [⟨macCntHiCount 8, .ro, false, []⟩]⟩,
  ⟨0x148, 0x00000000, [⟨macCntLoCount 9, .rc, false, []⟩]⟩,
  ⟨0x14C, 0x00000000, [⟨macCntHiCount 9, .ro, false, []⟩]⟩,
  ⟨0x150, 0x00000000, [⟨macCntLoCount 10, .rc, false, []⟩]⟩,
  ⟨0x154, 0x00000000, [⟨macCntHiCount 10, .ro, false, []⟩]⟩,
  ⟨0x158, 0x00000000, [⟨macCntLoCount 11, .rc, false, []⟩]⟩]
/-- Registers of the MAC page (11_ethernet_time.md). -/
def macRows2 : List RegRow := [
  ⟨0x15C, 0x00000000, [⟨macCntHiCount 11, .ro, false, []⟩]⟩,
  ⟨0x160, 0x00000000, [⟨macCntLoCount 12, .rc, false, []⟩]⟩,
  ⟨0x164, 0x00000000, [⟨macCntHiCount 12, .ro, false, []⟩]⟩,
  ⟨0x168, 0x00000000, [⟨macCntLoCount 13, .rc, false, []⟩]⟩,
  ⟨0x16C, 0x00000000, [⟨macCntHiCount 13, .ro, false, []⟩]⟩,
  ⟨0x170, 0x00000000, [⟨macCntLoCount 14, .rc, false, []⟩]⟩,
  ⟨0x174, 0x00000000, [⟨macCntHiCount 14, .ro, false, []⟩]⟩,
  ⟨0x178, 0x00000000, [⟨macCntLoCount 15, .rc, false, []⟩]⟩,
  ⟨0x17C, 0x00000000, [⟨macCntHiCount 15, .ro, false, []⟩]⟩]
/-- All registers of the MAC page. -/
def macRows : List RegRow := macRows0 ++ macRows1 ++ macRows2
/-- Registers of the PHC page (11_ethernet_time.md). -/
def phcRows : List RegRow := [
  ⟨0x040, 0x00000000, [⟨phcCtrlSteer, .rw, false, []⟩]⟩,
  ⟨0x044, 0x00000000, [⟨phcTimeNsEpoch, .ro, false, []⟩, ⟨phcTimeNsNs, .ro, false, []⟩]⟩,
  ⟨0x048, 0x00000000, [⟨phcTimeSecLoVal, .ro, false, []⟩]⟩,
  ⟨0x04C, 0x00000000, [⟨phcTimeSecHiVal, .ro, false, []⟩]⟩,
  ⟨0x050, 0x00000000, [⟨phcTimeFracVal, .ro, false, []⟩]⟩,
  ⟨0x054, 0x40000000, [⟨phcIncrFracFrac, .rw, false, []⟩]⟩,
  ⟨0x058, 0x00000001, [⟨phcIncrNsNs, .rw, false, []⟩]⟩,
  ⟨0x05C, 0x00000000, [⟨phcStepNsNs, .rw, false, []⟩]⟩,
  ⟨0x060, 0x00000000, [⟨phcStepSecLoSec, .rw, false, []⟩]⟩,
  ⟨0x064, 0x00000000, [⟨phcStepSecHiSec, .rw, false, []⟩]⟩,
  ⟨0x068, 0x00000000, [⟨phcStepCtrlPermit, .w1t, true, []⟩, ⟨phcStepCtrlGo, .w1t, false, []⟩]⟩,
  ⟨0x06C, 0x000F4240, [⟨phcStepLimitNs, .rw, true, []⟩]⟩,
  ⟨0x070, 0x00000000, [⟨phcStatDp1Steering, .ro, false, []⟩, ⟨phcStatLastResult, .ro, false, []⟩, ⟨phcStatEpoch, .ro, false, []⟩, ⟨phcStatStepBusy, .ro, false, []⟩, ⟨phcStatPermitArmed, .ro, false, []⟩]⟩,
  ⟨0x074, 0x00000000, [⟨phcEventsSteps, .rc, false, []⟩, ⟨phcEventsRefused, .rc, false, []⟩, ⟨phcEventsIncrDrops, .rc, false, []⟩]⟩,
  ⟨0x078, 0x00000000, [⟨phcLastStepNs, .ro, false, []⟩]⟩]
/-- Registers of the REF page (12_references.md). -/
def refRows0 : List RegRow := [
  ⟨0x040, 0x00000000, [⟨refCtrlStepOnSwitch, .rw, false, []⟩, ⟨refCtrlManual, .rw, false, []⟩, ⟨refCtrlMode, .rw, false, []⟩]⟩,
  ⟨0x044, 0x00000000, [⟨refStatQualified, .ro, false, []⟩, ⟨refStatManualHeld, .ro, false, []⟩, ⟨refStatActive, .ro, false, []⟩, ⟨refStatActiveValid, .ro, false, []⟩, ⟨refStatState, .ro, false, []⟩]⟩,
  ⟨0x048, 0x00000032, [⟨refAgreePpb, .rw, false, []⟩]⟩,
  ⟨0x04C, 0xBBFE34FE, [⟨refQlmapG2, .rw, false, []⟩, ⟨refQlmapG1, .rw, false, []⟩]⟩,
  ⟨0x050, 0xC3502710, [⟨refFlimAbsHard, .rw, false, []⟩, ⟨refFlimAbsSoft, .rw, false, []⟩]⟩,
  ⟨0x054, 0x138803E8, [⟨refFlimRelHard, .rw, false, []⟩, ⟨refFlimRelSoft, .rw, false, []⟩]⟩,
  ⟨0x058, 0x0064000A, [⟨refDriftLimHard, .rw, false, []⟩, ⟨refDriftLimSoft, .rw, false, []⟩]⟩,
  ⟨0x05C, 0x1E015180, [⟨refHoldoverAvg, .rw, false, []⟩, ⟨refHoldoverLimitS, .rw, false, []⟩]⟩,
  ⟨0x060, 0x00000000, [⟨refHoStatHistOk, .ro, false, []⟩, ⟨refHoStatExpired, .ro, false, []⟩, ⟨refHoStatElapsed, .ro, false, []⟩]⟩,
  ⟨0x064, 0x00000000, [⟨refHoFreqFreq, .ro, false, []⟩]⟩,
  ⟨0x068, 0x00000000, [⟨refEventsSwitches, .rc, false, []⟩, ⟨refEventsDisputes, .rc, false, []⟩, ⟨refEventsVotes, .rc, false, []⟩]⟩,
  ⟨0x06C, 0x00000000, [⟨refSelSlot, .rw, false, []⟩]⟩,
  ⟨0x070, 0x00000000, [⟨refScfg0Enable, .rw, false, []⟩, ⟨refScfg0Source, .rw, false, []⟩, ⟨refScfg0Kind, .rw, false, []⟩, ⟨refScfg0Rank, .rw, false, []⟩, ⟨refScfg0WtrEn, .rw, false, []⟩, ⟨refScfg0WtrS, .rw, false, []⟩]⟩,
  ⟨0x074, 0xF8FEF8FE, [⟨refScfg1QlMin, .rw, false, []⟩, ⟨refScfg1UserQl, .rw, false, []⟩]⟩,
  ⟨0x078, 0x00000000, [⟨refScfg2Num, .rw, false, []⟩]⟩,
  ⟨0x07C, 0x00000001, [⟨refScfg3Pol, .rw, false, []⟩, ⟨refScfg3Den, .rw, false, []⟩]⟩,
  ⟨0x080, 0x00000000, [⟨refSoffsetNs, .rw, false, []⟩]⟩,
  ⟨0x084, 0x00000000, [⟨refSstatWtrLeft, .ro, false, []⟩, ⟨refSstatDispute, .ro, false, []⟩, ⟨refSstatActive, .ro, false, []⟩, ⟨refSstatCfgErr, .ro, false, []⟩, ⟨refSstatState, .ro, false, []⟩]⟩,
  ⟨0x088, 0xFFFF0000, [⟨refSqlReceived, .ro, false, []⟩, ⟨refSqlInForce, .ro, false, []⟩]⟩,
  ⟨0x08C, 0x00000000, [⟨refSfreqAbsVal, .ro, false, []⟩]⟩,
  ⟨0x090, 0x00000000, [⟨refSfreqRelVal, .ro, false, []⟩]⟩,
  ⟨0x094, 0x00000000, [⟨refSdriftVal, .ro, false, []⟩]⟩,
  ⟨0x0A0, 0x02000000, [⟨refWckEnable 0, .rw, false, []⟩, ⟨refWckSquelch 0, .rw, false, []⟩, ⟨refWckSrc 0, .rw, false, []⟩, ⟨refWckRate 0, .rw, false, []⟩, ⟨refWckErr 0, .ro, false, []⟩, ⟨refWckOffsetNs 0, .rw, false, []⟩]⟩,
  ⟨0x0A4, 0x02000000, [⟨refWckEnable 1, .rw, false, []⟩, ⟨refWckSquelch 1, .rw, false, []⟩, ⟨refWckSrc 1, .rw, false, []⟩, ⟨refWckRate 1, .rw, false, []⟩, ⟨refWckErr 1, .ro, false, []⟩, ⟨refWckOffsetNs 1, .rw, false, []⟩]⟩]
/-- Registers of the REF page (12_references.md). -/
def refRows1 : List RegRow := [
  ⟨0x0A8, 0x02000000, [⟨refWckEnable 2, .rw, false, []⟩, ⟨refWckSquelch 2, .rw, false, []⟩, ⟨refWckSrc 2, .rw, false, []⟩, ⟨refWckRate 2, .rw, false, []⟩, ⟨refWckErr 2, .ro, false, []⟩, ⟨refWckOffsetNs 2, .rw, false, []⟩]⟩,
  ⟨0x0AC, 0x02000000, [⟨refWckEnable 3, .rw, false, []⟩, ⟨refWckSquelch 3, .rw, false, []⟩, ⟨refWckSrc 3, .rw, false, []⟩, ⟨refWckRate 3, .rw, false, []⟩, ⟨refWckErr 3, .ro, false, []⟩, ⟨refWckOffsetNs 3, .rw, false, []⟩]⟩,
  ⟨0x0B0, 0x00002710, [⟨refPpsEnable, .rw, false, []⟩, ⟨refPpsSquelch, .rw, false, []⟩, ⟨refPpsWidthUs, .rw, false, []⟩]⟩,
  ⟨0x0B4, 0x00000000, [⟨refTenEnable, .rw, false, []⟩, ⟨refTenSquelch, .rw, false, []⟩, ⟨refTenSrc, .rw, false, []⟩, ⟨refTenErr, .ro, false, []⟩]⟩]
/-- All registers of the REF page. -/
def refRows : List RegRow := refRows0 ++ refRows1
/-- Registers of the DPL page (12_references.md). -/
def dplRows : List RegRow := [
  ⟨0x040, 0x00030F0C, [⟨dplCfgFamily, .rw, false, [2, 3]⟩, ⟨dplCfgSlot, .rw, false, [2, 3]⟩, ⟨dplCfgInput, .rw, false, [2, 3]⟩, ⟨dplCfgAcqBw, .rw, false, [0, 1]⟩, ⟨dplCfgBw, .rw, false, []⟩]⟩,
  ⟨0x044, 0x000003E8, [⟨dplPslNsPerS, .rw, false, []⟩]⟩,
  ⟨0x048, 0x00000064, [⟨dplLockWindowNs, .rw, false, []⟩]⟩,
  ⟨0x04C, 0x00000000, [⟨dplStatBwClamped, .ro, false, []⟩, ⟨dplStatSlewing, .ro, false, []⟩, ⟨dplStatBwNow, .ro, false, []⟩, ⟨dplStatState, .ro, false, []⟩]⟩,
  ⟨0x050, 0x00000000, [⟨dplPhaseNs, .ro, false, []⟩]⟩,
  ⟨0x054, 0x00000000, [⟨dplSlewLeftNs, .ro, false, []⟩]⟩,
  ⟨0x058, 0x00000000, [⟨dplFreqFreq, .ro, false, []⟩]⟩,
  ⟨0x05C, 0x00000000, [⟨dplEventsLockLoss, .rc, false, []⟩, ⟨dplEventsHoldovers, .rc, false, []⟩]⟩]
/-- Registers of the AES page (13_local_audio_io.md). -/
def aesRows0 : List RegRow := [
  ⟨0x040, 0x00000000, [⟨aesCfgTxVset, .rw, false, []⟩, ⟨aesCfgTxUser, .rw, false, []⟩, ⟨aesCfgTxRefout, .rw, false, []⟩, ⟨aesCfgTxDiv, .sh, false, []⟩, ⟨aesCfgTxAutoRate, .rw, false, []⟩, ⟨aesCfgVMute, .rw, false, []⟩, ⟨aesCfgRxSync, .sh, false, []⟩, ⟨aesCfgTxOn, .sh, false, []⟩, ⟨aesCfgRxOn, .sh, false, []⟩]⟩,
  ⟨0x044, 0x00000000, [⟨aesRxStatRate, .ro, false, []⟩, ⟨aesRxStatFresh, .w1c, false, []⟩, ⟨aesRxStatModeErr, .ro, false, []⟩, ⟨aesRxStatVB, .ro, false, []⟩, ⟨aesRxStatVA, .ro, false, []⟩, ⟨aesRxStatPro, .ro, false, []⟩, ⟨aesRxStatState, .ro, false, []⟩]⟩,
  ⟨0x048, 0x00000000, [⟨aesRxRatioRatio, .ro, false, []⟩]⟩,
  ⟨0x04C, 0x00000000, [⟨aesRxErrParity, .rc, false, []⟩, ⟨aesRxErrCrcc, .rc, false, []⟩, ⟨aesRxErrBlksync, .rc, false, []⟩, ⟨aesRxErrSlips, .rc, false, []⟩]⟩,
  ⟨0x050, 0x00000000, [⟨aesRxVcntVB, .rc, false, []⟩, ⟨aesRxVcntVA, .rc, false, []⟩]⟩,
  ⟨0x054, 0x00000000, [⟨aesCapSelWhat, .rw, false, []⟩]⟩,
  ⟨0x058, 0x00000000, [⟨aesCapBytes 0, .ro, false, []⟩]⟩,
  ⟨0x05C, 0x00000000, [⟨aesCapBytes 1, .ro, false, []⟩]⟩,
  ⟨0x060, 0x00000000, [⟨aesCapBytes 2, .ro, false, []⟩]⟩,
  ⟨0x064, 0x00000000, [⟨aesCapBytes 3, .ro, false, []⟩]⟩,
  ⟨0x068, 0x00000000, [⟨aesCapBytes 4, .ro, false, []⟩]⟩,
  ⟨0x06C, 0x00000000, [⟨aesCapBytes 5, .ro, false, []⟩]⟩,
  ⟨0x070, 0x00000000, [⟨aesTxCsBytes 0, .sh, false, []⟩]⟩,
  ⟨0x074, 0x00000000, [⟨aesTxCsBytes 1, .sh, false, []⟩]⟩,
  ⟨0x078, 0x00000000, [⟨aesTxCsBytes 2, .sh, false, []⟩]⟩,
  ⟨0x07C, 0x00000000, [⟨aesTxCsBytes 3, .sh, false, []⟩]⟩,
  ⟨0x080, 0x00000000, [⟨aesTxCsBytes 4, .sh, false, []⟩]⟩,
  ⟨0x084, 0x00000000, [⟨aesTxCsBytes 5, .sh, false, []⟩]⟩,
  ⟨0x088, 0x00000000, [⟨aesTxUBytes 0, .rw, false, []⟩]⟩,
  ⟨0x08C, 0x00000000, [⟨aesTxUBytes 1, .rw, false, []⟩]⟩,
  ⟨0x090, 0x00000000, [⟨aesTxUBytes 2, .rw, false, []⟩]⟩,
  ⟨0x094, 0x00000000, [⟨aesTxUBytes 3, .rw, false, []⟩]⟩,
  ⟨0x098, 0x00000000, [⟨aesTxUBytes 4, .rw, false, []⟩]⟩,
  ⟨0x09C, 0x00000000, [⟨aesTxUBytes 5, .rw, false, []⟩]⟩]
/-- Registers of the AES page (13_local_audio_io.md). -/
def aesRows1 : List RegRow := [
  ⟨0x0A0, 0x00000000, [⟨aesTxStatGrade, .ro, false, []⟩, ⟨aesTxStatCsPending, .ro, false, []⟩, ⟨aesTxStatRunning, .ro, false, []⟩]⟩,
  ⟨0x0A4, 0x00000000, [⟨aesErrMasked, .rc, false, []⟩]⟩]
/-- All registers of the AES page. -/
def aesRows : List RegRow := aesRows0 ++ aesRows1
/-- Registers of the TDM page (13_local_audio_io.md). -/
def tdmRows : List RegRow := [
  ⟨0x040, 0x00000000, [⟨tdmCfgTristate, .sh, false, []⟩, ⟨tdmCfgDelay1, .sh, false, []⟩, ⟨tdmCfgFsPol, .sh, false, []⟩, ⟨tdmCfgFsLong, .sh, false, []⟩, ⟨tdmCfgMaster, .sh, false, []⟩, ⟨tdmCfgDiv, .sh, false, []⟩, ⟨tdmCfgSlotsM1, .sh, false, []⟩, ⟨tdmCfgWidth, .sh, false, []⟩]⟩,
  ⟨0x044, 0x00000000, [⟨tdmRxmaskSlot, .sh, false, []⟩]⟩,
  ⟨0x048, 0x00000000, [⟨tdmTxmaskSlot, .sh, false, []⟩]⟩,
  ⟨0x04C, 0x00000001, [⟨tdmMaskctlGraceful, .rw, false, []⟩]⟩,
  ⟨0x050, 0x00000000, [⟨tdmRxactSlot, .ro, false, []⟩]⟩,
  ⟨0x054, 0x00000000, [⟨tdmTxactSlot, .ro, false, []⟩]⟩,
  ⟨0x058, 0x00000000, [⟨tdmStatFifo, .ro, false, []⟩, ⟨tdmStatFading, .ro, false, []⟩, ⟨tdmStatClocked, .ro, false, []⟩]⟩,
  ⟨0x05C, 0x00000000, [⟨tdmErrFraming, .rc, false, []⟩, ⟨tdmErrSlips, .rc, false, []⟩, ⟨tdmErrMasked, .rc, false, []⟩]⟩]
/-- Registers of the SDI page (13_local_audio_io.md). -/
def sdiRows : List RegRow := [
  ⟨0x040, 0x00000000, [⟨sdiCtrlClkEn, .rw, false, []⟩]⟩,
  ⟨0x044, 0x00000000, [⟨sdiStuck0Input, .ro, false, []⟩]⟩,
  ⟨0x048, 0x00000000, [⟨sdiStuck1Input, .ro, false, []⟩]⟩,
  ⟨0x04C, 0x00000000, [⟨sdiEventsStuck, .rc, false, []⟩]⟩]
/-- Registers of the DEC page (13_local_audio_io.md). -/
def decRows : List RegRow := [
  ⟨0x040, 0x00000000, [⟨decSelChannel, .rw, false, []⟩]⟩,
  ⟨0x044, 0x00000000, [⟨decCfgOn, .sh, false, []⟩, ⟨decCfgPin, .sh, false, []⟩, ⟨decCfgPreset, .sh, false, []⟩]⟩,
  ⟨0x048, 0x00000000, [⟨decStatSettleLeft, .ro, false, []⟩, ⟨decStatSat, .w1c, false, []⟩, ⟨decStatBank, .ro, false, []⟩, ⟨decStatSettling, .ro, false, []⟩, ⟨decStatFading, .ro, false, []⟩, ⟨decStatPin, .ro, false, []⟩, ⟨decStatPreset, .ro, false, []⟩]⟩,
  ⟨0x04C, 0x00000000, [⟨decDelayPresetDly, .ro, false, []⟩, ⟨decDelayTotal, .ro, false, []⟩]⟩,
  ⟨0x050, 0x00000000, [⟨decErrMasked, .rc, false, []⟩]⟩]
/-- Registers of the MOD page (14_drive_outputs.md). -/
def modRows0 : List RegRow := [
  ⟨0x040, 0x00000000, [⟨modChctlChEn 0, .rw, false, []⟩, ⟨modChctlClear 0, .w1t, false, []⟩, ⟨modChctlRole 0, .sh, true, []⟩, ⟨modChctlRgroup 0, .sh, false, []⟩]⟩,
  ⟨0x060, 0x00000000, [⟨modChctlChEn 1, .rw, false, []⟩, ⟨modChctlClear 1, .w1t, false, []⟩, ⟨modChctlRole 1, .sh, true, []⟩, ⟨modChctlRgroup 1, .sh, false, []⟩]⟩,
  ⟨0x080, 0x00000000, [⟨modChctlChEn 2, .rw, false, []⟩, ⟨modChctlClear 2, .w1t, false, []⟩, ⟨modChctlRole 2, .sh, true, []⟩, ⟨modChctlRgroup 2, .sh, false, []⟩]⟩,
  ⟨0x0A0, 0x00000000, [⟨modChctlChEn 3, .rw, false, []⟩, ⟨modChctlClear 3, .w1t, false, []⟩, ⟨modChctlRole 3, .sh, true, []⟩, ⟨modChctlRgroup 3, .sh, false, []⟩]⟩,
  ⟨0x0C0, 0x00000000, [⟨modChctlChEn 4, .rw, false, []⟩, ⟨modChctlClear 4, .w1t, false, []⟩, ⟨modChctlRole 4, .sh, true, []⟩, ⟨modChctlRgroup 4, .sh, false, []⟩]⟩,
  ⟨0x0E0, 0x00000000, [⟨modChctlChEn 5, .rw, false, []⟩, ⟨modChctlClear 5, .w1t, false, []⟩, ⟨modChctlRole 5, .sh, true, []⟩, ⟨modChctlRgroup 5, .sh, false, []⟩]⟩,
  ⟨0x100, 0x00000000, [⟨modChctlChEn 6, .rw, false, []⟩, ⟨modChctlClear 6, .w1t, false, []⟩, ⟨modChctlRole 6, .sh, true, []⟩, ⟨modChctlRgroup 6, .sh, false, []⟩]⟩,
  ⟨0x120, 0x00000000, [⟨modChctlChEn 7, .rw, false, []⟩, ⟨modChctlClear 7, .w1t, false, []⟩, ⟨modChctlRole 7, .sh, true, []⟩, ⟨modChctlRgroup 7, .sh, false, []⟩]⟩,
  ⟨0x044, 0x000002BC, [⟨modCarrierCmode 0, .sh, false, []⟩, ⟨modCarrierPhase 0, .sh, false, []⟩, ⟨modCarrierPeriod 0, .sh, false, []⟩]⟩,
  ⟨0x064, 0x000002BC, [⟨modCarrierCmode 1, .sh, false, []⟩, ⟨modCarrierPhase 1, .sh, false, []⟩, ⟨modCarrierPeriod 1, .sh, false, []⟩]⟩,
  ⟨0x084, 0x000002BC, [⟨modCarrierCmode 2, .sh, false, []⟩, ⟨modCarrierPhase 2, .sh, false, []⟩, ⟨modCarrierPeriod 2, .sh, false, []⟩]⟩,
  ⟨0x0A4, 0x000002BC, [⟨modCarrierCmode 3, .sh, false, []⟩, ⟨modCarrierPhase 3, .sh, false, []⟩, ⟨modCarrierPeriod 3, .sh, false, []⟩]⟩,
  ⟨0x0C4, 0x000002BC, [⟨modCarrierCmode 4, .sh, false, []⟩, ⟨modCarrierPhase 4, .sh, false, []⟩, ⟨modCarrierPeriod 4, .sh, false, []⟩]⟩,
  ⟨0x0E4, 0x000002BC, [⟨modCarrierCmode 5, .sh, false, []⟩, ⟨modCarrierPhase 5, .sh, false, []⟩, ⟨modCarrierPeriod 5, .sh, false, []⟩]⟩,
  ⟨0x104, 0x000002BC, [⟨modCarrierCmode 6, .sh, false, []⟩, ⟨modCarrierPhase 6, .sh, false, []⟩, ⟨modCarrierPeriod 6, .sh, false, []⟩]⟩,
  ⟨0x124, 0x000002BC, [⟨modCarrierCmode 7, .sh, false, []⟩, ⟨modCarrierPhase 7, .sh, false, []⟩, ⟨modCarrierPeriod 7, .sh, false, []⟩]⟩,
  ⟨0x048, 0x40002003, [⟨modLoopFfGain 0, .rw, false, []⟩, ⟨modLoopCorrMax 0, .rw, false, []⟩, ⟨modLoopBw 0, .rw, false, []⟩]⟩,
  ⟨0x068, 0x40002003, [⟨modLoopFfGain 1, .rw, false, []⟩, ⟨modLoopCorrMax 1, .rw, false, []⟩, ⟨modLoopBw 1, .rw, false, []⟩]⟩,
  ⟨0x088, 0x40002003, [⟨modLoopFfGain 2, .rw, false, []⟩, ⟨modLoopCorrMax 2, .rw, false, []⟩, ⟨modLoopBw 2, .rw, false, []⟩]⟩,
  ⟨0x0A8, 0x40002003, [⟨modLoopFfGain 3, .rw, false, []⟩, ⟨modLoopCorrMax 3, .rw, false, []⟩, ⟨modLoopBw 3, .rw, false, []⟩]⟩,
  ⟨0x0C8, 0x40002003, [⟨modLoopFfGain 4, .rw, false, []⟩, ⟨modLoopCorrMax 4, .rw, false, []⟩, ⟨modLoopBw 4, .rw, false, []⟩]⟩,
  ⟨0x0E8, 0x40002003, [⟨modLoopFfGain 5, .rw, false, []⟩, ⟨modLoopCorrMax 5, .rw, false, []⟩, ⟨modLoopBw 5, .rw, false, []⟩]⟩,
  ⟨0x108, 0x40002003, [⟨modLoopFfGain 6, .rw, false, []⟩, ⟨modLoopCorrMax 6, .rw, false, []⟩, ⟨modLoopBw 6, .rw, false, []⟩]⟩,
  ⟨0x128, 0x40002003, [⟨modLoopFfGain 7, .rw, false, []⟩, ⟨modLoopCorrMax 7, .rw, false, []⟩, ⟨modLoopBw 7, .rw, false, []⟩]⟩]
/-- Registers of the MOD page (14_drive_outputs.md). -/
def modRows1 : List RegRow := [
  ⟨0x04C, 0x0000E000, [⟨modProtIlim 0, .rw, true, []⟩]⟩,
  ⟨0x06C, 0x0000E000, [⟨modProtIlim 1, .rw, true, []⟩]⟩,
  ⟨0x08C, 0x0000E000, [⟨modProtIlim 2, .rw, true, []⟩]⟩,
  ⟨0x0AC, 0x0000E000, [⟨modProtIlim 3, .rw, true, []⟩]⟩,
  ⟨0x0CC, 0x0000E000, [⟨modProtIlim 4, .rw, true, []⟩]⟩,
  ⟨0x0EC, 0x0000E000, [⟨modProtIlim 5, .rw, true, []⟩]⟩,
  ⟨0x10C, 0x0000E000, [⟨modProtIlim 6, .rw, true, []⟩]⟩,
  ⟨0x12C, 0x0000E000, [⟨modProtIlim 7, .rw, true, []⟩]⟩,
  ⟨0x050, 0x00000000, [⟨modChstatState 0, .ro, false, []⟩, ⟨modChstatBusy 0, .ro, false, []⟩, ⟨modChstatPending 0, .ro, false, []⟩, ⟨modChstatIdOk 0, .ro, false, []⟩, ⟨modChstatFollowed 0, .ro, false, []⟩, ⟨modChstatRamped 0, .ro, false, []⟩, ⟨modChstatLateMember 0, .w1c, false, []⟩, ⟨modChstatNotFollowed 0, .w1c, false, []⟩, ⟨modChstatFollowTmo 0, .w1c, false, []⟩, ⟨modChstatGrpErr 0, .ro, false, []⟩, ⟨modChstatTripCause 0, .ro, false, []⟩, ⟨modChstatCoolLeft 0, .ro, false, []⟩]⟩,
  ⟨0x070, 0x00000000, [⟨modChstatState 1, .ro, false, []⟩, ⟨modChstatBusy 1, .ro, false, []⟩, ⟨modChstatPending 1, .ro, false, []⟩, ⟨modChstatIdOk 1, .ro, false, []⟩, ⟨modChstatFollowed 1, .ro, false, []⟩, ⟨modChstatRamped 1, .ro, false, []⟩, ⟨modChstatLateMember 1, .w1c, false, []⟩, ⟨modChstatNotFollowed 1, .w1c, false, []⟩, ⟨modChstatFollowTmo 1, .w1c, false, []⟩, ⟨modChstatGrpErr 1, .ro, false, []⟩, ⟨modChstatTripCause 1, .ro, false, []⟩, ⟨modChstatCoolLeft 1, .ro, false, []⟩]⟩,
  ⟨0x090, 0x00000000, [⟨modChstatState 2, .ro, false, []⟩, ⟨modChstatBusy 2, .ro, false, []⟩, ⟨modChstatPending 2, .ro, false, []⟩, ⟨modChstatIdOk 2, .ro, false, []⟩, ⟨modChstatFollowed 2, .ro, false, []⟩, ⟨modChstatRamped 2, .ro, false, []⟩, ⟨modChstatLateMember 2, .w1c, false, []⟩, ⟨modChstatNotFollowed 2, .w1c, false, []⟩, ⟨modChstatFollowTmo 2, .w1c, false, []⟩, ⟨modChstatGrpErr 2, .ro, false, []⟩, ⟨modChstatTripCause 2, .ro, false, []⟩, ⟨modChstatCoolLeft 2, .ro, false, []⟩]⟩,
  ⟨0x0B0, 0x00000000, [⟨modChstatState 3, .ro, false, []⟩, ⟨modChstatBusy 3, .ro, false, []⟩, ⟨modChstatPending 3, .ro, false, []⟩, ⟨modChstatIdOk 3, .ro, false, []⟩, ⟨modChstatFollowed 3, .ro, false, []⟩, ⟨modChstatRamped 3, .ro, false, []⟩, ⟨modChstatLateMember 3, .w1c, false, []⟩, ⟨modChstatNotFollowed 3, .w1c, false, []⟩, ⟨modChstatFollowTmo 3, .w1c, false, []⟩, ⟨modChstatGrpErr 3, .ro, false, []⟩, ⟨modChstatTripCause 3, .ro, false, []⟩, ⟨modChstatCoolLeft 3, .ro, false, []⟩]⟩,
  ⟨0x0D0, 0x00000000, [⟨modChstatState 4, .ro, false, []⟩, ⟨modChstatBusy 4, .ro, false, []⟩, ⟨modChstatPending 4, .ro, false, []⟩, ⟨modChstatIdOk 4, .ro, false, []⟩, ⟨modChstatFollowed 4, .ro, false, []⟩, ⟨modChstatRamped 4, .ro, false, []⟩, ⟨modChstatLateMember 4, .w1c, false, []⟩, ⟨modChstatNotFollowed 4, .w1c, false, []⟩, ⟨modChstatFollowTmo 4, .w1c, false, []⟩, ⟨modChstatGrpErr 4, .ro, false, []⟩, ⟨modChstatTripCause 4, .ro, false, []⟩, ⟨modChstatCoolLeft 4, .ro, false, []⟩]⟩,
  ⟨0x0F0, 0x00000000, [⟨modChstatState 5, .ro, false, []⟩, ⟨modChstatBusy 5, .ro, false, []⟩, ⟨modChstatPending 5, .ro, false, []⟩, ⟨modChstatIdOk 5, .ro, false, []⟩, ⟨modChstatFollowed 5, .ro, false, []⟩, ⟨modChstatRamped 5, .ro, false, []⟩, ⟨modChstatLateMember 5, .w1c, false, []⟩, ⟨modChstatNotFollowed 5, .w1c, false, []⟩, ⟨modChstatFollowTmo 5, .w1c, false, []⟩, ⟨modChstatGrpErr 5, .ro, false, []⟩, ⟨modChstatTripCause 5, .ro, false, []⟩, ⟨modChstatCoolLeft 5, .ro, false, []⟩]⟩,
  ⟨0x110, 0x00000000, [⟨modChstatState 6, .ro, false, []⟩, ⟨modChstatBusy 6, .ro, false, []⟩, ⟨modChstatPending 6, .ro, false, []⟩, ⟨modChstatIdOk 6, .ro, false, []⟩, ⟨modChstatFollowed 6, .ro, false, []⟩, ⟨modChstatRamped 6, .ro, false, []⟩, ⟨modChstatLateMember 6, .w1c, false, []⟩, ⟨modChstatNotFollowed 6, .w1c, false, []⟩, ⟨modChstatFollowTmo 6, .w1c, false, []⟩, ⟨modChstatGrpErr 6, .ro, false, []⟩, ⟨modChstatTripCause 6, .ro, false, []⟩, ⟨modChstatCoolLeft 6, .ro, false, []⟩]⟩,
  ⟨0x130, 0x00000000, [⟨modChstatState 7, .ro, false, []⟩, ⟨modChstatBusy 7, .ro, false, []⟩, ⟨modChstatPending 7, .ro, false, []⟩, ⟨modChstatIdOk 7, .ro, false, []⟩, ⟨modChstatFollowed 7, .ro, false, []⟩, ⟨modChstatRamped 7, .ro, false, []⟩, ⟨modChstatLateMember 7, .w1c, false, []⟩, ⟨modChstatNotFollowed 7, .w1c, false, []⟩, ⟨modChstatFollowTmo 7, .w1c, false, []⟩, ⟨modChstatGrpErr 7, .ro, false, []⟩, ⟨modChstatTripCause 7, .ro, false, []⟩, ⟨modChstatCoolLeft 7, .ro, false, []⟩]⟩,
  ⟨0x054, 0x00000000, [⟨modTripsWindow 0, .ro, false, []⟩, ⟨modTripsTotal 0, .rc, false, []⟩]⟩,
  ⟨0x074, 0x00000000, [⟨modTripsWindow 1, .ro, false, []⟩, ⟨modTripsTotal 1, .rc, false, []⟩]⟩,
  ⟨0x094, 0x00000000, [⟨modTripsWindow 2, .ro, false, []⟩, ⟨modTripsTotal 2, .rc, false, []⟩]⟩,
  ⟨0x0B4, 0x00000000, [⟨modTripsWindow 3, .ro, false, []⟩, ⟨modTripsTotal 3, .rc, false, []⟩]⟩,
  ⟨0x0D4, 0x00000000, [⟨modTripsWindow 4, .ro, false, []⟩, ⟨modTripsTotal 4, .rc, false, []⟩]⟩,
  ⟨0x0F4, 0x00000000, [⟨modTripsWindow 5, .ro, false, []⟩, ⟨modTripsTotal 5, .rc, false, []⟩]⟩,
  ⟨0x114, 0x00000000, [⟨modTripsWindow 6, .ro, false, []⟩, ⟨modTripsTotal 6, .rc, false, []⟩]⟩,
  ⟨0x134, 0x00000000, [⟨modTripsWindow 7, .ro, false, []⟩, ⟨modTripsTotal 7, .rc, false, []⟩]⟩]
/-- Registers of the MOD page (14_drive_outputs.md). -/
def modRows2 : List RegRow := [
  ⟨0x058, 0x00000000, [⟨modClipClip 0, .rc, false, []⟩, ⟨modClipPclamp 0, .rc, false, []⟩]⟩,
  ⟨0x078, 0x00000000, [⟨modClipClip 1, .rc, false, []⟩, ⟨modClipPclamp 1, .rc, false, []⟩]⟩,
  ⟨0x098, 0x00000000, [⟨modClipClip 2, .rc, false, []⟩, ⟨modClipPclamp 2, .rc, false, []⟩]⟩,
  ⟨0x0B8, 0x00000000, [⟨modClipClip 3, .rc, false, []⟩, ⟨modClipPclamp 3, .rc, false, []⟩]⟩,
  ⟨0x0D8, 0x00000000, [⟨modClipClip 4, .rc, false, []⟩, ⟨modClipPclamp 4, .rc, false, []⟩]⟩,
  ⟨0x0F8, 0x00000000, [⟨modClipClip 5, .rc, false, []⟩, ⟨modClipPclamp 5, .rc, false, []⟩]⟩,
  ⟨0x118, 0x00000000, [⟨modClipClip 6, .rc, false, []⟩, ⟨modClipPclamp 6, .rc, false, []⟩]⟩,
  ⟨0x138, 0x00000000, [⟨modClipClip 7, .rc, false, []⟩, ⟨modClipPclamp 7, .rc, false, []⟩]⟩]
/-- All registers of the MOD page. -/
def modRows : List RegRow := modRows0 ++ modRows1 ++ modRows2
/-- Registers of the SNS page (14_drive_outputs.md). -/
def snsRows : List RegRow := [
  ⟨0x040, 0x00000000, [⟨snsSelChannel, .rw, false, []⟩]⟩,
  ⟨0x044, 0x00000000, [⟨snsIdstatFrames, .rc, false, []⟩, ⟨snsIdstatBad, .rc, false, []⟩, ⟨snsIdstatVersion, .ro, false, []⟩, ⟨snsIdstatResult, .ro, false, []⟩]⟩,
  ⟨0x048, 0x00000000, [⟨snsIdBytes 0, .ro, false, []⟩]⟩,
  ⟨0x04C, 0x00000000, [⟨snsIdBytes 1, .ro, false, []⟩]⟩,
  ⟨0x050, 0x00000000, [⟨snsIdBytes 2, .ro, false, []⟩]⟩,
  ⟨0x054, 0x00000000, [⟨snsIdBytes 3, .ro, false, []⟩]⟩,
  ⟨0x058, 0x00000000, [⟨snsIdBytes 4, .ro, false, []⟩]⟩,
  ⟨0x05C, 0x00000000, [⟨snsIdBytes 5, .ro, false, []⟩]⟩,
  ⟨0x060, 0x00000000, [⟨snsIdBytes 6, .ro, false, []⟩]⟩,
  ⟨0x064, 0x00000000, [⟨snsIdBytes 7, .ro, false, []⟩]⟩,
  ⟨0x068, 0x00000000, [⟨snsMeterIPeak, .rc, false, []⟩, ⟨snsMeterVPeak, .rc, false, []⟩]⟩,
  ⟨0x06C, 0x00000000, [⟨snsLnkLink1, .ro, false, []⟩, ⟨snsLnkLink0, .ro, false, []⟩]⟩,
  ⟨0x070, 0x00000000, [⟨snsLnkerrReplay, .rc, false, []⟩, ⟨snsLnkerrCrcerr, .rc, false, []⟩]⟩]
/-- Registers of the RAIL page (14_drive_outputs.md). -/
def railRows : List RegRow := [
  ⟨0x040, 0x00000000, [⟨railSelGroup, .rw, false, []⟩]⟩,
  ⟨0x044, 0x48100400, [⟨railCfgHeadroom, .rw, false, []⟩, ⟨railCfgDecay, .rw, false, []⟩, ⟨railCfgEnable, .rw, false, []⟩, ⟨railCfgLook, .rw, false, []⟩, ⟨railCfgFloor, .rw, false, []⟩]⟩,
  ⟨0x048, 0x00000000, [⟨railStatPeak, .rc, false, []⟩, ⟨railStatShortLook, .ro, false, []⟩, ⟨railStatNow, .ro, false, []⟩]⟩]
/-- Registers of the DRM page (15_dram.md). -/
def drmRows : List RegRow := [
  ⟨0x040, 0x00000400, [⟨drmCfgBlast, .rw, false, []⟩, ⟨drmCfgSpareEn, .rw, false, []⟩, ⟨drmCfgSpare, .rw, false, []⟩, ⟨drmCfgDensity, .rw, false, []⟩, ⟨drmCfgRanks, .rw, false, []⟩]⟩,
  ⟨0x044, 0x00000040, [⟨drmXorMask 0, .rw, false, []⟩]⟩,
  ⟨0x048, 0x00000080, [⟨drmXorMask 1, .rw, false, []⟩]⟩,
  ⟨0x04C, 0x00000100, [⟨drmXorMask 2, .rw, false, []⟩]⟩,
  ⟨0x050, 0x00000200, [⟨drmXorMask 3, .rw, false, []⟩]⟩,
  ⟨0x054, 0x00000400, [⟨drmXorMask 4, .rw, false, []⟩]⟩,
  ⟨0x058, 0x00000008, [⟨drmRefreshPostponeMax, .rw, false, []⟩]⟩,
  ⟨0x05C, 0x00001000, [⟨drmActThresh, .rw, true, []⟩]⟩,
  ⟨0x060, 0x00000000, [⟨drmActcntNr, .rc, false, []⟩, ⟨drmActcntThrottle, .rc, false, []⟩]⟩,
  ⟨0x064, 0x00000000, [⟨drmEccUncorrected, .rc, false, []⟩, ⟨drmEccCorrected, .rc, false, []⟩]⟩,
  ⟨0x068, 0x00000000, [⟨drmEcccapValid, .w1c, false, []⟩, ⟨drmEcccapUncorr, .ro, false, []⟩, ⟨drmEcccapCaParity, .ro, false, []⟩, ⟨drmEcccapDevice, .ro, false, []⟩, ⟨drmEcccapRank, .ro, false, []⟩]⟩,
  ⟨0x06C, 0x00000000, [⟨drmEccaddrBurst, .ro, false, []⟩]⟩,
  ⟨0x070, 0x00000000, [⟨drmRankstatState, .ro, false, []⟩]⟩,
  ⟨0x074, 0x00000400, [⟨drmMigRate, .rw, false, []⟩]⟩,
  ⟨0x078, 0x00000000, [⟨drmMigMarkActive, .ro, false, []⟩, ⟨drmMigMarkW, .ro, false, []⟩]⟩,
  ⟨0x07C, 0x00000000, [⟨drmStatCfgDrop, .w1c, false, []⟩, ⟨drmStatNoSpare, .ro, false, []⟩, ⟨drmStatHot, .ro, false, []⟩, ⟨drmStatMapErr, .ro, false, []⟩, ⟨drmStatTraining, .ro, false, []⟩, ⟨drmStatTrained, .ro, false, []⟩]⟩,
  ⟨0x080, 0x00000000, [⟨drmTrainStart, .w1t, false, []⟩]⟩,
  ⟨0x084, 0x00000000, [⟨drmPoisonMarked, .rc, false, []⟩, ⟨drmPoisonReads, .rc, false, []⟩]⟩,
  ⟨0x088, 0x00000000, [⟨drmRefstatMakeup, .rc, false, []⟩, ⟨drmRefstatForced, .rc, false, []⟩, ⟨drmRefstatPeak, .rc, false, []⟩]⟩]
/-- Registers of the FLT page (16_faults.md). -/
def fltRows : List RegRow := [
  ⟨0x040, 0x00000001, [⟨fltCtrlAutoAckCor, .rw, false, []⟩]⟩,
  ⟨0x044, 0x03E80010, [⟨fltEscCorWindowMs, .rw, false, []⟩, ⟨fltEscCorN, .rw, false, []⟩]⟩,
  ⟨0x048, 0x27100008, [⟨fltEscConWindowMs, .rw, false, []⟩, ⟨fltEscConN, .rw, false, []⟩]⟩,
  ⟨0x04C, 0x00000000, [⟨fltStatUnack, .ro, false, []⟩, ⟨fltStatOverflow, .w1c, false, []⟩, ⟨fltStatFatal, .ro, false, []⟩, ⟨fltStatErr, .ro, false, []⟩]⟩,
  ⟨0x050, 0x00000000, [⟨fltNextSeqSeq, .ro, false, []⟩]⟩,
  ⟨0x054, 0x00000000, [⟨fltOldestSeqSeq, .ro, false, []⟩]⟩,
  ⟨0x058, 0x00000000, [⟨fltRdSeqSeq, .rw, false, []⟩]⟩,
  ⟨0x060, 0x00000000, [⟨fltRecWord 0, .ro, false, []⟩]⟩,
  ⟨0x064, 0x00000000, [⟨fltRecWord 1, .ro, false, []⟩]⟩,
  ⟨0x068, 0x00000000, [⟨fltRecWord 2, .ro, false, []⟩]⟩,
  ⟨0x06C, 0x00000000, [⟨fltRecWord 3, .ro, false, []⟩]⟩,
  ⟨0x070, 0x00000000, [⟨fltRecWord 4, .ro, false, []⟩]⟩,
  ⟨0x074, 0x00000000, [⟨fltRecWord 5, .ro, false, []⟩]⟩,
  ⟨0x078, 0x00000000, [⟨fltRecWord 6, .ro, false, []⟩]⟩,
  ⟨0x07C, 0x00000000, [⟨fltRecWord 7, .ro, false, []⟩]⟩,
  ⟨0x080, 0x00000000, [⟨fltAckSeq, .wo, false, []⟩]⟩,
  ⟨0x084, 0x00000000, [⟨fltAckAllAll, .w1t, false, []⟩]⟩,
  ⟨0x088, 0x00000000, [⟨fltCountsLost, .rc, false, []⟩, ⟨fltCountsRepeat, .rc, false, []⟩, ⟨fltCountsCounted, .rc, false, []⟩]⟩]
/-- Registers of the SIL page (16_faults.md). -/
def silRows : List RegRow := [
  ⟨0x040, 0x00000000, [⟨silStatOwnTime, .ro, false, []⟩, ⟨silStatFatal, .ro, false, []⟩, ⟨silStatThermWarn, .ro, false, []⟩, ⟨silStatWdogExpired, .ro, false, []⟩, ⟨silStatSafe, .ro, false, []⟩]⟩,
  ⟨0x044, 0x00000000, [⟨silSafeAutoTherm, .rw, false, []⟩, ⟨silSafeRelease, .w1t, true, []⟩, ⟨silSafeForce, .w1t, true, []⟩]⟩,
  ⟨0x048, 0x00000064, [⟨silWdogEnable, .rw, true, []⟩, ⟨silWdogTimeoutMs, .rw, true, []⟩]⟩,
  ⟨0x04C, 0x00000000, [⟨silKickKick, .w1t, false, []⟩]⟩,
  ⟨0x050, 0x00007D6E, [⟨silThermShut, .ro, false, []⟩, ⟨silThermWarn, .rw, false, []⟩]⟩,
  ⟨0x054, 0x80808080, [⟨silTemp0Temp, .ro, false, []⟩]⟩,
  ⟨0x058, 0x80808080, [⟨silTemp1Temp, .ro, false, []⟩]⟩,
  ⟨0x05C, 0x00000000, [⟨silEventsWdog, .rc, false, []⟩, ⟨silEventsSafe, .rc, false, []⟩, ⟨silEventsFences, .rc, false, []⟩, ⟨silEventsTherm, .rc, false, []⟩]⟩]
/-- Registers of the HNG page (17_redundancy.md). -/
def hngRows : List RegRow := [
  ⟨0x040, 0x00008000, [⟨hngCfgPriority, .sh, true, []⟩, ⟨hngCfgWireEn, .sh, false, []⟩, ⟨hngCfgPorts, .sh, false, []⟩]⟩,
  ⟨0x044, 0x00000000, [⟨hngPartnerEid, .sh, true, []⟩]⟩,
  ⟨0x048, 0x00080040, [⟨hngTermRenew, .sh, true, []⟩, ⟨hngTermTerm, .sh, true, []⟩]⟩,
  ⟨0x04C, 0x00000000, [⟨hngStatDutyConflict, .ro, false, []⟩, ⟨hngStatResync, .ro, false, []⟩, ⟨hngStatSuspect, .ro, false, []⟩, ⟨hngStatCfgDiff, .ro, false, []⟩, ⟨hngStatWireUp, .ro, false, []⟩, ⟨hngStatSenior, .ro, false, []⟩, ⟨hngStatPartnerUp, .ro, false, []⟩, ⟨hngStatPaired, .ro, false, []⟩]⟩,
  ⟨0x050, 0x00000000, [⟨hngEligLease 0, .sh, true, []⟩]⟩,
  ⟨0x054, 0x00000000, [⟨hngEligLease 1, .sh, true, []⟩]⟩,
  ⟨0x058, 0x00000000, [⟨hngEligLease 2, .sh, true, []⟩]⟩,
  ⟨0x05C, 0x00000000, [⟨hngHeldLease 0, .ro, false, []⟩]⟩,
  ⟨0x060, 0x00000000, [⟨hngHeldLease 1, .ro, false, []⟩]⟩,
  ⟨0x064, 0x00000000, [⟨hngHeldLease 2, .ro, false, []⟩]⟩,
  ⟨0x068, 0x00000000, [⟨hngExpiryCasement, .ro, false, []⟩]⟩,
  ⟨0x06C, 0x00000000, [⟨hngPExpiryCasement, .ro, false, []⟩]⟩,
  ⟨0x070, 0x00000000, [⟨hngRenewRenew, .w1t, false, []⟩]⟩,
  ⟨0x074, 0x00000000, [⟨hngOffOff, .ro, false, []⟩]⟩,
  ⟨0x078, 0x00000008, [⟨hngDigestMismatch, .rc, false, []⟩, ⟨hngDigestLate, .rc, false, []⟩, ⟨hngDigestLimit, .rw, false, []⟩]⟩,
  ⟨0x07C, 0x00000000, [⟨hngDgcapValid, .w1c, false, []⟩, ⟨hngDgcapGroup, .ro, false, []⟩, ⟨hngDgcapObject, .ro, false, []⟩, ⟨hngDgcapCasement, .ro, false, []⟩]⟩,
  ⟨0x080, 0x00000000, [⟨hngSeccntTagFail, .rc, false, []⟩, ⟨hngSeccntReplay, .rc, false, []⟩, ⟨hngSeccntRateDrop, .rc, false, []⟩, ⟨hngSeccntIncompat, .rc, false, []⟩, ⟨hngSeccntWireBad, .rc, false, []⟩]⟩,
  ⟨0x084, 0x004007D0, [⟨hngRateBurst, .rw, false, []⟩, ⟨hngRatePerS, .rw, false, []⟩]⟩,
  ⟨0x088, 0x00000000, [⟨hngEventsTakeovers, .rc, false, []⟩, ⟨hngEventsReleases, .rc, false, []⟩, ⟨hngEventsClaimsLost, .rc, false, []⟩]⟩]
/-- Registers of the I2C page (18_management_ports.md). -/
def i2cRows : List RegRow := [
  ⟨0x040, 0x02000000, [⟨i2cCfgAttnEn, .rw, false, []⟩, ⟨i2cCfgCtlSpeed, .rw, false, []⟩, ⟨i2cCfgHostAddr, .rw, false, []⟩, ⟨i2cCfgCauseMask, .rw, false, []⟩]⟩,
  ⟨0x044, 0x00000000, [⟨i2cStatStuck, .ro, false, []⟩, ⟨i2cStatAttnBusy, .ro, false, []⟩, ⟨i2cStatAttnPend, .ro, false, []⟩, ⟨i2cStatAddrErr, .ro, false, []⟩, ⟨i2cStatAddr, .ro, false, []⟩]⟩,
  ⟨0x048, 0x00000000, [⟨i2cErrProtocol, .rc, false, []⟩, ⟨i2cErrTimeout, .rc, false, []⟩, ⟨i2cErrAttnFail, .rc, false, []⟩, ⟨i2cErrPartial, .rc, false, []⟩]⟩]
/-- Registers of the PCI page (18_management_ports.md). -/
def pciRows : List RegRow := [
  ⟨0x040, 0x00000000, [⟨pciStatWidth, .ro, false, []⟩, ⟨pciStatSpeed, .ro, false, []⟩, ⟨pciStatLink, .ro, false, []⟩]⟩,
  ⟨0x044, 0x00000000, [⟨pciVecSelRegion, .rw, false, []⟩, ⟨pciVecSelPage, .rw, false, []⟩]⟩,
  ⟨0x048, 0x00000020, [⟨pciVecMapNone, .rw, false, []⟩, ⟨pciVecMapVector, .rw, false, []⟩]⟩,
  ⟨0x04C, 0x00000000, [⟨pciPinmaskVec, .rw, false, []⟩]⟩,
  ⟨0x050, 0x00000000, [⟨pciRearmVec, .w1t, false, []⟩]⟩,
  ⟨0x054, 0x00000000, [⟨pciOutBaseLoAddr, .rw, false, []⟩]⟩,
  ⟨0x058, 0x00000000, [⟨pciOutBaseHiAddr, .rw, false, []⟩]⟩,
  ⟨0x05C, 0x00000000, [⟨pciErrRead, .rc, false, []⟩, ⟨pciErrWrite, .rc, false, []⟩, ⟨pciErrNarrow, .rc, false, []⟩]⟩]
/-- Registers of the QSP page (18_management_ports.md). -/
def qspRows : List RegRow := [
  ⟨0x040, 0x00000000, [⟨qspCmdOp, .w1t, true, []⟩]⟩,
  ⟨0x044, 0x00000000, [⟨qspAddrAddr, .rw, false, []⟩]⟩,
  ⟨0x048, 0x00000000, [⟨qspStatBusyrd, .rc, false, []⟩, ⟨qspStatCfgJob, .ro, false, []⟩, ⟨qspStatRefused, .w1c, false, []⟩, ⟨qspStatBusy, .ro, false, []⟩]⟩]
/-- Registers of the SEC page (18_management_ports.md). -/
def secRows : List RegRow := [
  ⟨0x040, 0x00000000, [⟨secStatKeys, .ro, false, []⟩, ⟨secStatImage, .ro, false, []⟩]⟩,
  ⟨0x044, 0x00000000, [⟨secImgSeqSeq, .ro, false, []⟩]⟩]
/-- Registers of the SYS page (19_bringup.md). -/
def sysRows : List RegRow := [
  ⟨0x040, 0x00000000, [⟨sysCtrlReboot, .w1t, true, []⟩]⟩,
  ⟨0x044, 0x00000000, [⟨sysBootNocfg, .ro, false, []⟩, ⟨sysBootResultB, .ro, false, []⟩, ⟨sysBootResultA, .ro, false, []⟩, ⟨sysBootStage, .ro, false, []⟩]⟩,
  ⟨0x048, 0x00000000, [⟨sysStrapsRaw, .ro, false, []⟩]⟩,
  ⟨0x04C, 0x00000000, [⟨sysCensusStepping, .ro, false, []⟩, ⟨sysCensusVariant, .ro, false, []⟩, ⟨sysCensusDrvFailed, .ro, false, []⟩, ⟨sysCensusEngFailed, .ro, false, []⟩, ⟨sysCensusDrvPresent, .ro, false, []⟩, ⟨sysCensusEngPresent, .ro, false, []⟩]⟩,
  ⟨0x050, 0x00000000, [⟨sysEuiLoEui, .ro, false, []⟩]⟩,
  ⟨0x054, 0x00000000, [⟨sysEuiHiEui, .ro, false, []⟩]⟩]

/-- The block-specific registers of a block. -/
def rowsOf : Block → List RegRow
  | .mtx => mtxRows
  | .mgt => mgtRows
  | .cas => casRows
  | .xpt => xptRows
  | .sht => shtRows
  | .pen => penRows
  | .fen => fenRows
  | .lnk => lnkRows
  | .bqd => bqdRows
  | .fir => firRows
  | .dly => dlyRows
  | .rcx => rcxRows
  | .str => strRows
  | .slu => sluRows
  | .mac => macRows
  | .phc => phcRows
  | .ref => refRows
  | .dpl => dplRows
  | .aes => aesRows
  | .tdm => tdmRows
  | .sdi => sdiRows
  | .dec => decRows
  | .mod => modRows
  | .sns => snsRows
  | .rail => railRows
  | .drm => drmRows
  | .flt => fltRows
  | .sil => silRows
  | .hng => hngRows
  | .i2c => i2cRows
  | .pci => pciRows
  | .qsp => qspRows
  | .sec => secRows
  | .sys => sysRows

end Reg

end Sys2Proof.Machine
end

