-- ==== Sys2Proof/Machine/State.lean ====
section
/-! DEFINITION. The machine's state as plain data: the registers, memories and every other piece of state that the spec
gives the block, the queue of waiting commands, the reasons a step can stop, and the state right after reset. -/

namespace Sys2Proof.Machine

/-- Register key of the stores: page code, word of the page, object index for registers that show one object at a time. -/
abbrev Regs := Sparse Word

/-- What a page's header holds outside its registers: the enable states of R33, the FREEZE capture of R32, the key of
R38 and the commit requests of R35 to R37. -/
structure Hdr where
  /-- ACTIVE, BUSY and PENDING of R33. -/
  active : Bool := false
  busy : Bool := false
  pending : Bool := false
  /-- A soft reset waits for the shutdown to end (R33, R34). -/
  resetting : Bool := false
  /-- Registers as captured when FREEZE was set, with the fields already read under R32. -/
  frozen : Option (List (Nat × Word)) := none
  consumed : List (Nat × Nat) := []
  /-- Key holder, ports whose last write to the page was CODE 0xA5, and casements counted since the opening. -/
  keyHolder : Option Port := none
  keyArmed : List Port := []
  keyCount : Nat := 0
  /-- Instant of the opening, of the last renewal or of the stop of generation, whichever is latest, from which whole
  milliseconds count while casements are stopped (R38). -/
  keyAt : Nat := 0
  /-- A commit requested before the next cutoff, and the snapshot taken at a cutoff with its shadow values. -/
  commitReq : Bool := false
  snapshot : Option (List (Nat × Word)) := none
  groupSnap : Bool := false
  /-- SH fields written under IMMEDIATE whose tied action waits for the next boundary (R398): the active words before the
  first such write. -/
  immediate : Option (List (Nat × Word)) := none
deriving DecidableEq, Repr

/-- Time. One unit is 1/3675 of a Sill cycle of 31.25 ns, so that a hub cycle of 1.25 ns (147), a Sill cycle (3,675)
and both casement lengths (14,700,000 and 16,000,000) are whole numbers. -/
structure Clock where
  now : Nat := 0
  /-- Instant of the last casement boundary. -/
  boundaryAt : Nat := 0
  /-- Casement generation runs (R51, R100). -/
  running : Bool := false
  /-- Index of the current casement, 64 bits (R49). -/
  index : Nat := 0
deriving DecidableEq, Repr

/-- The re-index sequence (R51). -/
inductive Reindex
  | idle | fading | stopped
deriving DecidableEq, Repr

/-- Casement state beside the CAS registers. -/
structure CasSt where
  reindex : Reindex := .idle
  /-- A trigger met the sequence and is acted on when it ends (R51). -/
  again : Bool := false
  /-- A trigger waits for the next boundary. -/
  trigger : Bool := false
  /-- A committed rate to be checked (R402), and whether its re-admission is awaited. -/
  newRate : Option Nat := none
  awaiting : Bool := false
  /-- The group commit: requested before the next cutoff, and snapshotted (R36). -/
  groupReq : Bool := false
  groupSnap : Bool := false
  /-- Sinks fade for a stop of generation (cause 5). -/
  stopping : Bool := false
  /-- The casement now running has had unfinished work (R64). -/
  unfinished : Bool := false
  /-- The work window of the casement is open, and its work deadline has passed (R52). -/
  windowOpen : Bool := false
  deadlinePassed : Bool := false
  /-- Time units by which DP0 shortens the casement that runs, to remove the alignment error (R50). -/
  slew : Int := 0
  /-- The alignment error exceeded its limit when it was last judged (R50). -/
  beyond : Bool := false
  /-- Items aborted by a poisoned word or a bad partial sum, with their slots, to be unfinished at the deadline (R120, R125). -/
  aborted : List (Nat × Unfinished) := []
  /-- What this casement has brought so far: items complete, as die, slot and item; Lintel transfers that have arrived at a
  die; read windows that have arrived, by strip; and runs of hooked Reed programs complete, as die, core and slot (R52). -/
  done : List (Nat × Nat × Nat) := []
  /-- Engines whose reserve a recompute has used in the casement, as die and engine (R55, R116). -/
  recomputed : List (Nat × Nat) := []
  arrived : List (Nat × Lintel) := []
  fetched : List Nat := []
  hooks : List (Nat × Nat × Nat) := []
  /-- Sinks whose path refills after generation has restarted, with the samples still needed; causes 4 and 5 clear when
  none is left (R51, R91). -/
  refills : List (SinkId × Nat) := []
deriving DecidableEq, Repr

/-- States of a ROUTE job (R58). -/
inductive JobState
  | compiling | admitted | staged | refused | stale | committed
deriving DecidableEq, Repr

/-- A ROUTE job: its state, the compiled configuration, the DETAIL of its refusal or of its highest load (R57, R59), the
loads per budget, the slot whose COMMIT awaits an answer, and the image address it was given. -/
structure Job where
  num : Nat
  state : JobState
  cfg : Cfg := {}
  detail : Nat := 0
  loads : List (Nat × Nat × Nat) := []
  waiting : List (Fin 4) := []
  addr : Nat := 0
  /-- Committed as soon as it is ADMITTED: a reload of a saved configuration (R346); and the copy that it comes from, with
  its sequence number. -/
  auto : Bool := false
  copy : Option (Bool × Word) := none
  /-- Another job has committed since this one started (R58). -/
  overtaken : Bool := false
  /-- The configuration in force when the job started, against which it is compiled (R58). -/
  base : Option Cfg := none
deriving DecidableEq, Repr

/-- A sink's route transition span (R83): the samples of refill wait, the samples of crossfade, and the samples run. -/
structure Span where
  sink : SinkId
  wait : Nat
  fade : Nat
  done : Nat := 0
  /-- The sink's Shutter was closed when the span began: it switches without a crossfade (R85). -/
  closed : Bool := false
deriving DecidableEq, Repr

/-- Routing state: the configuration in force, the jobs, the job being staged and the spans of a transition. -/
structure RouteSt where
  cfg : Cfg := {}
  /-- A configuration is in force (R76, R373). -/
  inForce : Bool := false
  jobs : List Job := []
  nextJob : Nat := 1
  /-- The job whose configuration is in force, 0 for none, and the pages that the staged job has written. -/
  forceJob : Nat := 0
  stagedPages : List Page := []
  spans : List Span := []
  /-- The configuration that the transition replaces, for its old routes (R83). -/
  old : Cfg := {}
  /-- DETAIL of the refusal to re-admit the configuration in force (R61). -/
  lostDetail : Option Nat := none
  /-- Lost logical slots, as die × 8 + slot, whose items are not run (R61). -/
  lostSlots : List Nat := []
  /-- A re-admission waits for the management cores (R61). -/
  readmitWaits : Bool := false
deriving DecidableEq, Repr

/-- A control-stage ramp or retrace (R96 to R98). The base ramp runs from `g0` to `g1` over `len` samples with `law`;
sample `t` of this run carries the base ramp's sample `first + t`, or `first - t` where `down`. It began at gain `start`,
heads to `target` over `total` samples, and has run `done`. -/
structure Ramp where
  g0 : Word
  g1 : Word
  law : Nat
  len : Nat
  first : Nat := 0
  down : Bool := false
  total : Nat
  start : Word
  target : Word
  done : Nat := 0
deriving DecidableEq, Repr

/-- Protect-stage states (SHT.RD3.PSTATE). -/
inductive PState
  | clear | fading | faded | restoring
deriving DecidableEq, Repr

/-- A Shutter (R94): its settings in force, the control stage and the protect stage. Factors and gains are Q3.29. -/
structure Shutter where
  present : Bool := false
  cfg : ShutCfg := {}
  /-- Control gain in force while no ramp runs. -/
  gain : Word := 0
  ramp : Option Ramp := none
  /-- Held for refill (R99). -/
  held : Bool := false
  /-- Held by its input, an AES3 receiver that is not LOCKED or a decimator that settles (R257, R272). -/
  inHold : Bool := false
  causes : BitVec 8 := 0
  pstate : PState := .clear
  /-- Factor at the start of the running fade, its length and the samples run; for a restore, its length. -/
  pfrom : Word := 0x20000000
  plen : Nat := 0
  pdone : Nat := 0
  /-- Casements that the path has completed since unfinished work on it (R63). -/
  goodRuns : Nat := 0
  /-- The protect stage stays at 0 until the input opens: a receive stream that is WAITING (R202). -/
  waits : Bool := false
  /-- A sink without a feed, which stays closed (R71); a sink that a channel stop or a refused registration keeps closed
  (R16, R292). -/
  unfed : Bool := false
  forced : Bool := false
  /-- Gains of the samples of the casement that the stages have run through already, for changes within it (R98, R108); of the
  Shutters at the end of the last casement, all of that casement's. -/
  past : List Word := []
  /-- A fade for cause 3 that starts some samples on, with its length (R106). -/
  starts : Option (Nat × Nat) := none
  /-- A removed crosspoint or sink: dropped at the first boundary after it has closed (R76, R85). -/
  dropping : Bool := false
deriving DecidableEq, Repr

/-- A bundle on the hub's bundle table (R104, R105). -/
structure BundleSt where
  /-- An event was reported, to take effect at the next boundary; for unfinished work the sinks fade there too, and
  otherwise at the boundary after, on their own block of the casement (R104). -/
  reported : Bool := false
  sinksToo : Bool := false
  /-- The same for an event reported after the bundle cutoff, for the boundary after the next. -/
  late : Bool := false
  sinksFade : Bool := false
  faded : Bool := false
  /-- The strips restore; the sinks follow one boundary later on their own blocks; samples left of the restore. -/
  restoring : Bool := false
  sinksRestore : Bool := false
  left : Nat := 0
deriving DecidableEq, Repr

/-- Health of an input (R100, R105): healthy casements in a row, whether this casement brought an event, and whether the
input is down until it returns. -/
structure InputHealth where
  healthy : Nat := 2
  event : Bool := false
  down : Bool := false
  /-- Missing samples (cause 0) and a validation failure (cause 7), each until the input has been healthy for 2 casements. -/
  missing : Bool := false
  invalid : Bool := false
deriving DecidableEq, Repr

/-- Shutters and mutes. -/
structure ShtSt where
  shutters : Sparse Shutter := []
  /-- The Shutters as they stood at the end of the last casement (R109). -/
  ended : Sparse Shutter := []
  /-- Transitions made since the last boundary, by the bits of RCX.EVTSEL.EDGES (R175). -/
  edges : List (ShutterId × Nat) := []
  bundles : Sparse BundleSt := []
  inputs : Sparse InputHealth := []
  /-- The staging queue (R108), oldest first, and the entries snapshotted at a cutoff. -/
  queue : List (ShutterId × ShutCfg) := []
  snapshot : List (ShutterId × ShutCfg) := []
  /-- Shutters pushed since the last snapshot, whose entries stay queued. -/
  late : List ShutterId := []
  /-- MUTE_N as recognised, and whole casements for which it has been high with MUTE_ALL 0 (R106). -/
  mutePin : Bool := false
  cause3 : Bool := false
  muteClear : Nat := 0
  /-- Sinks that failed in this casement, which fade from its end (R62). -/
  failed : List SinkId := []
deriving DecidableEq, Repr

/-- A delay line's applied delay and its changes (R152 to R157). Targets count 1/256 sample, applied delays 2^-16. -/
inductive DelayMode
  | still | gliding | jumping | waitFill | heldTarget
deriving DecidableEq, Repr

/-- What a strip in force holds beside its registers: coefficient banks, FIR banks and delay. -/
structure StripSt where
  /-- Active coefficient bank, swap mark, mark in the snapshot, swap due at its sample, PREP running or waiting for the
  swap (R135 to R137). -/
  bank : Bool := false
  marked : Bool := false
  snapped : Bool := false
  due : Bool := false
  prep : Bool := false
  prepAfter : Bool := false
  /-- BQD accesses held until PREP ends: record, and the words to write or none for a read (R137). -/
  heldAcc : List (Nat × Option (List Word)) := []
  firBank : Bool := false
  firMarked : Bool := false
  firSnapped : Bool := false
  firDue : Bool := false
  firPrep : Bool := false
  firPrepAfter : Bool := false
  /-- Sample of this casement at which the block, or the chain, has swapped (R135). -/
  swapped : Option Nat := none
  firSwapped : Option Nat := none
  /-- Base of the interpolator, the base before its last change, and the samples since then, 16 for none running (R149). -/
  base : Nat := 0
  baseOld : Nat := 0
  baseAge : Nat := 16
  /-- The last good sample read from the DRAM ring (R157). -/
  lastRead : Word := 0
  /-- Samples of the casement that a poison count does not count, up to the last poisoned read (R157). -/
  poisonSkip : Nat := 0
  /-- Delay target in force, in 1/256 sample, and the applied delay, in 2^-16 sample. -/
  target : Nat := 0
  applied : Nat := 0
  mode : DelayMode := .still
  /-- The running glide or jump: delay before it, its length in samples, samples run, lengthened by R154. -/
  start : Nat := 0
  len : Nat := 0
  done : Nat := 0
  slowed : Bool := false
  /-- A target held during a jump (R156): target and duration. -/
  heldTarget : Option (Nat × Nat) := none
  /-- Samples received since the strip was created, for the fill rule of R156. -/
  filled : Nat := 0
  /-- Cause 6 held, the samples received since the last poisoned read, and the largest integer delay over that span
  (R157). -/
  poison : Bool := false
  poisonRun : Nat := 0
  poisonD : Nat := 0
  /-- Refill hold (R91): held, new samples still needed, and the delay that they cover (R156). -/
  held : Bool := false
  refill : Nat := 0
  refillD : Nat := 0
deriving DecidableEq, Repr

/-- Physical engine states of PEN.MAP. -/
inductive EngineState
  | active | spare | standingIn | retired
deriving DecidableEq, Repr

/-- Where a work item's run stands: its write-back buffer, the accumulator in 2^-62, the first stage that saturated (0
SAMPLE, 1 STATE, 2 ACC), limiter clamps and gains, and whether it met a poisoned word. For the check unit (R113): the checks
made so far, whether all have agreed, and an error of the datapath in one of them, as the number of the check, its stage
(0 MUL, 1 ACC, 2 STORE, 3 saturation comparator) and the amount. -/
structure ItemRun where
  buffer : List (Nat × Byte) := []
  acc : Int := 0
  sat : Option Nat := none
  clips : Nat := 0
  gains : List (Nat × Int) := []
  poisoned : Bool := false
  checks : Nat := 0
  agree : Bool := true
  flaw : Option (Nat × Nat × Int) := none
deriving DecidableEq, Repr

/-- A path engine (R110, R114): its state, whether it is suspect, the item it runs with its 8 KiB write-back buffer, and
whether a recompute of it runs. -/
structure Engine where
  state : EngineState := .active
  suspect : Bool := false
  item : Option Nat := none
  slot : Nat := 0
  ops : List EngineOp := []
  buffer : List (Nat × Byte) := []
  /-- Operations that were complete when Fen was last written under the item, and the run up to there (R134). -/
  past : Nat := 0
  ran : ItemRun := {}
  /-- The item was unfinished at the work deadline: its results are discarded (R63, R114). -/
  late : Bool := false
  recompute : Bool := false
  /-- PEN.MMCAP's word for the mismatch that the recompute answers (R115). -/
  mismatch : Word := 0
  /-- Mismatches still to be injected (PEN.INJECT). -/
  inject : Nat := 0
  testAsked : Bool := false
deriving DecidableEq, Repr

/-- An entry of a die's target table for a strip in force: the strip's kind and number, the entry's number, and its SET,
SAMPLES, FRACTION and DURATION (R150). -/
structure SteerEntry where
  kind : Nat
  num : Nat
  entry : Nat
  set : Bool
  samples : Nat
  fraction : Nat
  duration : Nat
deriving DecidableEq, Repr

/-- One Lintel link (R122 to R124): halves of its lanes that are usable, replay and training in progress. -/
structure Link where
  /-- Trained at the boot census, and the 12-bit sequence number of the next flit (R122). -/
  trained : Bool := false
  seq : BitVec 12 := 0
  narrow : Bool := false
  down : Bool := false
  training : Bool := false
  replaying : Bool := false
  /-- Lanes with a lasting fault. -/
  lanes : Word := 0
deriving DecidableEq, Repr

/-- An engine die's engines, Fen poison and links. -/
structure DieSt where
  engines : List Engine := [{}, {}, {}, {}, {}, {}, {}, {}, { state := .spare }]
  /-- Slot the spare stands in for. -/
  spareFor : Option Nat := none
  /-- Interrupted item that the spare reruns (R117). -/
  rerun : Option (Nat × List EngineOp) := none
  /-- Byte offsets of poisoned 64-bit Fen words (R120). -/
  poisoned : List Nat := []
  retiredBanks : BitVec 24 := 0
  links : List Link := [{}, {}]
  /-- Steering (R151): an offered bank to take at the next boundary, late or not, and the SEQ seen. -/
  steerTake : Option (Word × Bool) := none
  /-- The entries that the bank held at that cutoff (R156). -/
  steerSet : List SteerEntry := []
  steerCopying : Bool := false
  steerBank : Bool := false
  /-- Writes to the inactive bank held during the copy: address and byte. -/
  steerHeld : List (Nat × Byte) := []
deriving DecidableEq, Repr

/-- A removed crosspoint that still closes (R76): its entry, the place of its Shutter beside the entry's, and its SOURCE, BUS and
FROM_BUS as word 0 holds them. -/
structure Closing where
  entry : Nat
  place : Nat
  shape : Nat
deriving DecidableEq, Repr

/-- Crosspoint table state beside its registers and contents. -/
structure XptSt where
  active : Bool := false
  copying : Bool := false
  dirty : Bool := false
  /-- Writes to the inactive bank held during the follow copy (R79): address, word, and mask of the bits written. -/
  held : List (Nat × Word × Word) := []
  closing : List Closing := []
  /-- A swap waits for the copy to end while casements are not running (R79). -/
  swapWaits : Bool := false
deriving DecidableEq, Repr

/-- Matrix state (R41 to R44): the master last granted at each target, outstanding and held requests, and the order in
which the last presented requests were granted, with the hub cycle of each grant, counted from the first of them. -/
structure MatrixSt where
  last : Sparse Nat := []
  outstanding : List MatrixReq := []
  held : List MatrixReq := []
  order : List Nat := []
  cycles : List Nat := []
deriving DecidableEq, Repr

/-- A fault record (R321). `unit` is the resource whose test the record asked for (R323). -/
structure Record where
  seq : Nat
  casement : Nat
  epoch : Nat
  ns : Nat
  sec : Nat
  region : Nat
  page : Nat
  code : Nat
  cls : Nat
  orig : Nat
  esc : Nat
  stest : Nat
  detail : Word
  ack : Bool := false
  lostBefore : Bool := false
  unit : Nat := 0
deriving DecidableEq, Repr

/-- A test asked for by FAULT TEST (R331). -/
structure TestJob where
  job : Nat
  region : Nat
  page : Nat
  unit : Nat
  result : Nat := 1
deriving DecidableEq, Repr

/-- The fault collector and its ring (R315 to R324). -/
structure FltSt where
  /-- Records held, oldest first, at most 256. -/
  ring : List Record := []
  /-- Faults whose record is not yet written, at most 64 (R316). -/
  queue : List Record := []
  nextSeq : Nat := 0
  /-- Faults were dropped since the last record written. -/
  lost : Bool := false
  /-- SEQ plus 1 of the last fault of each source, by REGION × 256 + PAGE, 0 for none (PG_FLTCAP.MORE of R31). -/
  lastOf : Sparse Nat := []
  /-- Times of the faults of a source and class, newest first; key source × 4 + class (R317). -/
  history : Sparse (List Nat) := []
  jobs : List TestJob := []
  nextJob : Nat := 1
deriving DecidableEq, Repr

/-- The Sill island (R326 to R330). -/
structure SilSt where
  /-- VDD_SILL is up; POR_N is low. -/
  powered : Bool := true
  por : Bool := false
  fatal : Bool := false
  safe : Bool := false
  ownTime : Bool := false
  wdogRunning : Bool := false
  thermWarn : Bool := false
  /-- Latch of the last boundary: index, epoch and instant (R321). -/
  index : Nat := 0
  epoch : Nat := 0
  latchAt : Nat := 0
  /-- Casement length family of the last rate: 7,350 or 8,000 casements per second. -/
  cr : Nat := 8000
deriving DecidableEq, Repr

/-- The PTP hardware clock (R222 to R227): seconds (48 bits), nanoseconds and 2^-32 fractions, the held increment
fraction and the increment in force, the step epoch and an armed permit. -/
structure PhcSt where
  sec : Nat := 0
  ns : Nat := 0
  frac : Nat := 0
  heldFrac : Nat := 0x40000000
  incr : Nat := 0x140000000
  epoch : Nat := 0
  permit : Bool := false
  /-- Instant until which a step is in progress (R224). -/
  stepUntil : Nat := 0
deriving DecidableEq, Repr

/-- Power and boot (R365 to R377). -/
structure BootSt where
  /-- Engine dies and drive die that the package holds, and those usable: present and not failed (R371). -/
  engHeld : BitVec 6 := 0x3F
  drvHeld : Bool := true
  engPresent : BitVec 6 := 0x3F
  drvPresent : Bool := true
  /-- The straps have been latched since POR_N last rose (R368), and the reference-state balls are outputs. -/
  strapped : Bool := false
  /-- A rail out of range holds the dies in reset before the supply monitor is armed (R366). -/
  railOut : Bool := false
  /-- The census has been taken since the last hub reset. -/
  census : Bool := false
  /-- The ROUTE job that boot compiles from the saved configuration, its MODE FREE, its CLOCK_WAIT and whether that has
  passed (R373). -/
  job : Option Nat := none
  clockWait : Nat := 30
  clockWaited : Bool := false
  /-- Step of the orderly shutdown that runs, 1 to 6, its job, and the slot that asked for it (R375). -/
  shutdown : Nat := 0
  shutdownJob : Nat := 0
  shutdownSlot : Nat := 0
deriving DecidableEq, Repr

/-- The management cores (R25, R45 to R47): whether they run and serve the mailbox. -/
structure MgmtSt where
  running : Bool := false
deriving DecidableEq, Repr

/-- How the node drives a group of output balls (R23, R325, R388) (DESIGN CHOICE, notes/assumptions/147.md). -/
inductive Drive
  | undriven | highZ | low | live
deriving DecidableEq, Repr

/-- Output balls outside the drive channels: RAIL_DMD; AESOUT, WCKOUT, PPSOUT, TENOUT, SDCLK and the TDM outputs; and
what the reference-state balls are held at in the fatal state (REFSTAT and REFNUM, R249). -/
structure Pins where
  rail : Drive := .highZ
  clocked : Drive := .low
  refHeld : Option (Nat × Nat) := none
deriving DecidableEq, Repr

/-- The response to the last access that a command made: whether it completed normally, and the data read (R4, R27). -/
structure Rsp where
  ok : Bool := true
  data : Word := 0
deriving DecidableEq, Repr

/-- Codes with which a Reed run stops (R164). -/
inductive ReedStop
  | overrun | deadline | illegal | address | fenRange | memory | irqOver
deriving DecidableEq, Repr

/-- One level of a running REP (R173): first address of the body, its length in instructions, the instructions left in
this iteration and the iterations left with it. -/
structure RepFrame where
  start : Nat
  len : Nat
  left : Nat
  count : Nat
deriving DecidableEq, Repr

/-- A Fen transfer that a channel holds (R177): the Fen byte offset, the local word address, the words, and for an XWR the
local words as they stood at issue. -/
structure ReedXfer where
  write : Bool
  fen : Nat
  loc : Nat
  len : Nat
  words : List Word := []
deriving DecidableEq, Repr

/-- What a stalled core waits for: a busy channel's next transfer, or the channels of a WAITX. -/
inductive ReedStall
  | xfer (ch : Nat) (x : ReedXfer)
  | waitx (mask : Nat)
deriving DecidableEq, Repr

/-- What takes effect after two delay slots (R172). -/
inductive ReedJump
  | to (pc : Nat)
  | end_
  | reti
deriving DecidableEq, Repr

/-- What a Reed core runs. -/
inductive ReedMode
  | idle | program | ending | handler
deriving DecidableEq, Repr

/-- A Reed core (R158 to R184). -/
structure ReedCore where
  mode : ReedMode := .idle
  slot : Nat := 0
  /-- A handler interrupted a run of the slot. -/
  interrupted : Bool := false
  stall : Option ReedStall := none
  /-- The instant at which the stall, or the port mover's copy, began (R163). -/
  stalledAt : Nat := 0
  pc : Nat := 0
  x : List Word := List.replicate 16 0
  ac : List (BitVec 80) := List.replicate 4 0
  p : List (BitVec 16) := List.replicate 8 0
  m : List (BitVec 16) := List.replicate 8 0
  b : List (BitVec 16) := List.replicate 8 0
  l : List (BitVec 16) := List.replicate 8 0
  st : Word := 0
  lr : Word := 0
  cyc : Nat := 0
  ipc : Word := 0
  ist : Word := 0
  imask : BitVec 3 := 0
  ipend : BitVec 3 := 0
  evthit : BitVec 4 := 0
  /-- Loads that the next instruction still does not see (R171). -/
  loads : List (Nat × Word) := []
  /-- A control transfer and the delay slots left before it takes effect. -/
  jump : Option (Nat × ReedJump) := none
  reps : List RepFrame := []
  chans : List (List ReedXfer) := [[], [], [], []]
  /-- Local words written by an XRD that no WAITX has confirmed: channel, first word and count (R177). -/
  unconfirmed : List (Nat × Nat × Nat) := []
  /-- Handler cycles counted since the boundary; interrupts barred until the last run has ended (R176). -/
  irqCycles : Nat := 0
  irqBarred : Bool := false
  /-- The handler serves MBX (R176). -/
  servesMbx : Bool := false
  /-- The casement's last run has ended; slots already entered in this casement. -/
  runsOver : Bool := true
  entered : Nat := 0
  holdoff : Nat := 0
  retired : Bool := false
  stopped : Byte := 0
  /-- Complete runs in a row per slot since a stop, for the ramp back of R63. -/
  stest : Bool := false
  /-- Slots restarted since the boundary, which are entered from the next casement (R165). -/
  restarted : Byte := 0
  poisonedData : List Nat := []
  poisonedProg : List Nat := []
deriving DecidableEq, Repr

/-- One slot of a Sluice ring (R197 to R201): its timestamp, the SEQ and port place of each packet that wrote to it with the samples that it
wrote as a bit mask, whether copies of it arrived, were INVALID in its last casement or were EARLY, whether a word of it
is uncorrectable, and whether it was judged missing. -/
structure Slot where
  t : Nat
  wrote : List (Nat × Nat) := []
  arrived : Bool := false
  invalid : Bool := false
  early : Bool := false
  poisoned : Bool := false
  missing : Bool := false
deriving DecidableEq, Repr

/-- States of a receive stream (SLU.STATE). -/
inductive RxState
  | waiting | healthy | underrun | overrun | invalid | incompatible
deriving DecidableEq, Repr

/-- A receive stream's Sluice state. -/
structure RxStream where
  state : RxState := .waiting
  slots : List Slot := []
  /-- Consecutive slots judged HEALTHY. -/
  healthy : Nat := 0
  /-- The ring has no place since a Sluice bank was retired (R203). -/
  unplaced : Bool := false
  /-- Version of the last accepted Ranori packet, and the paths that filled a slot in this casement and in the last. -/
  version : Nat := 0
  pathsNow : Nat := 0
  pathsLast : Nat := 0
deriving DecidableEq, Repr

/-- A transmit stream: next SEQ and the version ranges of its subscribers (R190, R194). -/
structure TxStream where
  seq : Nat := 0
  version : Nat := 2
  subscribers : List (Nat × Nat × Nat) := []
deriving DecidableEq, Repr

/-- A packet that the stream engine sends (R188 to R194): its stream, SEQ, timestamp, the ports as a bit mask, the IP fields,
the UDP ports, the UDP payload, and the source address and UDP checksum of the copy on each port. -/
structure SentPacket where
  stream : Nat
  seq : Nat
  stamp : Nat
  ports : Nat
  ipv6 : Bool := false
  dscp : Nat := 46
  ttl : Nat := 32
  /-- DF of IPv4; IPv6 carries none. -/
  df : Bool := true
  dst : Nat := 0
  udpSrc : Nat := 0
  udpDst : Nat := 0
  payload : List Byte := []
  copies : List (Nat × Nat × Nat) := []
deriving DecidableEq, Repr

/-- Streams and the Sluice. -/
structure StreamSt where
  rx : Sparse RxStream := []
  tx : Sparse TxStream := []
  /-- Addresses of poisoned Sluice words, and retired banks (R203). -/
  poisoned : List Nat := []
  retired : Byte := 0
  /-- The rings' DMA of the current casement: beats at the working SRAM, and bursts on DRAM channels 0 and 1 (R217). -/
  ringUse : Nat × Nat × Nat := (0, 0, 0)
  /-- Packets of the current casement, in the order in which they are handed over (R193). -/
  sent : List SentPacket := []
  /-- Blocks of interop transmit channels since the last 1 ms packet (R192), by sink channel. -/
  held : Sparse (Nat × List Word) := []
deriving DecidableEq, Repr

/-- Sample blocks at the node's edge (R52): the inputs of this casement by source, from 4,096 on those of old instances, with
the last good sample of each; the blocks that the sinks play out in this casement, before their Shutters, with the last good
sample of each, by sink key; and the first of the free values set apart for them. -/
structure IoSt where
  inputs : Sparse (List Word) := []
  good : Sparse Word := []
  outs : Sparse (List Word) := []
  lastOut : Sparse Word := []
  salt : Nat := 0
deriving DecidableEq, Repr

/-- A received frame on its way to the ring: whether its FCS was bad, and its time at the balls in 1/256 ns with the step epoch
(R216, R228). -/
structure RxHeld where
  frame : RxFrame
  fcsErr : Bool
  time : Nat
  epoch : Nat
deriving DecidableEq, Repr

/-- A MAC beside its registers (R210 to R221): the descriptor being sent, whether a pause is in force and in how many
quanta, the 64-bit counters by number, retirement, and a loopback test that waits for the port. -/
structure MacSt where
  sending : Option Nat := none
  /-- Lengths of the audio-class frames that the stream engine has handed over and that have not ended; the first is on the wire
  where `audioOn` is set (R210). -/
  audio : List Nat := []
  audioOn : Bool := false
  /-- The transmit buffer of the control and bulk queue: the ring frame that is whole in it and waits for the wire, with its bytes,
  which stay until the frame has ended (R213). -/
  waits : Option Nat := none
  ringBuf : List Byte := []
  /-- The frame being received holds an uncorrectable buffer word (R221). -/
  rxBad : Bool := false
  /-- Ring transfers beyond the reservation of the casement: a descriptor to take, and received frames (R217). -/
  txHeld : Bool := false
  rxHeld : List RxHeld := []
  paused : Bool := false
  retired : Bool := false
  training : Bool := false
  link : Bool := false
  counters : Sparse Nat := []
  testWaits : Bool := false
  /-- The link was up when the serdes began to retrain (R207). -/
  relink : Bool := false
  /-- The frame being sent: the time of its delimiter in 1/256 ns with the step epoch, and an uncorrectable word in it. -/
  sendTime : Nat := 0
  sendEpoch : Nat := 0
  sendBad : Bool := false
  /-- Instant at which the pause in force began, and whether it begins only with the end of the frame on the wire (R218). -/
  pauseAt : Nat := 0
  pauseWaits : Bool := false
  /-- Frame transmission stopped for good and the serdes in electrical idle (R23, R325). -/
  idle : Bool := false
deriving DecidableEq, Repr

/-- One PTP port's configuration and state, with IEEE 1588-2019 state numbering (R232). -/
structure PtpPort where
  enable : Bool := false
  ipv6 : Bool := false
  unicast : Bool := false
  masterOnly : Bool := false
  slaveOnly : Bool := false
  intervals : Word := 0x03000001
  state : Nat := 3
  /-- The best Announce of the port's sender in force, until its receipt times out (R231). -/
  best : Option Announce := none
deriving DecidableEq, Repr

/-- The PTP service (R231, R232). -/
structure PtpSt where
  profile : Nat := 0
  domain : Nat := 0
  policy : Nat := 1
  ports : List PtpPort := [{}, {}, {}, {}]
  clockState : Nat := 0
  offset : Int := 0
  delay : Int := 0
  freq : Int := 0
  gm : Nat := 0
  parent : Nat := 0
  clockClass : Nat := 248
  accuracy : Nat := 0xFE
  steps : Nat := 0
  priority1 : Nat := 128
  priority2 : Nat := 128
  gmCapable : Bool := false
  /-- Consecutive offsets below the lock threshold, and whether the clock has ever locked since boot or re-index. -/
  good : Nat := 0
  lockedOnce : Bool := false
  pdelayDropped : Nat := 0
deriving DecidableEq, Repr

/-- States of a reference slot (R235). -/
inductive SlotState
  | disabled | noSignal | validating | waitRestore | qualified | degraded | disqualified | qlLow | votedOut
deriving DecidableEq, Repr

/-- A reference slot (R233 to R239): its state, the QL received with it, the ABS measurements of the last 16 gates in
0.01 ppb (newest first), the REL and DRIFT of the last gate, seconds left in WAIT_RESTORE, seconds of
agreement while VOTED_OUT, and whether its phase is ignored after a missing edge (R237). -/
structure RefSlot where
  state : SlotState := .disabled
  received : Option (BitVec 16) := none
  abs : List Int := []
  rel : Int := 0
  drift : Int := 0
  wtrLeft : Nat := 0
  agreed : Nat := 0
  phaseIgnored : Bool := false
deriving DecidableEq, Repr

/-- States of a DPLL (R241). -/
inductive DpllState
  | freeRun | acquiring | locked | holdover | switching | fault
deriving DecidableEq, Repr

/-- A DPLL (R240 to R247): state, bandwidth code in force, the slewed step in ns and the instant of its start, seconds locked without a
break, and the frequency in 0.01 ppb. -/
structure Dpll where
  state : DpllState := .freeRun
  bw : Nat := 0
  slewLeft : Int := 0
  slewAt : Nat := 0
  lockedSecs : Nat := 0
  /-- Frequencies of the last seconds that it was locked, newest first (R246). -/
  hist : List Int := []
  freq : Int := 0
  /-- The loop ignores its input's phase and holds its frequency (R237). -/
  held : Bool := false
  /-- Holdover expired: FREE_RUN is reported and the held frequency kept (R247). -/
  keepsHeld : Bool := false
deriving DecidableEq, Repr

/-- The reference selector and the DPLLs. -/
structure RefSt where
  slots : List RefSlot := List.replicate 16 {}
  active : Option Nat := none
  lastActive : Nat := 0
  manualHeld : Bool := false
  /-- Pairs in a standing dispute, lower number first (R239). -/
  disputes : List (Nat × Nat) := []
  dplls : List Dpll := [{}, {}, {}, {}]
  /-- Class announced before holdover (R250). -/
  lastClass : Nat := 248
  /-- REF has been enabled since the hub was reset (R249). -/
  started : Bool := false
deriving DecidableEq, Repr

/-- An AES3 port beside its registers (R257 to R263): the last sample of each subframe, the frames that its
buffer holds, runs of invalid frames, a V_MUTE cause held on each subframe with the casements clear of it, the ratio at lock,
the last captured blocks, the latched capture words, and the channel status being sent. -/
structure AesSt where
  lastA : Word := 0
  lastB : Word := 0
  block : List (Word × Word) := []
  vRunA : Nat := 0
  vRunB : Nat := 0
  vHeldA : Bool := false
  vHeldB : Bool := false
  vClearA : Nat := 0
  vClearB : Nat := 0
  vSeenA : Bool := false
  vSeenB : Bool := false
  lockRatio : Word := 0
  /-- The last ratio measured, and when (R258). -/
  lastRatio : Word := 0
  lastAt : Nat := 0
  capture : List (List Byte) := [[], [], [], []]
  capLatch : List Word := [0, 0, 0, 0, 0]
  /-- LOCKED was reached: the strips open at the next boundary. -/
  opens : Bool := false
  txCs : List Word := [0, 0, 0, 0, 0, 0]
  /-- The transmitter completes its block before it stops (R263). -/
  txStops : Bool := false
deriving DecidableEq, Repr

/-- A TDM slot's fade (R267): direction of the slot, rising or falling factor, first frame, length in frames, and whether its
factors are those of the fade-in or of the fade-out, forward or retraced. -/
structure SlotFade where
  output : Bool
  slot : Nat
  up : Bool
  start : Nat
  len : Nat
  inCurve : Bool := up
deriving DecidableEq, Repr

/-- The masks and fades of a TDM port as they were before a frame, and whether the port ran (R266 to R268). -/
structure TdmWas where
  frame : Nat
  runs : Bool
  rx : Word
  tx : Word
  fades : List SlotFade
deriving DecidableEq, Repr

/-- A TDM port beside its registers: slot fades, what they and the masks were before their last changes, oldest first, and the
committed masks that wait for a frame start. -/
structure TdmSt where
  fades : List SlotFade := []
  was : List TdmWas := []
  waiting : Bool := false
  /-- A framing error since the last boundary. -/
  framing : Bool := false
deriving DecidableEq, Repr

/-- A decimator beside its registers (R272): a change waits for its fade to end, and settling has ended; the samples that the
fade has run at the last boundary, and the sample of the casement in progress at which the banks swapped. -/
structure DecSt where
  changing : Bool := false
  opens : Bool := false
  ran : Nat := 0
  late : Nat := 0
  /-- Of a swap in the casement that has just been gathered: the samples that its fade had run before that casement, and the
  sample of the swap. -/
  cut : Option (Nat × Nat) := none
deriving DecidableEq, Repr

/-- Local audio ports. -/
structure LocalSt where
  aes : Sparse AesSt := []
  tdm : Sparse TdmSt := []
  dec : Sparse DecSt := []
deriving DecidableEq, Repr

/-- Pin states of a drive channel (R274). -/
inductive ModPins
  | highZ | zero | half | mod | undriven
deriving DecidableEq, Repr

/-- Steps of a stop (R292): waits for the boundary, the sink fades, and the pulses or the ramp end. -/
inductive StopPhase
  | none | asked | fading | ending
deriving DecidableEq, Repr

/-- A drive channel beside its registers. -/
structure DrvCh where
  pins : ModPins := .highZ
  /-- Waits: 500 ms after a follow failure (R291), releases alone (R289, R294), cool-down left. -/
  retry : Bool := false
  alone : Bool := false
  cooling : Bool := false
  /-- Instants of the channel's trips, newest first (R294). -/
  trips : List Nat := []
  /-- Last valid frame and whether the frame before it was the same (R284). -/
  frame : List Byte := []
  stepRelease : Bool := false
  dualInput : Bool := false
  notFree : Bool := false
  /-- Carrier in force: CMODE, PHASE and PERIOD as clamped (R277), and a committed one that waits. -/
  cmode : Bool := false
  phase : Nat := 0
  period : Nat := 700
  carrierWaits : Bool := false
  stop : StopPhase := .none
  /-- The page shuts down: the channel goes to OFF (R292). -/
  toOff : Bool := false
  /-- A trip ended a FENCING: the channel goes to STANDBY at the end of the cool-down (R299). -/
  toStandby : Bool := false
  /-- The loop is closed (R281), and marks are sent (R286). -/
  loop : Bool := false
  marks : Bool := false
  /-- The stop in progress began in RUN (R288). -/
  fromRun : Bool := false
  /-- Instant at which the cool-down began (R294). -/
  coolAt : Nat := 0
  /-- Samples of the fade of a FENCING channel that have played (R296). -/
  fadeAt : Nat := 0
  /-- The loop (R281): Σe, and the interpolated samples of the last casement. -/
  integ : Int := 0
  samples : List Int := []
  /-- The carrier (R275, R290, R292): timing steps of the next casement before its first period, periods since the release or the end of the
  stop began, and the high times of MODA and MODB in each period of the last casement. -/
  lead : Nat := 0
  periods : Nat := 0
  widths : List (Nat × Nat) := []
deriving DecidableEq, Repr

/-- A CARRIER PLAN job (R279): first channel, count, state and results. -/
structure PlanJob where
  num : Nat
  first : Nat
  count : Nat
  state : Nat := 1
  smallest : Nat := 0
  short : Nat := 0
deriving DecidableEq, Repr

/-- The drive die. -/
structure DriveSt where
  ch : Sparse DrvCh := []
  /-- Instant at which the first member of a release group met the conditions (R289), plus 1; 0 for none. -/
  firstMet : Sparse Nat := []
  protectedFreqs : List Nat := []
  jobs : List PlanJob := []
  nextJob : Nat := 1
  /-- Demand of each rail group, in 1/9,408 of a step of 1/4,096 (R297). -/
  rails : Sparse Nat := []
  idLatch : List Word := [0, 0, 0, 0, 0, 0, 0, 0]
  /-- Casements in a row without a block from the hub (R299). -/
  missing : Nat := 0
deriving DecidableEq, Repr

/-- A row of a bank's activate table (R306). -/
structure ActRow where
  row : Nat
  count : Nat
deriving DecidableEq, Repr

/-- The DRAM controller (R300 to R314). -/
structure DramSt where
  /-- Refreshes postponed, per rank. -/
  postponed : List Nat := [0, 0, 0, 0]
  /-- Activate tables, by rank × 32 + bank. -/
  tables : Sparse (List ActRow) := []
  /-- Neighbour refreshes queued per channel, and activates held for them: rank, bank, row. -/
  queue0 : List (Nat × Nat × Nat) := []
  queue1 : List (Nat × Nat × Nat) := []
  heldActs : List (Nat × Nat × Nat) := []
  /-- The rows that the last neighbour refresh activated and precharged: rank, bank, row (R306). -/
  refreshed : List (Nat × Nat × Nat) := []
  /-- Physical ranks in the order of their windows, fixed by training and changed by migration (R301, R311). -/
  windows : List Nat := []
  migrating : Option (Nat × Nat) := none
  /-- Poisoned bursts, by address ÷ 64 (R307). -/
  poisoned : List Nat := []
  /-- Ranks in self-refresh (R302) or power-down. -/
  selfRefresh : Bool := false
  replaying : Option Nat := none
  /-- Rereads asked for: rank, burst, device (R307). -/
  rereads : List (Nat × Nat × Nat) := []
  zqCount : Nat := 0
  dqsCount : Nat := 0
deriving DecidableEq, Repr

/-- A hinge claim (R341). -/
structure Claim where
  casement : Nat
  leases : BitVec 66
  priority : Nat
  eui : BitVec 64
deriving DecidableEq, Repr

/-- The digests of one casement (R334). -/
structure Digests where
  casement : Nat
  streams : List Word
  groups : List Word
deriving DecidableEq, Repr

/-- The hinge block beside its registers (R332 to R343). -/
structure HngSt where
  partnerHeld : BitVec 66 := 0
  partnerYields : BitVec 66 := 0
  /-- Leases that the partner has released, and P_EXPIRY brought forward by a RELEASE (R340). -/
  released : BitVec 66 := 0
  shortened : Bool := false
  /-- Casement of the last valid pair message, and of the last valid wire frame. -/
  lastMsg : Option Nat := none
  lastWire : Option Nat := none
  /-- The partner's term is on record. -/
  known : Bool := false
  /-- Renewal offered and not yet acknowledged; renewal to acknowledge in the next pair message. -/
  offered : Option Nat := none
  ackDue : Option Nat := none
  /-- Leases being fenced and leases yielded (R338, R340). -/
  fencing : BitVec 66 := 0
  /-- The leases that the partner's configuration marks, by the last boundary (R337). -/
  partnerMarks : BitVec 66 := 0
  /-- The casement in which lease 64 or 65 was last fenced (R340). -/
  dutyFenced : Nat := 0
  yielded : BitVec 66 := 0
  /-- The own and the received claim of the current casement (R341). -/
  mine : Option Claim := none
  theirs : Option Claim := none
  newOff : Option Word := none
  /-- Own digests of the last casements, newest first. -/
  digests : List Digests := []
  /-- Those of the casement that runs, for the pair message of the next boundary (R334). -/
  coming : Option Digests := none
  /-- Consecutive differing casements, by object (stream, or 256 + group), and consecutive matching ones. -/
  differing : Sparse Nat := []
  matching : Nat := 0
  withheld : List Nat := []
  cfgSeq : Word := 0
  /-- Casements left to the next DUTY, per duty lease 64 and 65. -/
  duty64 : Nat := 0
  duty65 : Nat := 0
  dutySent : List (Nat × Nat) := []
  /-- The last pair message and the last wire frame sent, and a RELEASE sent. -/
  sent : Option PairMsg := none
  wireSent : Option Word := none
  /-- The node was a pair member before its partner. -/
  memberSince : Option Nat := none
deriving DecidableEq, Repr

/-- A Ranori control session (R347 to R349): its peer, version, state, the highest sequence number accepted with the window
of 64 below it, and the token bucket in 1/32,000,000 of a
message. -/
structure Session where
  peer : Nat
  version : Nat := 0
  state : Nat := 1
  highest : Nat := 0
  seen : List Nat := []
  tokens : Nat := 0
  filledAt : Nat := 0
deriving DecidableEq, Repr

/-- A CONFIG job (R346): its state, the copy that it writes, if it writes one, the snapshot that ADOPT gave it, and the ROUTE
job that loads the copy chosen. -/
structure ConfigJob where
  num : Nat
  state : Nat := 1
  writes : Option Bool := none
  adopted : Option (List Byte) := none
  route : Option Nat := none
deriving DecidableEq, Repr

/-- Ranori control, the directory and the saved configuration. -/
structure ConfigSt where
  sessions : List Session := []
  /-- Keys held in SEC, by NODE EID, 0xFFFFFF for the domain (R349). -/
  keys : List (Nat × List Byte) := []
  /-- Directory records: EID and the node that registered it (R16, R17). -/
  directory : List (Nat × Nat) := []
  /-- EIDs of the node's own streams that the directory refused (R16). -/
  refused : List Nat := []
  /-- The node's NODE EID (R15), and whether the configuration in force is copy B's. -/
  eid : Nat := 0
  inForceB : Bool := false
  jobs : List ConfigJob := []
  nextJob : Nat := 1
  /-- A CONFIG job owns the flash, or waits for a command to end. -/
  owner : Option Nat := none
  waiting : Option Nat := none
deriving DecidableEq, Repr

/-- The I2C port (R350 to R358): the straps' address bits in force, the node address served, the two pointers, the window
fields, and the attention controller. -/
structure I2cSt where
  straps : Option (BitVec 6) := none
  nodeServed : Bool := false
  ptrNode : Byte := 0
  ptrSill : Byte := 0
  bank : Word := 0
  rseq : Word := 0
  ackseq : Word := 0
  memaddr : BitVec 40 := 0
  /-- Bytes that the last read transaction returned, and whether the last transaction's address was acknowledged. -/
  read : List Byte := []
  acked : Bool := false
  /-- Attention (R357, R358): the pending causes, failed attempts, sending given up until a new cause arises, the last message
  put on the bus and how many have been acknowledged; IRQ_N is low; SDA was still low after 9 pulses (R356). -/
  pend : BitVec 4 := 0
  attempts : Nat := 0
  given : Bool := false
  message : List Byte := []
  messages : Nat := 0
  irqLow : Bool := false
  stuck : Bool := false
deriving DecidableEq, Repr

/-- Completions of a PCIe memory request (R361). -/
inductive Completion
  | none | success | poisoned | abort
deriving DecidableEq, Repr

/-- The PCIe endpoint (R359 to R362): the conditions for which a message has been sent, pending bits of masked vectors,
the MSI-X table by byte, messages sent, and the last completion with its data. -/
structure PciSt where
  told : Word := 0
  pba : Word := 0
  table : Sparse Byte := []
  sent : List Nat := []
  completion : Completion := .none
  data : List Byte := []
  /-- The last outbound write: its host address and bytes (R361). -/
  outbound : Option (Nat × List Byte) := none
deriving DecidableEq, Repr

/-- Operations of QSP.CMD (R364). -/
inductive FlashOp
  | erase4k | erase64k | program
deriving DecidableEq, Repr

/-- The flash: its bytes, the command that runs with its first byte and the bytes to program, and the ranges that an
interrupted command has left undefined, by first byte and length (R376). -/
structure FlashSt where
  bytes : Sparse Byte := []
  running : Option (FlashOp × Nat × List Byte) := none
  broken : List (Nat × Nat) := []
deriving DecidableEq, Repr

/-- Everything the block holds beside the queue of waiting commands. -/
structure Node where
  regs : Regs := []
  active : Regs := []
  hdrs : Sparse Hdr := []
  mem : Sparse Byte := []
  clk : Clock := {}
  cas : CasSt := {}
  rt : RouteSt := {}
  sht : ShtSt := {}
  strips : Sparse StripSt := []
  dies : Sparse DieSt := []
  xpt : XptSt := {}
  mtx : MatrixSt := {}
  flt : FltSt := {}
  sil : SilSt := {}
  phc : PhcSt := {}
  boot : BootSt := {}
  mgmt : MgmtSt := {}
  pins : Pins := {}
  rsp : Rsp := {}
  free : Nat := 0
  reeds : Sparse ReedCore := []
  reedMem : Sparse Word := []
  reedProg : Sparse Word := []
  str : StreamSt := {}
  macs : Sparse MacSt := []
  ptp : PtpSt := {}
  refs : RefSt := {}
  loc : LocalSt := {}
  drive : DriveSt := {}
  dram : DramSt := {}
  hng : HngSt := {}
  cfg : ConfigSt := {}
  i2c : I2cSt := {}
  pci : PciSt := {}
  flash : FlashSt := {}
  io : IoSt := {}
deriving DecidableEq, Repr

/-- The block's state: what it holds, and the commands that wait, first in, first out. -/
structure State where
  node : Node := {}
  pending : List Instr := []
deriving DecidableEq, Repr

/-- Reasons for a step to stop with a fault. No meaning of this model stops so: every command has an effect that the spec
gives, and an access that the spec refuses completes with an error response, which is a next state. -/
inductive Fault
deriving DecidableEq, Repr

/-- Reasons for a step to refuse a command. -/
inductive Refusal
  /-- The command has no meaning in this model; raised by its arm of `exec` alone. Safe: nothing is claimed of it. -/
  | notModelled (mnemonic : String)
deriving DecidableEq, Repr

/-- The machine right after power-on reset: POR_N has just risen, every register at its reset value, memories with
nothing listed, and no command waiting (DESIGN CHOICE, notes/assumptions/5.md) (DESIGN CHOICE, notes/assumptions/9.md)
(DESIGN CHOICE, notes/assumptions/13.md). -/
def State.reset : State := {}

end Sys2Proof.Machine
end

