-- ==== Sys2Proof/Machine/Ops.lean ====
section
/-! DEFINITION. The named operations over the state that every meaning is built from: register and field reads and
writes, saturating counts, interrupt bits, memory, time and the mailbox response. -/

namespace Sys2Proof.Machine

open Sys2Proof (Word Byte Sparse Page Block Die Port Src)

/-- The memory is in its canonical form: addresses rise strictly, and no byte is listed that reads 0, as an unlisted byte
does (DESIGN CHOICE, notes/assumptions/10.md). -/
def Memory.wf (m : Sparse Byte) : Bool := Sparse.wf (fun _ => 0) m

/-- Number of a block, in the order of `Block`. -/
def blockNum : Block → Nat
  | .sys => 0 | .cas => 1 | .mtx => 2 | .mgt => 3 | .flt => 4 | .sil => 5 | .sec => 6 | .i2c => 7 | .pci => 8
  | .qsp => 9 | .drm => 10 | .hng => 11 | .phc => 12 | .ref => 13 | .str => 14 | .slu => 15 | .xpt => 16 | .sht => 17
  | .dpl => 18 | .mac => 19 | .tdm => 20 | .aes => 21 | .pen => 22 | .bqd => 23 | .fir => 24 | .dly => 25 | .fen => 26
  | .lnk => 27 | .rcx => 28 | .mod => 29 | .sns => 30 | .rail => 31 | .sdi => 32 | .dec => 33

/-- All blocks, by number. -/
def blocks : List Block :=
  [.sys, .cas, .mtx, .mgt, .flt, .sil, .sec, .i2c, .pci, .qsp, .drm, .hng, .phc, .ref, .str, .slu, .xpt, .sht,
   .dpl, .mac, .tdm, .aes, .pen, .bqd, .fir, .dly, .fen, .lnk, .rcx, .mod, .sns, .rail, .sdi, .dec]

/-- How many pages a block has (R29). -/
def blockPages : Block → Nat
  | .dpl => 4 | .mac => 4 | .tdm => 8 | .aes => 16
  | .pen => 6 | .bqd => 6 | .fir => 6 | .dly => 6 | .fen => 6 | .lnk => 6 | .rcx => 24 | .mod => 24
  | _ => 1

/-- PG_CAP.NIRQ of a block (R31): the PG_IRQ bits that its chapter lists. -/
def blockIrqs : Block → Nat
  | .cas => 6 | .xpt => 4 | .sht => 4 | .pen => 4 | .fen => 2 | .lnk => 3 | .bqd => 4 | .fir => 4 | .dly => 4 | .rcx => 5
  | .str => 2 | .slu => 4 | .mac => 6 | .phc => 4 | .ref => 6 | .dpl => 3 | .aes => 4 | .tdm => 3 | .sdi => 1 | .dec => 2
  | .mod => 8 | .sns => 2 | .rail => 1 | .drm => 5 | .flt => 4 | .sil => 4 | .hng => 4 | .i2c => 3 | .pci => 1 | .qsp => 1
  | .sys => 2 | .mgt => 4 | .mtx => 0 | .sec => 0

/-- PG_ID.TYPE of a block (R29). -/
def blockType : Block → Nat
  | .sys => 0x001 | .cas => 0x002 | .mtx => 0x003 | .mgt => 0x004 | .flt => 0x005 | .sil => 0x006 | .sec => 0x007
  | .i2c => 0x008 | .pci => 0x009 | .qsp => 0x00A | .drm => 0x00B | .hng => 0x00C | .phc => 0x00D | .ref => 0x00E
  | .str => 0x00F | .slu => 0x010 | .xpt => 0x011 | .sht => 0x012 | .dpl => 0x013 | .mac => 0x014 | .tdm => 0x015
  | .aes => 0x016 | .pen => 0x020 | .bqd => 0x021 | .fir => 0x022 | .dly => 0x023 | .fen => 0x024 | .lnk => 0x025
  | .rcx => 0x026 | .mod => 0x030 | .sns => 0x031 | .rail => 0x032 | .sdi => 0x033 | .dec => 0x034

/-- Where a block's pages lie. -/
inductive Region
  | hub | engine | drive
deriving DecidableEq, Repr

/-- The region of a block's pages (R26, R29). -/
def blockRegion : Block → Region
  | .pen | .bqd | .fir | .dly | .fen | .lnk | .rcx => .engine
  | .mod | .sns | .rail | .sdi | .dec => .drive
  | _ => .hub

/-- Index of a block's first page in its region (R29). -/
def blockIndex : Block → Nat
  | .sys => 0x00 | .cas => 0x01 | .mtx => 0x02 | .mgt => 0x03 | .flt => 0x04 | .sil => 0x05 | .sec => 0x06 | .i2c => 0x07
  | .pci => 0x08 | .qsp => 0x09 | .drm => 0x0A | .hng => 0x0B | .phc => 0x0C | .ref => 0x0D | .str => 0x0E | .slu => 0x0F
  | .xpt => 0x10 | .sht => 0x11 | .dpl => 0x14 | .mac => 0x18 | .tdm => 0x20 | .aes => 0x30
  | .pen => 0x00 | .bqd => 0x01 | .fir => 0x02 | .dly => 0x03 | .fen => 0x04 | .lnk => 0x05 | .rcx => 0x08
  | .mod => 0x00 | .sns => 0x18 | .rail => 0x19 | .sdi => 0x1A | .dec => 0x1B

/-- The page number within its region, and the engine die for an engine page. -/
def pageDie (p : Page) : Nat :=
  match p.block with
  | .rcx => p.inst / 4
  | _ => p.inst

/-- The page index of a page in its region (R29). -/
def pageIndex (p : Page) : Nat :=
  match blockRegion p.block with
  | .engine => blockIndex p.block + (if p.block = .rcx then p.inst % 4 else 0)
  | _ => blockIndex p.block + p.inst

/-- REGION of a page in fault records: 0 hub, 1 to 6 engine dies, 7 drive die (R321). -/
def pageRegion (p : Page) : Nat :=
  match blockRegion p.block with
  | .hub => 0
  | .engine => 1 + pageDie p
  | .drive => 7

/-- The page names a page of the map. -/
def pageValid (p : Page) : Bool := decide (p.inst < blockPages p.block)

/-- The page at an index of a region (R29), with the die for an engine region. -/
def pageAt (r : Region) (die idx : Nat) : Option Page :=
  match blocks.find? (fun b => decide (blockRegion b = r) &&
      (match r with
       | .engine => if b = .rcx then decide (8 ≤ idx ∧ idx < 12) else decide (idx = blockIndex b)
       | _ => decide (blockIndex b ≤ idx ∧ idx < blockIndex b + blockPages b))) with
  | none => none
  | some b =>
    some ⟨b, match r with
      | .engine => if b = .rcx then 4 * die + (idx - 8) else die
      | _ => idx - blockIndex b⟩

/-- The page that REGION and PAGE name (R321). -/
def regionPage (region idx : Nat) : Option Page :=
  if region = 0 then pageAt .hub 0 idx
  else if region ≤ 6 then pageAt .engine (region - 1) idx
  else if region = 7 then pageAt .drive 0 idx
  else none

/-- Address of a page (R26, R29). -/
def pageAddr (p : Page) : Nat :=
  pageIndex p * 0x1000 + (match blockRegion p.block with
    | .hub => 0x40000000
    | .engine => 0x50C00000 + pageDie p * 0x01000000
    | .drive => 0x60000000)

/-- PG_ID.INSTANCE (R29). -/
def pageInstance (p : Page) : Nat :=
  match blockRegion p.block with
  | .engine => 0x10 * pageDie p + (if p.block = .rcx then p.inst % 4 else 0)
  | _ => p.inst

/-- Code of a page in the stores. -/
def pageCode (p : Page) : Nat := blockNum p.block * 32 + p.inst

/-- Key of a register in the stores: page, word of the page, and object index for a banked register. -/
def regKey (p : Page) (off idx : Nat) : Nat := (pageCode p * 1024 + off / 4 % 1024) * 65536 + idx % 65536

/-- The page, offset and object index that a key names. -/
def keyPage (k : Nat) : Page :=
  let pc := k / 67108864
  ⟨blocks.getD (pc / 32) .sys, pc % 32⟩
def keyOff (k : Nat) : Nat := k / 65536 % 1024 * 4
def keyIdx (k : Nat) : Nat := k % 65536

/-- Reset value of a register (the headings of the register tables; R31 for the header). -/
def resetWord (p : Page) (off idx : Nat) : Word :=
  if off = 0x024 then 0xFFFFFFFF
  else if off < 0x040 then 0
  else
    match p.block with
    | .dpl => if off = 0x040 then (if p.inst = 0 then 0x00030F0C else if p.inst = 1 then 0x02000C06 else 0x00010C0C)
        else table p off
    | .dec => if off = 0x044 then BitVec.ofNat 32 (idx % 64 * 256) else table p off
    | .mac => if off = 0x048 then (Config.macAddr p.inst).setWidth 32
        else if off = 0x04C then (Config.macAddr p.inst >>> 32).setWidth 32
        else table p off
    | .sys => if off = 0x050 then Config.eui.setWidth 32
        else if off = 0x054 then (Config.eui >>> 32).setWidth 32
        else table p off
    | .sil => if off = 0x054 ∨ off = 0x058 then 0x80808080 else table p off
    | _ => table p off
where
  table (p : Page) (off : Nat) : Word :=
    match (Reg.rowsOf p.block).find? (fun r => decide (r.off = off)) with
    | some r => BitVec.ofNat 32 r.reset
    | none => 0

/-- What an unlisted register key reads as. -/
def resetKey (k : Nat) : Word := resetWord (keyPage k) (keyOff k) (keyIdx k)

/-- The value of a field within a word. -/
def wordField (w : Word) (f : Field) : Nat := w.toNat / 2 ^ f.lo % 2 ^ (f.hi + 1 - f.lo)

/-- The word with a field replaced; the value is cut to the field's width. -/
def setWordField (w : Word) (f : Field) (v : Nat) : Word :=
  let m : Word := (BitVec.ofNat 32 (2 ^ (f.hi + 1 - f.lo) - 1)) <<< f.lo
  (w &&& ~~~m) ||| ((BitVec.ofNat 32 v <<< f.lo) &&& m)

namespace Node

/-- Read a register of the store. -/
def reg (n : Node) (p : Page) (off : Nat) (idx : Nat := 0) : Word := Sparse.get resetKey n.regs (regKey p off idx)

/-- Write a register of the store. -/
def setReg (n : Node) (p : Page) (off : Nat) (v : Word) (idx : Nat := 0) : Node :=
  { n with regs := Sparse.set resetKey n.regs (regKey p off idx) v }

/-- Read a field. -/
def fld (n : Node) (p : Page) (f : Field) (idx : Nat := 0) : Nat := wordField (n.reg p f.off idx) f

/-- Write a field. -/
def setFld (n : Node) (p : Page) (f : Field) (v : Nat) (idx : Nat := 0) : Node :=
  n.setReg p f.off (setWordField (n.reg p f.off idx) f v) idx

/-- A one-bit field as a truth value. -/
def flag (n : Node) (p : Page) (f : Field) (idx : Nat := 0) : Bool := decide (n.fld p f idx ≠ 0)

/-- Read a field of the active copy of a shadowed register (R35). -/
def act (n : Node) (p : Page) (f : Field) (idx : Nat := 0) : Nat :=
  wordField (Sparse.get resetKey n.active (regKey p f.off idx)) f

/-- Write a field of the active copy. -/
def setAct (n : Node) (p : Page) (f : Field) (v : Nat) (idx : Nat := 0) : Node :=
  let w := setWordField (Sparse.get resetKey n.active (regKey p f.off idx)) f v
  { n with active := Sparse.set resetKey n.active (regKey p f.off idx) w }

/-- Count in a field, saturating at its largest value. -/
def bump (n : Node) (p : Page) (f : Field) (by_ : Nat := 1) (idx : Nat := 0) : Node :=
  n.setFld p f (Nat.min (n.fld p f idx + by_) (2 ^ (f.hi + 1 - f.lo) - 1)) idx

/-- Keep the larger of a field and a value, saturating at the field's largest value. -/
def peak (n : Node) (p : Page) (f : Field) (v : Nat) (idx : Nat := 0) : Node :=
  n.setFld p f (Nat.max (n.fld p f idx) (Nat.min v (2 ^ (f.hi + 1 - f.lo) - 1))) idx

/-- Set a PG_IRQ bit of a page (R31); bits at and above NIRQ do not exist. -/
def irq (n : Node) (p : Page) (bit : Nat) : Node :=
  if bit < blockIrqs p.block then n.setReg p 0x010 (n.reg p 0x010 ||| (1#32 <<< bit)) else n

/-- The header state of a page. -/
def hdr (n : Node) (p : Page) : Hdr := Sparse.get (fun _ => {}) n.hdrs (pageCode p)

/-- Replace the header state of a page. -/
def setHdr (n : Node) (p : Page) (h : Hdr) : Node :=
  { n with hdrs := Sparse.set (fun _ => {}) n.hdrs (pageCode p) h }

/-- Change the header state of a page. -/
def modHdr (n : Node) (p : Page) (f : Hdr → Hdr) : Node := n.setHdr p (f (n.hdr p))

/-- Read one byte of memory; a byte that nothing has written reads 0. -/
def rdByte (n : Node) (a : Nat) : Byte := Sparse.get (fun _ => 0) n.mem a

/-- Write one byte of memory. -/
def wrByte (n : Node) (a : Nat) (b : Byte) : Node := { n with mem := Sparse.set (fun _ => 0) n.mem a b }

/-- Write bytes at rising addresses. -/
def wrBytes (n : Node) (a : Nat) : List Byte → Node
  | [] => n
  | b :: bs => (n.wrByte a b).wrBytes (a + 1) bs

/-- Read `k` bytes at rising addresses. -/
def rdBytes (n : Node) (a : Nat) : Nat → List Byte
  | 0 => []
  | k + 1 => n.rdByte a :: n.rdBytes (a + 1) k

/-- The number that bytes spell, least significant first (DEDUCED, notes/assumptions/12.md). -/
def leNat : List Byte → Nat
  | [] => 0
  | b :: bs => b.toNat + 256 * leNat bs

/-- The `k` bytes of a number, least significant first. -/
def leBytes (v : Nat) : Nat → List Byte
  | 0 => []
  | k + 1 => BitVec.ofNat 8 v :: leBytes (v / 256) k

/-- Read a 32-bit word of memory. -/
def rdWord (n : Node) (a : Nat) : Word := BitVec.ofNat 32 (leNat (n.rdBytes a 4))

/-- Write a 32-bit word of memory. -/
def wrWord (n : Node) (a : Nat) (w : Word) : Node := n.wrBytes a (leBytes w.toNat 4)

/-- Copy `k` bytes from `src` to `dst`, as they stood before the copy. -/
def copyBytes (n : Node) (dst src k : Nat) : Node := n.wrBytes dst (n.rdBytes src k)

/-- Copy `k` bytes from `src` to `dst`, ranges that do not overlap, each byte changed by `f` of its offset; a byte that
nothing has written copies as 0. -/
def copyMap (n : Node) (dst src k : Nat) (f : Nat → Byte → Byte) : Node :=
  let from_ := n.mem.filter (fun e => decide (src ≤ e.1 ∧ e.1 < src + k))
  let n := { n with mem := n.mem.filter (fun e => !decide (dst ≤ e.1 ∧ e.1 < dst + k)) }
  from_.foldl (fun m e => m.wrByte (dst + (e.1 - src)) (f (e.1 - src) e.2)) n

/-- Physical address of a byte offset in a die's Fen (R26). -/
def fenAddr (die off : Nat) : Nat := 0x50000000 + die * 0x01000000 + off

/-- State of an engine die. -/
def die (n : Node) (d : Nat) : DieSt := Sparse.get (fun _ => {}) n.dies d
def setDie (n : Node) (d : Nat) (s : DieSt) : Node := { n with dies := Sparse.set (fun _ => {}) n.dies d s }
def modDie (n : Node) (d : Nat) (f : DieSt → DieSt) : Node := n.setDie d (f (n.die d))

/-- Whether a page's die is present and usable (R4, R371). -/
def pagePresent (n : Node) (p : Page) : Bool :=
  match blockRegion p.block with
  | .hub => true
  | .engine => n.boot.engPresent.getLsbD (pageDie p)
  | .drive => n.boot.drvPresent

/-- The node has left reset in the sense of R23: it has reached its first casement (R369). Until then its serdes stay in
electrical idle, and the PCIe link down. -/
def outOfReset (n : Node) : Bool := n.clk.running || decide (4 ≤ n.fld ⟨.sys, 0⟩ Fld.sysBootStage)

/-- Take a fresh free value (DESIGN CHOICE, notes/assumptions/15.md). -/
def fresh (n : Node) : Word × Node := (Config.freeWord n.free, { n with free := n.free + 1 })

/-- Record the response to an access. -/
def respond (n : Node) (ok : Bool) (data : Word := 0) : Node := { n with rsp := ⟨ok, data⟩ }

end Node

/-- Samples per casement of a rate code (R48). -/
def rateS : Nat → Nat
  | 0 | 1 => 6
  | 2 | 3 => 12
  | _ => 24

/-- Casements per second of a rate code (R48). -/
def rateCr (r : Nat) : Nat := if r % 2 = 0 then 7350 else 8000

/-- Node rate in Hz of a rate code (R48). -/
def rateHz (r : Nat) : Nat := rateCr r * rateS r

/-- Casement length in time units (R48) (DESIGN CHOICE, notes/assumptions/8.md). -/
def rateLen (r : Nat) : Nat := if r % 2 = 0 then 16000000 else 14700000

/-- A time of `half` units of 0.5 ms in samples, rounding halves upward (R95). -/
def halfMsSamples (half fs : Nat) : Nat := (2 * half * fs + 2000) / 4000

/-- Ceiling division. -/
def ceilDiv (a b : Nat) : Nat := (a + b - 1) / b

namespace Node

/-- The CAS page. -/
def casPage : Page := ⟨.cas, 0⟩

/-- The node rate in force (CAS.STAT.RATE). -/
def rate (n : Node) : Nat := n.fld casPage Fld.casStatRate

/-- Samples per casement in force. -/
def s (n : Node) : Nat := rateS n.rate

/-- The casement index of PTP time (R49): whole casements since the epoch. -/
def phcIndex (n : Node) : Nat :=
  n.phc.sec * rateCr n.rate + (n.phc.ns * 4294967296 + n.phc.frac) * rateCr n.rate / (1000000000 * 4294967296)

/-- Instant of the next boundary of the generator: a casement after the last, as DP0 slews it (R50). -/
def nextBoundary (n : Node) : Nat := (n.clk.boundaryAt + rateLen n.rate + (-n.cas.slew)).toNat

/-- Casements run: generation is on. -/
def running (n : Node) : Bool := n.clk.running

/-- Store a list of bytes into Fen of a die. -/
def wrFen (n : Node) (d off : Nat) (bs : List Byte) : Node := n.wrBytes (fenAddr d off) bs

end Node

/-- The hub runs: VDD_SILL is up, POR_N is high, no rail holds the dies in reset and no fatal fault is held (R23, R325,
R366, R376) (DEDUCED, notes/assumptions/6.md). -/
def Node.alive (n : Node) : Bool := n.sil.powered && !n.sil.por && !n.boot.railOut && !n.sil.fatal

namespace Node

def pciPage : Page := ⟨.pci, 0⟩
def i2cPage : Page := ⟨.i2c, 0⟩

/-- An attention cause is set where its bit in I2C.CFG.CAUSE_MASK is 1 (R357); a controller that has given up tries again
(R358). -/
def attnCause (n : Node) (k : Nat) : Node :=
  if (n.fld i2cPage Fld.i2cCfgCauseMask).testBit k then
    { n with i2c := { n.i2c with pend := n.i2c.pend ||| (1#4 <<< k), attempts := 0, given := false } }
  else n

/-- A page signals an interrupt (R31). -/
def signals (n : Node) (p : Page) : Bool := decide (n.reg p 0x010 &&& n.reg p 0x014 ≠ 0)

/-- The vectors whose condition is true: some page mapped to them signals an interrupt (R362). -/
def vectors (n : Node) : Word :=
  let base := regKey pciPage 0x048 0
  n.regs.foldl (fun w e =>
    if base ≤ e.1 ∧ e.1 < base + 65536 ∧ !e.2.getLsbD 5 then
      match regionPage (keyIdx e.1 / 256) (keyIdx e.1 % 256) with
      | some p => if n.signals p then w ||| (1#32 <<< (e.2.toNat % 32)) else w
      | none => w
    else w) 0

/-- What follows from any change of the pages' interrupts: messages owed for a condition that has been false are owed again,
and IRQ_N follows the vectors of PINMASK, its fall being an attention cause (R357, R362). -/
def lines (n : Node) : Node :=
  let v := n.vectors
  let low := decide (v &&& n.reg pciPage 0x04C ≠ 0)
  let fell := low && !n.i2c.irqLow
  let n := { n with pci := { n.pci with told := n.pci.told &&& v, pba := n.pci.pba &&& v }, i2c := { n.i2c with irqLow := low } }
  if fell then n.attnCause 3 else n

/-- What a fatal fault holds (R325): no casement, management core or Reed core runs, and no lease renewal is offered. A
command that met the fault on its way has no further effect on them (DEDUCED, notes/assumptions/7.md). -/
def fatalHold (n : Node) : Node :=
  if n.sil.fatal then
    { n with clk := { n.clk with running := false }, mgmt := { n.mgmt with running := false },
             reeds := n.reeds.map (fun (e : Nat × ReedCore) => (e.1, { e.2 with mode := .idle, stall := none })),
             hng := { n.hng with offered := none } }
  else n

/-- What ends every command: the hold of a fatal fault, and the interrupt lines. -/
def settle (n : Node) : Node := n.fatalHold.lines

end Node

/-- A command whose effect is `f` on what the block holds. -/
def State.act (s : State) (f : Node → Node) : Host.Outcome State Fault Refusal := .next { s with node := (f s.node).settle }

/-- A command of the hub or of an engine or drive die: without effect in reset and in the fatal state, in which those stand
still (R23, R325) (DESIGN CHOICE, notes/assumptions/2.md). -/
def State.hub (s : State) (f : Node → Node) : Host.Outcome State Fault Refusal :=
  s.act (fun n => if n.alive then f n else n)

end Sys2Proof.Machine
end

