-- ==== Sys2Proof/Machine/Faults.lean ====
section
/-! DEFINITION. Fault collection (R315 to R325): how a fault is classed, escalated, dated and queued, how a record is
acknowledged, the results of targeted self-tests, and what a fatal fault does. -/

namespace Sys2Proof.Machine

open Sys2Proof (Word Byte Sparse Page Block Die Port Src)

/-- Class of a fault on arrival, by the owning chapter's table: 1 corrected, 2 contained, 3 fatal
(PRESUMED, notes/assumptions/63.md). -/
def faultClass (b : Block) (code : Nat) : Nat :=
  match b, code with
  | .pen, 1 | .fen, 1 | .lnk, 1 | .rcx, 1 | .slu, 1 | .mac, 1 | .drm, 1 | .sns, 1 => 1
  | .ref, 1 | .sil, 3 | .sil, 4 => 3
  | _, _ => 2

/-- The page has a targeted self-test (R323). -/
def hasTest (b : Block) : Bool :=
  match b with
  | .pen | .fen | .lnk | .rcx | .slu | .mac | .drm | .sns => true
  | _ => false

/-- Source of a fault for escalation: REGION and PAGE (R317). -/
def faultSource (p : Page) : Nat := pageRegion p * 256 + pageIndex p

def fltPage : Page := ⟨.flt, 0⟩
def silPage : Page := ⟨.sil, 0⟩
def hngPage : Page := ⟨.hng, 0⟩

/-- How many waiting records of `r`'s Sill cycle come after it by REGION and PAGE (R316): they stand last in the queue. -/
def laterInCycle (q : List Record) (r : Record) : Nat :=
  (q.filter (fun x => decide (x.sec = r.sec ∧ x.ns = r.ns ∧ x.epoch = r.epoch ∧ r.region * 256 + r.page < x.region * 256 + x.page))).length

/-- The records that `r` puts back, itself first, each with the sequence number that it takes. -/
def renumbered (q : List Record) (r : Record) : List (Record × Nat) :=
  let behind := q.drop (q.length - laterInCycle q r)
  (r :: behind).zip (behind.map (·.seq) ++ [r.seq])

/-- The queue with a record in its place: faults of one Sill cycle are recorded in ascending order of REGION, then PAGE, and SEQ
numbers the records (R316, R320). -/
def enqueue (q : List Record) (r : Record) : List Record :=
  q.take (q.length - laterInCycle q r) ++ (renumbered q r).map (fun e => { e.1 with seq := e.2 })

/-- The last fault of each page, by the numbers that `enqueue` gives. -/
def moveLast (q : List Record) (r : Record) (last : Sparse Nat) : Sparse Nat :=
  (renumbered q r).foldl (fun l e =>
    let src := e.1.region * 256 + e.1.page
    if Sparse.get (fun _ => 0) l src = e.1.seq + 1 then Sparse.set (fun _ => 0) l src (e.2 + 1) else l) last

namespace Node

/-- Time in whole Sill cycles. -/
def sillTime (n : Node) : Nat := n.clk.now / Config.sillCycle

/-- Nanoseconds since the epoch by the Sill island's latch (R321): the boundary's exact time rounded down, plus the whole
Sill cycles since it, rounded down. -/
def faultTime (n : Node) : Nat :=
  n.sil.index * 1000000000 / n.sil.cr + (n.clk.now - n.sil.latchAt) / Config.sillCycle * 125 / 4

/-- Records that the collector holds: in the ring, then waiting. -/
def records (n : Node) : List Record := n.flt.ring ++ n.flt.queue

/-- Any contained or fatal record is unacknowledged (R324). -/
def errHeld (n : Node) : Bool :=
  n.sil.fatal || n.records.any (fun r => !r.ack && decide (2 ≤ r.cls))

/-- Whether counting promotes a fault of a source and class now (R317): with it, the last N lie within W ms. -/
def countingPromotes (n : Node) (src cls : Nat) : Bool :=
  let esc := if cls = 1 then n.reg fltPage 0x044 else n.reg fltPage 0x048
  let k := wordField esc Fld.fltEscCorN
  let w := Nat.max 1 (wordField esc Fld.fltEscCorWindowMs)
  let need := Nat.max 2 k
  let times := n.sillTime :: Sparse.get (fun _ => []) n.flt.history (src * 4 + cls)
  if k = 0 then false
  else match times[need - 1]? with
    | none => false
    | some t => decide (n.sillTime - t ≤ w * 32000)

/-- Whether repeat promotes it: the ring holds an unacknowledged record of the source and class (R317). -/
def repeatPromotes (n : Node) (p : Page) (cls : Nat) : Bool :=
  n.flt.ring.any (fun r => decide (r.region = pageRegion p ∧ r.page = pageIndex p ∧ r.cls = cls) && !r.ack)

/-- Put the fault's time into the history of its source and class. -/
def enterHistory (n : Node) (src cls : Nat) : Node :=
  let k := src * 4 + cls
  let h := Sparse.get (fun _ => []) n.flt.history k
  { n with flt := { n.flt with history := Sparse.set (fun _ => []) n.flt.history k ((n.sillTime :: h).take 256) } }

/-- Empty the history of a source and class. -/
def clearHistory (n : Node) (src cls : Nat) : Node :=
  { n with flt := { n.flt with history := Sparse.set (fun _ => []) n.flt.history (src * 4 + cls) [] } }

/-- Queue a record behind those of its Sill cycle that come before it by REGION and PAGE, or count it as lost where 64 faults
wait (R316). -/
def queueRecord (n : Node) (r : Record) : Node :=
  let n := { n with flt := { n.flt with nextSeq := (n.flt.nextSeq + 1) % 4294967296 } }
  if n.flt.queue.length < 64 then
    { n with flt := { n.flt with queue := enqueue n.flt.queue r, lastOf := moveLast n.flt.queue r n.flt.lastOf } }
  else ({ n with flt := { n.flt with lost := true } }).bump fltPage Fld.fltCountsLost

/-- A drive channel's state beside its registers. -/
def drv (n : Node) (k : Nat) : DrvCh := Sparse.get (fun _ => {}) n.drive.ch k

/-- Change a drive channel. -/
def modDrv (n : Node) (k : Nat) (f : DrvCh → DrvCh) : Node :=
  { n with drive := { n.drive with ch := Sparse.set (fun _ => {}) n.drive.ch k (f (n.drv k)) } }

/-- Put the pins of every drive channel that `pick` names at one state, with marks and loop off. -/
def pinsAll (n : Node) (pick : Nat → Bool) (p : ModPins) : Node :=
  if n.boot.drvPresent then
    ((List.range 192).filter pick).foldl (fun m k => m.modDrv k (fun c => { c with pins := p, loop := false, marks := false })) n
  else n

/-- Every RAIL_DMD is static low (R299, R325). -/
def railsLow (n : Node) : Node := { n with drive := { n.drive with rails := [] }, pins := { n.pins with rail := .low } }

/-- The lease words HELD0 to HELD2 as one number (R337). -/
def heldLeases (n : Node) : BitVec 66 :=
  BitVec.ofNat 66 ((n.reg hngPage 0x05C).toNat + (n.reg hngPage 0x060).toNat * 2 ^ 32 + (n.reg hngPage 0x064).toNat % 4 * 2 ^ 64)

/-- The leases whose duties run: held, and not being fenced (R340). -/
def dutyLeases (n : Node) : BitVec 66 := n.heldLeases &&& ~~~n.hng.fencing

/-- Set HELD0 to HELD2. -/
def setHeldLeases (n : Node) (h : BitVec 66) : Node :=
  ((n.setReg hngPage 0x05C (h.setWidth 32)).setReg hngPage 0x060 ((h >>> 32).setWidth 32)).setReg hngPage 0x064
    ((h >>> 64).setWidth 32)

/-- RELEASE is sent on HINGE_OUT where the wire is in use (R340, R342). -/
def sendRelease (n : Node) : Node :=
  if n.act hngPage Fld.hngCfgWireEn = 1 then
    { n with hng := { n.hng with wireSent := some (hingeFrame 3 0) } }.bump hngPage Fld.hngEventsReleases
  else n

/-- Renewals stop, and no fence is in progress. -/
def stopRenewals (n : Node) : Node := { n with hng := { n.hng with offered := none, fencing := 0 } }

/-- Every lease the node holds is fenced at once, and renewals stop (R325, R340). -/
def fatalFence (n : Node) : Node :=
  if n.heldLeases = 0 then n.stopRenewals
  else ((n.stopRenewals.setHeldLeases 0).sendRelease).irq hngPage 3

/-- The fatal state is entered: management cores, path engines and Reed cores are halted, and casements stop (R325). -/
def fatalEnter (n : Node) : Node :=
  { n with sil := { n.sil with fatal := true }, clk := { n.clk with running := false }, mgmt := { n.mgmt with running := false },
           reeds := n.reeds.map (fun (e : Nat × ReedCore) => (e.1, { e.2 with mode := .idle, stall := none })) }

/-- The clocked outputs are held low, and REFSTAT and REFNUM at FAULT and the last active slot (R325, R249). -/
def fatalPins (n : Node) : Node :=
  { n with pins := { n.pins with clocked := .low, refHeld := some (7, n.refs.active.getD n.refs.lastActive) } }

/-- A fatal fault's effects (R325): FATAL_N and ERR_N low, management cores, path engines and Reed cores halted, casements
stopped, every lease fenced, drive outputs at ZERO without a fade, rail demands and the clocked outputs low, and REFSTAT
and REFNUM at FAULT and the last active slot. -/
def fatalStop (n : Node) : Node :=
  if n.sil.fatal then n
  else (((n.fatalEnter.fatalFence).pinsAll (fun _ => true) .zero).railsLow.fatalPins).attnCause 1

/-- Whether a fault of a page and class is promoted by counting, and by repeat (R317); not on the MOD pages (R318). -/
def byCount (n : Node) (p : Page) (cls : Nat) : Bool :=
  !(decide (p.block = .mod) || decide (3 ≤ cls)) && n.countingPromotes (faultSource p) cls
def byRepeat (n : Node) (p : Page) (cls : Nat) : Bool :=
  !(decide (p.block = .mod) || decide (3 ≤ cls)) && n.repeatPromotes p cls

/-- The class at which a fault is recorded (R317). -/
def judgedClass (n : Node) (p : Page) (cls : Nat) : Nat := if n.byCount p cls || n.byRepeat p cls then cls + 1 else cls

/-- The history of the fault's source, and FLT's counts and interrupt of a promotion (R317). -/
def enterFault (n : Node) (p : Page) (cls : Nat) : Node :=
  let src := faultSource p
  let count := n.byCount p cls
  let rep := n.byRepeat p cls
  let n := if count || rep then (n.clearHistory src cls).enterHistory src (cls + 1) else n.enterHistory src cls
  let n := if count then n.bump fltPage Fld.fltCountsCounted else n
  let n := if rep then n.bump fltPage Fld.fltCountsRepeat else n
  if count || rep then n.irq fltPage 2 else n

/-- The fault that comes next is the last of its page (R31). -/
def noteLast (n : Node) (p : Page) : Node :=
  { n with flt := { n.flt with lastOf := Sparse.set (fun _ => 0) n.flt.lastOf (faultSource p) (n.flt.nextSeq + 1) } }

/-- The page's own count of a fault of a class (R31). -/
def countFault (n : Node) (p : Page) (cls : Nat) : Node :=
  if cls = 1 then n.bump p Fld.pgFltcntCorrected else if cls = 2 then n.bump p Fld.pgFltcntContained else n

/-- DETAIL of a record (R321): a MOD page's channel, the capture of the pages that have one, and 0 for other pages. -/
def recordDetail (b : Block) (w : Word) : Word :=
  match b with
  | .mod => w &&& 0xFF
  | .pen | .fen | .rcx | .drm | .cas => w
  | _ => 0

/-- The record of a fault that arrives at class `cls` and is recorded at class `cls'` (R321). -/
def faultRecord (n : Node) (p : Page) (code cls cls' : Nat) (count rep : Bool) (detail : Word) (unit stest : Nat) : Record :=
  let t := n.faultTime
  { seq := n.flt.nextSeq, casement := n.sil.index % 4294967296, epoch := n.sil.epoch,
    ns := t % 1000000000, sec := t / 1000000000, region := pageRegion p, page := pageIndex p,
    code := code, cls := cls', orig := cls, esc := (if count then 1 else 0) + (if rep then 2 else 0),
    stest := stest, detail := recordDetail p.block detail, unit := unit }

/-- A fault of class `cls` on arrival reaches the collector (R316, R317): it is judged by both rules (not on the MOD
pages, R318), counted in its page's PG_FLTCNT, and its record is queued. -/
def reportFault (n : Node) (p : Page) (code cls : Nat) (detail : Word) (unit : Nat) (stest : Nat) : Node :=
  let cls' := n.judgedClass p cls
  let r := n.faultRecord p code cls cls' (n.byCount p cls) (n.byRepeat p cls) detail unit stest
  let n := (((n.enterFault p cls).countFault p cls').noteLast p).queueRecord r
  if cls' = 3 then n.fatalStop else n

/-- A block raises one of its faults (R315): the class is its table's, and its targeted self-test is asked for (R323). -/
def raiseFault (n : Node) (p : Page) (code : Nat) (detail : Word := 0) (unit : Nat := 0) (notRun : Bool := false) : Node :=
  n.reportFault p code (faultClass p.block code) detail unit
    (if hasTest p.block then (if notRun then 4 else 1) else 0)

/-- Enter a self-test's result into every record and job that asked for it (R323). -/
def testResult (n : Node) (p : Page) (unit result : Nat) : Node :=
  let upd := fun (r : Record) =>
    if r.region = pageRegion p ∧ r.page = pageIndex p ∧ r.unit = unit ∧ r.stest = 1 then { r with stest := result } else r
  let updJob := fun (j : TestJob) =>
    if j.region = pageRegion p ∧ j.page = pageIndex p ∧ j.unit = unit ∧ j.result = 1 then { j with result := result } else j
  { n with flt := { n.flt with ring := n.flt.ring.map upd, queue := n.flt.queue.map upd, jobs := n.flt.jobs.map updJob } }

/-- Acknowledge the records that `f` picks (R322). A MOD page with a record acknowledged holds no further trip of the
captured channel (R295). -/
def ackWhere (n : Node) (f : Record → Bool) : Node :=
  let hit := n.flt.ring.filter (fun r => f r && !r.ack && decide (r.region = 7 ∧ r.page < 24))
  let n := hit.foldl (fun m r => m.setFld ⟨.mod, r.page⟩ Fld.pgFltcapMore 0) n
  { n with flt := { n.flt with ring := n.flt.ring.map (fun r => if f r then { r with ack := true } else r) } }

/-- The page's unacknowledged records, oldest first, in the ring or waiting. -/
def pageFaults (n : Node) (p : Page) : List Record :=
  n.records.filter (fun r => decide (r.region = pageRegion p ∧ r.page = pageIndex p) && !r.ack)

end Node

/-- A word of a record, laid out as R321 gives. -/
def recordWord (r : Record) (k : Nat) : Word :=
  match k with
  | 0 => BitVec.ofNat 32 r.seq
  | 1 => BitVec.ofNat 32 r.casement
  | 2 => BitVec.ofNat 32 (r.epoch % 4 * 2 ^ 30 + r.ns)
  | 3 => BitVec.ofNat 32 r.sec
  | 4 => BitVec.ofNat 32 (r.region % 16 * 2 ^ 28 + r.page % 256 * 2 ^ 20 + r.code % 256 * 2 ^ 12 + r.cls % 4 * 2 ^ 10
      + r.orig % 4 * 2 ^ 8 + r.esc % 4 * 2 ^ 6 + r.stest % 16)
  | 5 => r.detail
  | 6 => BitVec.ofNat 32 ((if r.ack then 2 ^ 31 else 0) + (if r.lostBefore then 2 ^ 30 else 0) + r.sec / 2 ^ 32 % 2 ^ 16)
  | _ => 0

namespace Node

/-- PG_FLTCAP of a page (R31): its oldest unacknowledged fault, and whether a later one of the page has occurred, be its
record written, acknowledged or lost. -/
def fltcapWord (n : Node) (p : Page) : Word :=
  match n.pageFaults p with
  | [] => 0
  | r :: _ => BitVec.ofNat 32 (r.casement % 2 ^ 16 * 2 ^ 16
      + (if decide (Sparse.get (fun _ => 0) n.flt.lastOf (faultSource p) = r.seq + 1 ∧ n.fld p Fld.pgFltcapMore = 0) then 0 else 2 ^ 10)
      + r.cls % 4 * 2 ^ 8
      + r.code % 256)

/-- The collector writes one queued record to the ring (R316, R320): in place of the oldest acknowledged record where the
ring is full, or dropped with FLT.STAT.OVERFLOW where all 256 are unacknowledged. -/
def writeRecord (n : Node) : Node :=
  match n.flt.queue with
  | [] => n
  | r :: rest =>
    let n := { n with flt := { n.flt with queue := rest } }
    let auto := decide (r.cls = 1) && n.flag fltPage Fld.fltCtrlAutoAckCor
    let r := { r with ack := r.ack || auto, lostBefore := n.flt.lost }
    let put := fun (m : Node) (ring : List Record) =>
      let m := { m with flt := { m.flt with ring := ring ++ [r], lost := false } }
      let m := m.irq fltPage (if r.cls = 1 then 1 else 0)
      if r.cls = 2 then m.attnCause 0 else m
    if n.flt.ring.length < 256 then put n n.flt.ring
    else match n.flt.ring.find? (·.ack) with
      | some old => put n (n.flt.ring.erase old)
      | none =>
        let n := { n with flt := { n.flt with lost := true } }
        ((n.setFld fltPage Fld.fltStatOverflow 1).bump fltPage Fld.fltCountsLost).irq fltPage 3

end Node

end Sys2Proof.Machine
end

