-- ==== Sys2Proof/Machine/Graph.lean ====
section
/-! DEFINITION. The audio graph of a configuration (R68 to R72): what feeds what, and the sinks that a path through an
object reaches. -/

namespace Sys2Proof.Machine

open Sys2Proof (Word Byte Sparse Page Block Die Port Src ShutterId SinkId SourceCfg BusCfg XpCfg StripCfg SinkCfg ItemCfg
  ReedCfg RxStreamCfg TxStreamCfg BundleCfg InputId Cfg)

/-- An object that carries signal, as SinkCfg.feedKind codes it: 0 a source, 1 a bus, 2 an output strip, and its number. -/
abbrev Obj := Nat × Nat

namespace Graph

def sourceAt (c : Cfg) (i : Nat) : Option SourceCfg := c.sources.find? (fun (s : SourceCfg) => decide (s.num = i))
def busAt (c : Cfg) (i : Nat) : Option BusCfg := c.buses.find? (fun (s : BusCfg) => decide (s.num = i))
def stripAt (c : Cfg) (i : Nat) : Option StripCfg := c.strips.find? (fun (s : StripCfg) => decide (s.num = i))
def sinkAt (c : Cfg) (i : SinkId) : Option SinkCfg := c.sinks.find? (fun (s : SinkCfg) => decide (s.id = i))

/-- The objects of a configuration. -/
def objs (c : Cfg) : List Obj :=
  c.sources.map (fun s => ((0, s.num) : Obj)) ++ c.buses.map (fun b => (1, b.num)) ++ c.strips.map (fun s => (2, s.num))

/-- The objects that feed an object directly (R71). -/
def feeds (c : Cfg) (o : Obj) : List Obj :=
  match o.1 with
  | 1 => (c.xpoints.filter (fun (x : XpCfg) => decide (x.bus = o.2))).map (fun x => (if x.fromBus then 1 else 0, x.source))
  | 2 => match stripAt c o.2 with
    | some s => [(if s.inBus then 1 else 0, s.input)]
    | none => []
  | _ => []

/-- The object and everything upstream of it. Four levels hold every graph that R72 admits; the first number is fuel. -/
def above (c : Cfg) : Nat → Obj → List Obj
  | 0, o => [o]
  | fuel + 1, o => o :: (feeds c o).flatMap (above c fuel)

/-- Every way from a source to the object, the object first. -/
def ways (c : Cfg) : Nat → Obj → List (List Obj)
  | 0, _ => []
  | fuel + 1, o => if o.1 = 0 then [[o]] else ((feeds c o).flatMap (ways c fuel)).map (fun w => o :: w)

/-- Paths that end at a sink (R66), the feed first. -/
def sinkWays (c : Cfg) (s : SinkCfg) : List (List Obj) := ways c 4 (s.feedKind, s.feed)

/-- Sinks whose path passes through one of the objects. -/
def through (c : Cfg) (os : List Obj) : List SinkId :=
  (c.sinks.filter (fun (s : SinkCfg) => (above c 4 (s.feedKind, s.feed)).any (fun o => os.contains o))).map (·.id)

/-- Destination buses of crosspoints, by entry. -/
def entryBuses (c : Cfg) (es : List Nat) : List Obj :=
  (c.xpoints.filter (fun (x : XpCfg) => es.contains x.entry)).map (fun x => (1, x.bus))

/-- The objects that a work item computes a part of. -/
def itemObjs (c : Cfg) (i : ItemCfg) : List Obj :=
  entryBuses c i.xps ++ i.ins.map (fun k => (0, k)) ++ i.buses.map (fun k => (1, k)) ++ i.outs.map (fun k => (2, k))
    ++ i.segs.map (fun k => (2, k.1))

/-- Sinks that a work item's results reach (R62). -/
def itemSinks (c : Cfg) (i : ItemCfg) : List SinkId := through c (itemObjs c i)

/-- The objects behind a Reed program's output ports: its bus, or the sources whose origin is one of them (R158). -/
def reedObjs (c : Cfg) (g : ReedCfg) : List Obj :=
  if g.hook then g.feeds.take 1
  else
    let base := g.die * 256 + g.core * 64 + g.outFirst
    (c.sources.filter (fun (s : SourceCfg) => decide (s.kind = 4 ∧ base ≤ s.origin ∧ s.origin < base + g.nout))).map
      (fun s => (0, s.num))

/-- Sinks that a Reed program's outputs reach. -/
def reedSinks (c : Cfg) (g : ReedCfg) : List SinkId := through c (reedObjs c g)

/-- Level of a bus (R72): 2 where a bus feeds it. -/
def level (c : Cfg) (b : Nat) : Nat :=
  if c.xpoints.any (fun (x : XpCfg) => x.fromBus && decide (x.bus = b)) then 2 else 1

/-- The stream that a receive channel lies in, and the one that a transmit channel lies in (R186). -/
def rxAt (c : Cfg) (ch : Nat) : Option RxStreamCfg :=
  c.rx.find? (fun (r : RxStreamCfg) => decide (r.first ≤ ch ∧ ch < r.first + r.channels))
def txAt (c : Cfg) (ch : Nat) : Option TxStreamCfg :=
  c.tx.find? (fun (r : TxStreamCfg) => decide (r.first ≤ ch ∧ ch < r.first + r.channels))

/-- An object of the new configuration that did not exist in the old one, or that a route change creates as a new instance
(R91). -/
def newInstance (old c : Cfg) (o : Obj) : Bool :=
  match o.1 with
  | 0 => match sourceAt old o.2, sourceAt c o.2 with
    | some a, some b => decide (a.kind ≠ b.kind ∨ a.origin ≠ b.origin ∨ a.die ≠ b.die ∨ a.sections ≠ b.sections ∨ a.fenClass ≠ b.fenClass)
    | _, _ => true
  | 1 => match busAt old o.2, busAt c o.2 with
    | some a, some b => decide (a.die ≠ b.die ∨ a.sections ≠ b.sections ∨ a.hook ≠ b.hook)
    | _, _ => true
  | _ => match stripAt old o.2, stripAt c o.2 with
    | some a, some b => decide (a.die ≠ b.die ∨ a.sections ≠ b.sections ∨ a.segments ≠ b.segments ∨ a.frac ≠ b.frac
        ∨ a.dram ≠ b.dram ∨ a.fenClass ≠ b.fenClass)
    | _, _ => true

/-- A change of an object that both configurations hold is a route change (R82). -/
def changed (old c : Cfg) (o : Obj) : Bool :=
  match o.1 with
  | 0 => (sourceAt old o.2).isSome && (sourceAt c o.2).isSome && newInstance old c o
  | 1 => (busAt old o.2).isSome && (busAt c o.2).isSome && newInstance old c o
  | _ => match stripAt old o.2, stripAt c o.2 with
    | some a, some b => newInstance old c o || decide (a.inBus ≠ b.inBus ∨ a.input ≠ b.input)
    | _, _ => false

/-- An object of the old configuration that the new one changes or does not hold (R82, R85). -/
def lostObj (old c : Cfg) (o : Obj) : Bool :=
  changed old c o || (match o.1 with
    | 0 => (sourceAt c o.2).isNone
    | 1 => (busAt c o.2).isNone
    | _ => (stripAt c o.2).isNone)

/-- The input that a source's origin lies in (R69, R86), if one is placed there. -/
def inputOf (c : Cfg) (s : SourceCfg) : Option InputId :=
  match s.kind with
  | 0 => (rxAt c s.origin).map (fun r => ⟨0, r.num⟩)
  | 1 => some ⟨1, s.origin / 2⟩
  | 2 => some ⟨2, s.origin / 32⟩
  | k => some ⟨k, s.origin⟩

/-- The bundle that an input is a member of (R86): that of the bundle table, or else of its stream or of one of its sources;
0 for none. -/
def memberOf (c : Cfg) (i : InputId) : Nat :=
  match c.bundles.find? (fun (b : BundleCfg) => b.inputs.contains i) with
  | some b => b.num
  | none =>
    match c.rx.find? (fun (r : RxStreamCfg) => decide (i = ⟨0, r.num⟩ ∧ r.bundle ≠ 0)) with
    | some r => r.bundle
    | none => ((c.sources.find? (fun (s : SourceCfg) => decide (inputOf c s = some i ∧ s.bundle ≠ 0))).map (·.bundle)).getD 0

/-- The largest Sluice depth among the streams of a bundle, 0 for a bundle without streams (R88). -/
def bundleDepth (c : Cfg) (b : Nat) : Nat :=
  ((c.rx.filter (fun (r : RxStreamCfg) => decide (memberOf c ⟨0, r.num⟩ = b))).map (·.depth)).foldl Nat.max 0

/-- Bytes of a die's Fen that the strips placed there take (R119, R133, R140, R145): both banks of their coefficients and taps,
their state words, histories, rings and read windows. -/
def fenBytes (c : Cfg) (d : Nat) : Nat :=
  ((c.sources.filter (fun (s : SourceCfg) => decide (s.die = d))).map (fun s => 64 * (s.sections + 2) + 32 * (s.sections + 1) + (if s.fenClass then 4224 else 0))).sum +
  ((c.buses.filter (fun (b : BusCfg) => decide (b.die = d))).map (fun b => 96 * b.sections)).sum +
  ((c.strips.filter (fun (s : StripCfg) => decide (s.die = d))).map (fun s =>
    64 * (s.sections + 1) + 32 * s.sections + 32 + 768 * s.segments +
    (if s.dram then 256 + 8 * (rateS c.rate + 8) else if s.fenClass then 16640 else 0))).sum

/-- The crosspoints of a configuration that the next one removes or replaces (R76). -/
def removedXps (old c : Cfg) : List XpCfg :=
  old.xpoints.filter (fun (x : XpCfg) => !c.xpoints.any (fun (y : XpCfg) =>
    decide (y.entry = x.entry ∧ y.bus = x.bus ∧ y.source = x.source ∧ y.fromBus = x.fromBus)))

/-- KiB of a die's Fen that a configuration takes, and bytes of DRAM: what its strips need, or more where the image places other
data. -/
def fenKibOf (c : Cfg) (d : Nat) : Nat := Nat.max (c.fenKib.getD d 0) (ceilDiv (fenBytes c d) 1024)
def dramBytesOf (c : Cfg) : Nat := Nat.max c.dramBytes (1052672 * (c.strips.filter (fun (s : StripCfg) => s.dram)).length)

/-- MAC.RXCLASS as the compiler writes it on every port (R208): from the lowest to the highest destination port of the receive
streams, and empty where there are none (DESIGN CHOICE, notes/assumptions/180.md). -/
def rxClass (c : Cfg) : Word :=
  match c.rx.map (·.udpDst) with
  | [] => 1
  | u :: us => BitVec.ofNat 32 (us.foldl Nat.max u % 65536 * 65536 + us.foldl Nat.min u % 65536)

/-- What the compiler makes of the bundles: a member input brings all of its sources (R86), and every stream of a bundle
plays out from the largest depth among them (R88). It also writes the audio class of the ports (R208). -/
def bundled (c : Cfg) : Cfg :=
  { c with
    staged := c.staged.filter (fun e => !decide (e.1.block = .mac)) ++ (List.range 4).map (fun k => (⟨.mac, k⟩, 0x070, 0, rxClass c))
    sources := c.sources.map (fun (s : SourceCfg) => match inputOf c s with
      | some i => { s with bundle := memberOf c i }
      | none => s)
    rx := c.rx.map (fun (r : RxStreamCfg) =>
      let b := memberOf c ⟨0, r.num⟩
      if b = 0 then r else { r with bundle := b, depth := bundleDepth c b })
    bundles := c.bundles.map (fun (b : BundleCfg) => { b with depth := bundleDepth c b.num }) }

end Graph

end Sys2Proof.Machine
end

