-- ==== Sys2Proof/Machine/Shutters.lean ====
section
/-! DEFINITION. Shutters (R94 to R109): the control stage with its ramps, the protect stage with its causes, fades and
restores, bundles, mutes, and the commands of the SHT family that are events. -/

namespace Sys2Proof.Machine

open Sys2Proof (Word Byte Sparse Page Block Die Port Src ShutterId InputId SinkId ShutCfg)

def shtPage : Page := ⟨.sht, 0⟩

/-- A value brought into a two's-complement range of `bits` bits. -/
def satInt (bits : Nat) (v : Int) : Int :=
  let hi : Int := 2 ^ (bits - 1)
  if v < -hi then -hi else if hi ≤ v then hi - 1 else v

/-- The accumulator stored to Q1.31: to nearest, ties toward +∞, saturating (R112). -/
def roundSample (acc : Int) : Int := (acc + 2 ^ 30) / 2 ^ 31

/-- A sample times a gain in Q3.29, rounded and saturated (R94, R112). -/
def mulGain (x gain : Word) : Word := BitVec.ofInt 32 (satInt 32 (roundSample (x.toInt * gain.toInt * 4)))

/-- Unity in Q3.29. -/
def unity : Word := 0x20000000

/-- A ramp or restore time in 0.5 ms units as it acts: 0 as 1, above 4,000 as 4,000 (R74, SHT.WCFG). -/
def rampUnits (v : Nat) : Nat := if v = 0 then 1 else Nat.min v 4000

/-- Key of a Shutter in the store. SINK_KIND has three bits; the removed crosspoints that close beside an entry have any
number (R76). -/
def shutKey (id : ShutterId) : Nat := ((id.sinkKind / 8 * 16 + id.kind % 16) * 8 + id.sinkKind % 8) * 16384 + id.index % 16384

/-- The Shutter that a key names. -/
def keyShutter (k : Nat) : ShutterId := ⟨k / 131072 % 16, k / 2097152 * 8 + k / 16384 % 8, k % 16384⟩

/-- The site has a protect stage (R94): input strips, output strips and sinks. -/
def hasProtect (id : ShutterId) : Bool := decide (id.kind = 1 ∨ id.kind = 3 ∨ id.kind = 4)

/-- Gain of a forward ramp at sample `t` (R96, R97): its last sample carries the target exactly. -/
def rampSample (r : Ramp) (t : Nat) : Word :=
  if r.len ≤ t + 1 then r.g1
  else if r.law = 1 then cosineRamp r.g0 r.g1 t r.len
  else decibelRamp r.g0 r.g1 t r.len

/-- Gain at sample `t` of a ramp or retrace (R98). -/
def rampAt (r : Ramp) (t : Nat) : Word := rampSample r (if r.down then r.first - t else r.first + t)

/-- The control gain in force. -/
def gainNow (sh : Shutter) : Word :=
  match sh.ramp with
  | none => sh.gain
  | some r => if r.done = 0 then r.start else rampAt r (r.done - 1)

/-- The target that a request's settings give. -/
def shutTarget (c : ShutCfg) : Word := if c.shut then 0 else c.gain

/-- The target of a Shutter for settings: 0 for a sink without a feed (R71), and for one that a channel stop (R292) or a
refused registration (R16) keeps closed. -/
def shutAim (sh : Shutter) (c : ShutCfg) : Word := if sh.unfed || sh.forced then 0 else shutTarget c

/-- End a ramp: the gain stands at its target. -/
def endRamp (sh : Shutter) : Shutter :=
  match sh.ramp with
  | none => sh
  | some r => { sh with gain := r.target, ramp := none }

/-- Run a ramp for `k` samples. -/
def runRamp (k : Nat) (sh : Shutter) : Shutter :=
  match sh.ramp with
  | none => sh
  | some r =>
    let r := { r with done := r.done + k }
    if r.total ≤ r.done then endRamp { sh with ramp := some r } else { sh with ramp := some r }

/-- Start a ramp from the gain in force to the target of the settings (R95). -/
def startRamp (fs : Nat) (sh : Shutter) : Shutter :=
  let t := halfMsSamples (rampUnits sh.cfg.ramp) fs
  let g := gainNow sh
  { sh with ramp := some {
      g0 := g, g1 := shutAim sh sh.cfg, law := sh.cfg.law, len := t, total := t, start := g, target := shutAim sh sh.cfg } }

/-- Retrace a running ramp (R98): reversed sample t carries the gain that the old ramp carried at its sample e − 1 − t,
and the gain reaches the start value after e samples. -/
def retrace (r : Ramp) (sh : Shutter) : Shutter :=
  if r.done = 0 then { sh with gain := r.start, ramp := none }
  else { sh with ramp := some { r with
    first := if r.down then r.first - (r.done - 1) else r.first + (r.done - 1), down := !r.down,
    total := r.done, start := gainNow sh, target := r.start, done := 0 } }

/-- A request reaches the control stage (R98, R99); the second answer says that a ramp retraces. A request that changes no
target stores its settings, RAMP and LAW among them, also under a running ramp (DESIGN CHOICE, notes/assumptions/186.md). -/
def requestShutter (fs : Nat) (req : ShutCfg) (sh : Shutter) : Shutter × Bool :=
  let t := shutAim sh req
  let s := { sh with cfg := req }
  if sh.held then (s, false)
  else match sh.ramp with
    | none => if t = sh.gain then (s, false) else (startRamp fs s, false)
    | some r =>
      if t = r.target then (s, false)
      else if t = r.start then (retrace r s, true)
      else (startRamp fs s, false)

/-- The hold of a new path or source starts: the control gain is 0 whatever the request (R99). -/
def holdShutter (sh : Shutter) : Shutter := { sh with held := true, gain := 0, ramp := none }

/-- The hold ends: the control stage opens from 0 to the target in force over T (R99). -/
def releaseShutter (fs : Nat) (sh : Shutter) : Shutter :=
  if sh.held then
    let s := { sh with held := false, gain := 0, ramp := none }
    if shutAim s s.cfg = 0 then s else startRamp fs s
  else sh

/-- The protect factor in force, in Q3.29 (R101, R102). -/
def factorNow (sh : Shutter) : Word :=
  match sh.pstate with
  | .clear => unity
  | .faded => 0
  | .fading => if sh.pdone = 0 then sh.pfrom else fadeFactor sh.pfrom sh.plen (sh.pdone - 1)
  | .restoring => if sh.pdone = 0 then 0 else restoreFactor sh.plen (sh.pdone - 1)

/-- A fade of `len` samples from the factor in force. -/
def startFade (len : Nat) (sh : Shutter) : Shutter :=
  { sh with pstate := .fading, pfrom := factorNow sh, plen := len, pdone := 0 }

/-- Set a cause with the factor at 0 at once: a Shutter created while the cause stands (R89, R106). -/
def setFaded (bit : Nat) (sh : Shutter) : Shutter :=
  { sh with causes := sh.causes ||| (1#8 <<< bit), pstate := .faded }

/-- Clear a protect cause. -/
def clearCause (bit : Nat) (sh : Shutter) : Shutter := { sh with causes := sh.causes &&& ~~~(1#8 <<< bit) }

/-- A fade ends at 0. -/
def endFade (sh : Shutter) : Shutter := if sh.pstate = .fading then { sh with pstate := .faded } else sh

/-- A restore ends at unity. -/
def endRestore (sh : Shutter) : Shutter := if sh.pstate = .restoring then { sh with pstate := .clear } else sh

/-- Run the protect stage for `k` samples. -/
def runProtect (k : Nat) (sh : Shutter) : Shutter :=
  match sh.pstate with
  | .fading => let s := { sh with pdone := sh.pdone + k }; if s.plen ≤ s.pdone then endFade s else s
  | .restoring => let s := { sh with pdone := sh.pdone + k }; if s.plen ≤ s.pdone then endRestore s else s
  | _ => sh

/-- A fade of a cause's own length begins (R100 to R102): it shortens a longer one that runs, and leaves a stage that has faded. -/
def fadeFor (len : Nat) (sh : Shutter) : Shutter :=
  match sh.pstate with
  | .clear | .restoring => startFade len sh
  | .fading => if len < sh.plen - sh.pdone then startFade len sh else sh
  | .faded => sh

/-- Set a protect cause with a fade of its own length (R100 to R102). -/
def setCause (bit : Nat) (len : Nat) (sh : Shutter) : Shutter :=
  if sh.causes.getLsbD bit then sh else fadeFor len { sh with causes := sh.causes ||| (1#8 <<< bit) }

/-- Cause 3 is set, with a fade of `len` samples after `k` more (R106). -/
def setMute (k len : Nat) (sh : Shutter) : Shutter :=
  if sh.causes.getLsbD 3 then sh else { sh with causes := sh.causes ||| 8#8, starts := some (k, len) }

/-- A fade that was to start at the next sample starts (R106). -/
def startsNow (sh : Shutter) : Shutter :=
  match sh.starts with
  | some (0, len) => fadeFor len { sh with starts := none }
  | _ => sh

/-- Control gain and protect factor of the next sample (R96, R98, R101, R102). -/
def nextGain (sh : Shutter) : Word := match sh.ramp with | none => sh.gain | some r => rampAt r r.done
def nextFactor (sh : Shutter) : Word :=
  match sh.pstate with
  | .clear => unity
  | .faded => 0
  | .fading => fadeFactor sh.pfrom sh.plen sh.pdone
  | .restoring => restoreFactor sh.plen sh.pdone

/-- Control gain times protect factor of the next sample (R94) (DESIGN CHOICE, notes/assumptions/65.md). -/
def sampleGain (sh : Shutter) : Word := gainProduct (nextGain (startsNow sh)) (nextFactor (startsNow sh))

/-- One sample passes. -/
def runSample (sh : Shutter) : Shutter :=
  let s := runProtect 1 (runRamp 1 (startsNow sh))
  { s with starts := s.starts.map (fun x => (x.1 - 1, x.2)) }

/-- `k` samples pass, and their gains are kept. -/
def runSamples : Nat → Shutter → Shutter
  | 0, sh => sh
  | k + 1, sh => runSamples k { runSample sh with past := sh.past ++ [sampleGain sh] }

/-- The stages have run through `k` samples of the casement at least. -/
def runTo (k : Nat) (sh : Shutter) : Shutter := runSamples (k - sh.past.length) sh

/-- Gain of sample `t` of the casement: as it was run, or as the stages now stand (R94, R98). -/
def gainOf (sh : Shutter) (t : Nat) : Word :=
  match sh.past[t]? with
  | some g => g
  | none => sampleGain (runTo t sh)

/-- A restore may start: every cause is clear, the fade has completed, and the input has opened (R102, R202). -/
def mayRestore (sh : Shutter) : Bool := decide (sh.causes = 0 ∧ sh.pstate = .faded) && !sh.waits

/-- Start a restore over `len` samples. -/
def startRestore (len : Nat) (sh : Shutter) : Shutter :=
  if mayRestore sh then { sh with pstate := .restoring, plen := len, pdone := 0 } else sh

/-- The control stage is closed. A Shutter that its protect stage alone silences is not (DESIGN CHOICE, notes/assumptions/187.md). -/
def isClosed (sh : Shutter) : Bool := decide (sh.ramp = none ∧ sh.gain = 0)

/-- Transitions between two states of a Shutter, by the bits of RCX.EVTSEL.EDGES (R175). -/
def shutEdges (a b : Shutter) : Nat :=
  (if isClosed b && !isClosed a then 1 else 0) + (if isClosed a && !isClosed b then 2 else 0)
  + (if b.pstate = .faded ∧ a.pstate ≠ .faded then 4 else 0) + (if b.pstate = .clear ∧ a.pstate ≠ .clear then 8 else 0)

namespace Node

/-- A Shutter of the node; one that no configuration holds reads as absent. -/
def shut (n : Node) (id : ShutterId) : Shutter := Sparse.get (fun _ => {}) n.sht.shutters (shutKey id)

/-- Replace a Shutter. -/
def setShut (n : Node) (id : ShutterId) (sh : Shutter) : Node :=
  { n with sht := { n.sht with shutters := Sparse.set (fun _ => {}) n.sht.shutters (shutKey id) sh } }

/-- Change a Shutter that exists, noting its transitions. -/
def modShut (n : Node) (id : ShutterId) (f : Shutter → Shutter) : Node :=
  let a := n.shut id
  if a.present then
    let b := f a
    let e := shutEdges a b
    let n := n.setShut id b
    if e = 0 then n else { n with sht := { n.sht with edges := n.sht.edges ++ [(id, e)] } }
  else n

/-- The Shutters that exist. -/
def shutIds (n : Node) : List ShutterId := n.sht.shutters.map (fun e => keyShutter e.1)

/-- Change every Shutter that `p` picks. -/
def modShuts (n : Node) (p : ShutterId → Bool) (f : Shutter → Shutter) : Node :=
  (n.shutIds.filter p).foldl (fun m id => m.modShut id f) n

/-- The site is a sink. -/
def isSink (id : ShutterId) : Bool := decide (id.kind = 4)

/-- The Shutter of a sink. -/
def sinkShut (s : SinkId) : ShutterId := ⟨4, s.kind, s.num⟩

/-- A request reaches a Shutter (R98), counting a retrace. -/
def shutRequest (n : Node) (id : ShutterId) (req : ShutCfg) : Node :=
  let fs := rateHz n.rate
  let retraced := (requestShutter fs req (n.shut id)).2
  let n := n.modShut id (fun sh => (requestShutter fs req sh).1)
  if retraced then n.bump shtPage Fld.shtEventsReversals else n

/-- A Shutter is kept closed whatever its settings, or is so no longer (R16): the request of R98 that this is. -/
def forceShut (n : Node) (id : ShutterId) (on : Bool) : Node :=
  (n.modShut id (fun sh => { sh with forced := on })).shutRequest id (n.shut id).cfg

/-- Samples of the casement that have begun by an instant: a change of this moment acts from the sample after them (R106, R108)
(DEDUCED, notes/assumptions/66.md). -/
def samplesBegun (n : Node) (now : Nat) : Nat := (now - n.clk.boundaryAt) * n.s / rateLen n.rate + 1
def nextSample (n : Node) : Nat := if n.running then Nat.min n.s (n.samplesBegun n.clk.now) else 0

/-- A work item has started in the casement: it is complete or aborted, or an engine runs it. -/
def itemStarted (n : Node) (d slot item : Nat) : Bool :=
  n.cas.done.contains (d, slot, item) || n.cas.aborted.any (fun u => decide (u.1 = slot ∧ u.2.die.val = d ∧ u.2.item = item)) ||
  ((n.die d).engines).any (fun e => decide (e.item = some item ∧ e.slot = slot) && !e.late)

/-- An item of a strip has started in the casement. -/
def stripStarted (n : Node) (d kind idx : Nat) : Bool :=
  (n.rt.cfg.items.filter (fun (i : Sys2Proof.ItemCfg) => decide (i.die = d) && (match kind with
    | 0 => i.xps.contains idx
    | 1 => i.ins.contains idx
    | 2 => i.buses.contains idx
    | _ => i.outs.contains idx || i.segs.any (fun e => decide (e.1 = idx))))).any (fun i => n.itemStarted d i.slot i.item)

/-- The next sample of a Shutter: of a sink by the time, and otherwise the first of the block that its item takes next, in this
casement or, once the item has started, in the next one (R108) (DEDUCED, notes/assumptions/66.md). -/
def nextSampleOf (n : Node) (id : ShutterId) : Nat :=
  if !n.running then 0
  else if isSink id then n.nextSample
  else if (List.range 6).any (fun d => n.stripStarted d id.kind id.index) then n.s
  else 0

/-- The Shutter's stages run up to a sample of the casement, for a change there. -/
def shutRunTo (n : Node) (id : ShutterId) (k : Nat) : Node := n.modShut id (runTo (Nat.min k n.s))

/-- The same within a casement, where the Shutter changes at its next sample. -/
def forceShutNow (n : Node) (id : ShutterId) (on : Bool) : Node := (n.shutRunTo id (n.nextSampleOf id)).forceShut id on

/-- Sinks are to take an emergency fade for unfinished work at the coming boundary (R62). -/
def emergencySinks (n : Node) (sinks : List SinkId) : Node :=
  { n with sht := { n.sht with failed := n.sht.failed ++ sinks.filter (fun s => !n.sht.failed.contains s) } }

/-- Every sink takes a protect cause within a casement, from its next sample on. -/
def causeSinksNow (n : Node) (bit len : Nat) : Node := n.modShuts isSink (fun sh => setCause bit len (runTo n.nextSample sh))

/-- Every sink takes a protect cause. -/
def causeSinks (n : Node) (bit len : Nat) : Node := n.modShuts isSink (setCause bit len)

/-- Every sink is freed of a protect cause. -/
def uncauseSinks (n : Node) (bit : Nat) : Node := n.modShuts isSink (clearCause bit)

/-- Sources of a configuration whose origin lies in an input, and those of the configuration in force (R69, R86). -/
def sourcesAt (c : Sys2Proof.Cfg) (i : InputId) : List SourceCfg :=
  c.sources.filter (fun s => decide (s.kind = i.kind) &&
    match i.kind with
    | 0 => (c.rx.any (fun r => decide (r.num = i.num ∧ r.first ≤ s.origin ∧ s.origin < r.first + r.channels)))
    | 1 => decide (s.origin / 2 = i.num)
    | 2 => decide (s.origin / 32 = i.num)
    | _ => decide (s.origin = i.num))
def inputSources (n : Node) (i : InputId) : List SourceCfg := sourcesAt n.rt.cfg i

/-- The input-strip Shutters of the sources whose origin lies in an input, with those of the old instances of a transition
(R85). -/
def inputStrips (n : Node) (i : InputId) : List ShutterId :=
  (n.inputSources i).map (fun s => ⟨1, 0, s.num⟩) ++
  ((sourcesAt n.rt.old i).map (fun s => (⟨1, 8, s.num⟩ : ShutterId))).filter (fun id => (n.shut id).present)

/-- The bundle of an input, 0 for none (R86). -/
def inputBundle (n : Node) (i : InputId) : Nat := Graph.memberOf n.rt.cfg i

/-- The input-strip Shutters of a bundle's sources, and its sink members (DEDUCED, notes/assumptions/67.md). -/
def bundleStrips (n : Node) (b : Nat) : List ShutterId :=
  (n.rt.cfg.sources.filter (fun s => decide (s.bundle = b))).map (fun s => ⟨1, 0, s.num⟩) ++
  ((n.rt.old.sources.filter (fun s => decide (s.bundle = b))).map (fun s => (⟨1, 8, s.num⟩ : ShutterId))).filter (fun id => (n.shut id).present)
def bundleSinks (n : Node) (b : Nat) : List ShutterId :=
  (n.rt.cfg.sinks.filter (fun s => decide (s.bundle = b))).map (fun s => sinkShut s.id)

/-- A bundle's state. -/
def bundle (n : Node) (b : Nat) : BundleSt := Sparse.get (fun _ => {}) n.sht.bundles b
def setBundle (n : Node) (b : Nat) (s : BundleSt) : Node :=
  { n with sht := { n.sht with bundles := Sparse.set (fun _ => {}) n.sht.bundles b s } }

/-- Health of an input. -/
def inputKey (i : InputId) : Nat := i.kind * 65536 + i.num
def input (n : Node) (i : InputId) : InputHealth := Sparse.get (fun _ => {}) n.sht.inputs (inputKey i)
def setInput (n : Node) (i : InputId) (h : InputHealth) : Node :=
  { n with sht := { n.sht with inputs := Sparse.set (fun _ => {}) n.sht.inputs (inputKey i) h } }

/-- An event of a bundle is reported (R104): it takes effect at the next boundary, or at the one after where the bundle
cutoff, 500 ns before the boundary, has passed. `sinks` says that the sinks fade there too, for unfinished work. -/
def reportBundle (n : Node) (b : Nat) (sinks : Bool) : Node :=
  let st := n.bundle b
  if n.running ∧ n.nextBoundary ≤ n.clk.now + 58800 then n.setBundle b { st with late := true }
  else n.setBundle b { st with reported := true, sinksToo := st.sinksToo || sinks }

/-- An input fails: an underrun or overrun, or a validation failure (R87, R100). It fades its bundle, or else its own
sources, from the next boundary; `down` says that it stays unhealthy until it returns. -/
def inputFails (n : Node) (i : InputId) (invalid : Bool) (down : Bool) : Node :=
  let h := n.input i
  let n := n.setInput i { h with
    healthy := 0, event := true, down := h.down || down, missing := h.missing || !invalid, invalid := h.invalid || invalid }
  let b := n.inputBundle i
  if b = 0 then n else n.reportBundle b false

/-- An input that was down returns. -/
def inputReturns (n : Node) (i : InputId) : Node := n.setInput i { n.input i with down := false }

/-- The sources of an input are held at silence until it opens (R202, R257, R272); an input that opens lets them restore
from the next boundary. -/
def holdInput (n : Node) (i : InputId) : Node :=
  (n.inputStrips i).foldl (fun m id => m.modShut id (fun sh => { sh with waits := true, pstate := .faded })) n
def openInput (n : Node) (i : InputId) : Node :=
  (n.inputStrips i).foldl (fun m id => m.modShut id (fun sh => { sh with waits := false })) n

/-- Restore time of a bundle: the largest RESTORE among its strips and sinks (R105). -/
def bundleRestore (n : Node) (b : Nat) : Nat :=
  let rs := (n.bundleStrips b ++ n.bundleSinks b).map (fun id => rampUnits (n.shut id).cfg.restore)
  halfMsSamples (rs.foldl Nat.max 1) (rateHz n.rate)

/-- Every input member of a bundle has been healthy for 2 casements (R87). -/
def bundleHealthy (n : Node) (b : Nat) : Bool :=
  n.sht.inputs.all (fun e => decide (2 ≤ e.2.healthy) || decide (n.inputBundle ⟨e.1 / 65536, e.1 % 65536⟩ ≠ b))

/-- MUTE_N is recognised low, or SHT.CTRL.MUTE_ALL is 1 (R106). -/
def muteAsked (n : Node) : Bool := n.sht.mutePin || n.flag shtPage Fld.shtCtrlMuteAll

/-- M of R106: 4, 8 or 16 samples by rate class. -/
def muteLen (n : Node) : Nat := 2 * n.s / 3

/-- Cause 3 is set at every sink (R106): each fades from the first sample that it emits more than 250 ns from now. -/
def muteSet (n : Node) : Node :=
  let k := if n.running then n.samplesBegun (n.clk.now + 29400) else 0
  ({ n with sht := { n.sht with cause3 := true, muteClear := 0 } }).modShuts isSink (fun sh => setMute (k - sh.past.length) n.muteLen sh)

/-- The node's cause 3 is set and every sink has completed its fade (SHT.STAT.MUTED). -/
def muted (n : Node) : Bool :=
  n.sht.cause3 && (n.shutIds.filter isSink).all (fun id => decide ((n.shut id).pstate = .faded))

/-- Control-stage state as SHT.RD3.CSTATE codes it. -/
def cstate (sh : Shutter) : Nat :=
  if sh.held then 5
  else match sh.ramp with
    | none => if sh.gain = 0 then 1 else 0
    | some r => if r.target = 0 then 3 else if r.start = 0 then 2 else 4

/-- Protect-stage state as SHT.RD3.PSTATE codes it. -/
def pcode : PState → Nat
  | .clear => 0 | .fading => 1 | .faded => 2 | .restoring => 3

/-- Control gain times protect factor in Q3.29 at the last sample (R94, SHT.RD0) (DESIGN CHOICE, notes/assumptions/65.md). -/
def effectiveGain (sh : Shutter) : Word := sh.past.getLastD (gainProduct (gainNow sh) (factorNow sh))

/-- The words of SHT.RD0 to RD3 for a Shutter (R109). -/
def shutWords (id : ShutterId) (sh : Shutter) : List Word :=
  if sh.present then
    let left := match sh.pstate with
      | .fading | .restoring => sh.plen - sh.pdone
      | _ => match sh.ramp with
        | none => 0
        | some r => r.total - r.done
    [effectiveGain sh, sh.cfg.gain,
     BitVec.ofNat 32 ((if sh.cfg.shut || sh.unfed || sh.forced then 2 ^ 31 else 0) + sh.cfg.law % 4 * 2 ^ 28
       + (if hasProtect id then sh.cfg.restore % 4096 * 2 ^ 16 else 0) + sh.cfg.ramp % 4096),
     BitVec.ofNat 32 (Nat.min left 0xFFF * 2 ^ 20 + sh.causes.toNat * 256 + pcode sh.pstate * 16 + cstate sh)]
  else [0, 0, 0, 0]

/-- The Shutter that SHT.SEL selects. -/
def selShutter (n : Node) : ShutterId :=
  let k := n.fld shtPage Fld.shtSelKind
  ⟨k, if k = 4 then n.fld shtPage Fld.shtSelSinkKind else 0, n.fld shtPage Fld.shtSelIndex⟩

/-- The settings that SHT.WGAIN and SHT.WCFG hold for a push. -/
def pushCfg (n : Node) : ShutCfg :=
  { gain := n.reg shtPage 0x04C, shut := n.flag shtPage Fld.shtWcfgShut, law := n.fld shtPage Fld.shtWcfgLaw,
    ramp := n.fld shtPage Fld.shtWcfgRamp, restore := n.fld shtPage Fld.shtWcfgRestore }

/-- A request reaches a Shutter after `k` samples of the casement (R98): its stages run up to there. -/
def shutRequestAt (n : Node) (id : ShutterId) (req : ShutCfg) (k : Nat) : Node := (n.shutRunTo id k).shutRequest id req

/-- SHT.PUSH (R108): queue the selected Shutter's settings, apply them at once under IMMEDIATE, or refuse the push. -/
def shtPush (n : Node) : Node :=
  let id := n.selShutter
  let c := n.pushCfg
  let queued := n.sht.queue.any (fun e => decide (e.1 = id))
  let exists_ := decide (1 ≤ id.kind ∧ id.kind ≤ 4) && (n.shut id).present && !(n.shut id).dropping
  if !exists_ || (!queued && decide (256 ≤ n.sht.queue.length)) then
    (n.bump shtPage Fld.shtQstatDrops).irq shtPage 3
  else if n.fld shtPage Fld.pgCtrlCommitMode = 2 then n.shutRequestAt id c (n.nextSampleOf id)
  else
    let n := { n with sht := { n.sht with late := id :: n.sht.late.filter (fun x => decide (x ≠ id)) } }
    if queued then
      { n with sht := { n.sht with queue := n.sht.queue.map (fun e => if e.1 = id then (id, c) else e) } }
    else { n with sht := { n.sht with queue := n.sht.queue ++ [(id, c)] } }

/-- The queue is snapshotted (R108): pushes from here on stay for the next commit. -/
def snapQueue (n : Node) : Node := { n with sht := { n.sht with snapshot := n.sht.queue, late := [] } }

/-- SHT.CTRL.MUTE_ALL is written (R106). -/
def writeMuteAll (n : Node) (on : Bool) : Node :=
  let n := n.setFld shtPage Fld.shtCtrlMuteAll (if on then 1 else 0)
  if on then (if n.sht.cause3 then { n with sht := { n.sht with muteClear := 0 } } else n.muteSet) else n

/-- Queued settings take effect together (R108) (DEDUCED, notes/assumptions/66.md). -/
def applyPushes (n : Node) (es : List (ShutterId × ShutCfg)) : Node :=
  let n := { n with sht := { n.sht with queue := n.sht.queue.filter (fun e => !es.contains e || n.sht.late.contains e.1), late := [] } }
  es.foldl (fun m e => m.shutRequest e.1 e.2) n

/-- The samples of the casement that ends are run in every Shutter, whose states then are those of its end, with the gains of
its samples (R109). A removed Shutter that has closed is dropped (R76, R85). -/
def runShutters (n : Node) : Node :=
  let n := n.modShuts (fun _ => true) (runTo n.s)
  let keep := n.sht.shutters.filter (fun e => !(e.2.dropping && isClosed e.2))
  { n with sht := { n.sht with shutters := keep.map (fun e => (e.1, { e.2 with past := [] })), ended := keep } }

/-- One casement of an input's health (R100): an event or a standing failure restarts the count, and what failed stands
until the input has been healthy for 2 casements. -/
def runHealth (h : InputHealth) : InputHealth :=
  if h.event || h.down then { h with healthy := 0, event := false }
  else
    let k := Nat.min 2 (h.healthy + 1)
    { h with healthy := k, missing := h.missing && decide (k < 2), invalid := h.invalid && decide (k < 2) }

/-- Causes 0 and 7 that an input's health sets on its sources outside a bundle (R100). -/
def healthCauses (h : InputHealth) (sh : Shutter) : Shutter :=
  let sh := if h.missing then setCause 0 32 sh else sh
  if h.invalid then setCause 7 32 sh else sh

/-- Health of every input at a boundary (R100). -/
def runInputs (n : Node) : Node :=
  let step := runHealth
  let ins := n.sht.inputs.map (fun e => (e.1, step e.2))
  let bad := n.sht.inputs.filter (fun e => e.2.event)
  let good := (ins.filter (fun e => decide (2 ≤ e.2.healthy)))
  let n := { n with sht := { n.sht with inputs := ins.filter (fun e => decide (e.2 ≠ {})) } }
  let outside := fun (k : Nat) (f : ShutterId → Node → Node) (m : Node) =>
    let i : InputId := ⟨k / 65536, k % 65536⟩
    if m.inputBundle i = 0 then (m.inputStrips i).foldl (fun m id => f id m) m else m
  let n := bad.foldl (fun m e => outside e.1 (fun id m => m.modShut id (healthCauses e.2)) m) n
  good.foldl (fun m e => outside e.1 (fun id m => m.modShut id (fun sh => clearCause 7 (clearCause 0 sh))) m) n

/-- A bundle at a boundary (R104, R105). It is restored when the members that restored with it have completed: the sinks, where
any restores, one casement after the strips. -/
def runBundle (n : Node) (b : Nat) : Node :=
  let st := n.bundle b
  let strips := n.bundleStrips b
  let sinks := n.bundleSinks b
  let fadeAll := fun (m : Node) (ids : List ShutterId) => ids.foldl (fun m id => m.modShut id (setCause 1 32)) m
  -- sinks that follow one casement behind the strips
  let n := if st.sinksFade then fadeAll n sinks else n
  let joins := st.sinksRestore && sinks.any (fun id => mayRestore (clearCause 1 (n.shut id)))
  let n := if st.sinksRestore then
      sinks.foldl (fun m id => m.modShut id (fun sh => startRestore (m.bundleRestore b) (clearCause 1 sh))) n
    else n
  let st := if joins then { st with left := n.bundleRestore b + n.s } else st
  -- a report after the cutoff finds the casement's block on its way through the sinks, as unfinished work does
  let again := fun (m : Node) => m.setBundle b { m.bundle b with
    reported := (m.bundle b).reported || st.late, sinksToo := (m.bundle b).sinksToo || st.late, late := false }
  let n := if st.faded && n.bundleHealthy b && !st.reported then
      (strips ++ sinks).foldl (fun m id => m.modShut id (clearCause 1)) n
    else n
  let st := { st with sinksFade := false, sinksRestore := false }
  again <| if st.reported then
    let n := if st.faded && !st.restoring then n
      else (n.bump shtPage Fld.shtEventsBundleFades).irq shtPage 0
    let n := fadeAll n (if st.sinksToo then strips ++ sinks else strips)
    n.setBundle b { st with
      reported := false, sinksToo := false, sinksFade := !st.sinksToo, faded := true, restoring := false, left := 0 }
  else if st.restoring then
    if st.left ≤ n.s then
      let n := n.irq shtPage 1
      n.setBundle b { st with faded := false, restoring := false, left := 0 }
    else n.setBundle b { st with left := st.left - n.s }
  else if st.faded then
    let ready := fun (id : ShutterId) (lag : Nat) =>
      let sh := clearCause 1 (n.shut id)
      decide (sh.causes ≠ 0) || decide (sh.pstate = .faded) || decide (sh.pstate = .clear)
        || (decide (sh.pstate = .fading) && decide (sh.plen ≤ sh.pdone + lag))
    if n.bundleHealthy b && strips.all (fun id => ready id 0) && sinks.all (fun id => ready id n.s) then
      let t := n.bundleRestore b
      let n := strips.foldl (fun m id => m.modShut id (fun sh => startRestore t (clearCause 1 sh))) n
      n.setBundle b { st with
        restoring := true, sinksRestore := !sinks.isEmpty, left := t }
    else n.setBundle b st
  else n.setBundle b st

/-- Every bundle at a boundary. -/
def runBundles (n : Node) : Node :=
  let nums := (n.rt.cfg.bundles.map (·.num)) ++ n.sht.bundles.map (·.1)
  (nums.eraseDups).foldl (fun m b => m.runBundle b) n

/-- Cause 3 at a boundary (R106): it clears at the first boundary after one full casement without a request. -/
def runMute (n : Node) : Node :=
  if n.sht.cause3 then
    if n.muteAsked then { n with sht := { n.sht with muteClear := 0 } }
    else if n.sht.muteClear = 0 then { n with sht := { n.sht with muteClear := 1 } }
    else ({ n with sht := { n.sht with cause3 := false, muteClear := 0 } }).uncauseSinks 3
  else n

/-- Restores that start at a boundary outside a bundle's common restore (R102, R105): every cause clear, fade complete. A
bundle member that is still faded with its bundle waits for it, and restores over the bundle's time. -/
def runRestores (n : Node) : Node :=
  n.shutIds.foldl (fun m id =>
    let sh := m.shut id
    let b := if id.kind = 1 then ((m.rt.cfg.sources.find? (fun s => decide (s.num = id.index))).map (·.bundle)).getD 0
      else if id.kind = 4 then
        ((m.rt.cfg.sinks.find? (fun s => decide (s.id = ⟨id.sinkKind, id.index⟩))).map (·.bundle)).getD 0
      else 0
    let st := m.bundle b
    if !mayRestore sh || (decide (id.kind = 4) && st.sinksRestore) then m
    else if b = 0 then m.modShut id (startRestore (halfMsSamples (rampUnits sh.cfg.restore) (rateHz m.rate)))
    else if st.faded && !st.restoring then m
    else m.modShut id (startRestore (m.bundleRestore b))) n

/-- Protect cause 2 at a boundary (R62, R63, R100): sinks that failed in the casement that ends take the fade, counting those
that begin one, `held` sinks keep it, and a sink whose path has completed two casements loses it. -/
def runFailed (n : Node) (held : List SinkId) : Node :=
  let fails := n.sht.failed ++ held
  let failing := fun (id : ShutterId) => isSink id && fails.contains ⟨id.sinkKind, id.index⟩
  let fresh := (n.shutIds.filter (fun id => failing id && !(n.shut id).causes.getLsbD 2 &&
    decide ((n.shut id).pstate = .clear ∨ (n.shut id).pstate = .restoring))).length
  let n := n.modShuts (fun id => isSink id && !failing id) (fun sh =>
    if !sh.causes.getLsbD 2 then sh
    else if 1 ≤ sh.goodRuns then { clearCause 2 sh with goodRuns := 0 }
    else { sh with goodRuns := sh.goodRuns + 1 })
  let n := n.modShuts failing (fun sh => { setCause 2 32 sh with goodRuns := 0 })
  let n := if fresh = 0 then n else n.bump shtPage Fld.shtMutesEmergency fresh
  { n with sht := { n.sht with failed := [] } }

end Node

/-- BUNDLE_EVENT_REPORT (R104): a report to the SHT block; it takes effect at the next boundary. -/
def bundleEvent (n : Node) (b : Nat) (cause : BundleCause) : Node :=
  if b = 0 ∨ 255 < b then n
  else match cause with
    | .underrun i => (n.inputFails i false false).reportBundle b false
    | .validation i => (n.inputFails i true false).reportBundle b false
    | .unfinished => n.reportBundle b true

def execBundleEventReport (bundle : Nat) (cause : BundleCause) (s : State) : Host.Outcome State Fault Refusal :=
  s.hub (fun n => bundleEvent n bundle cause)

/-- SHUTTER_REQUEST (R98): the running ramp has run `sample` samples since the last boundary. -/
def shutterRequested (n : Node) (id : ShutterId) (req : ShutCfg) (sample : Nat) : Node := n.shutRequestAt id req sample

def execShutterRequest (id : ShutterId) (req : ShutCfg) (sample : Nat) (s : State) : Host.Outcome State Fault Refusal :=
  s.hub (fun n => shutterRequested n id req sample)

/-- SHUTTER_RAMP_END (R96): the ramp's last sample carries its target exactly. -/
def execShutterRampEnd (id : ShutterId) (s : State) : Host.Outcome State Fault Refusal :=
  s.hub (fun n => n.modShut id endRamp)

/-- PROTECT_FADE_END (R101): the fade holds 0. -/
def execProtectFadeEnd (id : ShutterId) (s : State) : Host.Outcome State Fault Refusal :=
  s.hub (fun n => n.modShut id endFade)

/-- PROTECT_RESTORE_END (R102): the factor stands at unity. -/
def execProtectRestoreEnd (id : ShutterId) (s : State) : Host.Outcome State Fault Refusal :=
  s.hub (fun n => n.modShut id endRestore)

/-- MUTE_N_ASSERT (R106): MUTE_N is recognised low. -/
def muteAssert (n : Node) : Node :=
  if n.sht.mutePin || !n.sil.powered then n
  else
    let n := { n with sht := { n.sht with mutePin := true, muteClear := 0 } }
    let n := (n.bump shtPage Fld.shtMutesPin).irq shtPage 2
    if n.sht.cause3 then n else n.muteSet

def execMuteNAssert (s : State) : Host.Outcome State Fault Refusal := s.act (fun n => muteAssert n)

/-- MUTE_N_RELEASE (R106): MUTE_N is recognised high; cause 3 clears by the boundary rule. -/
def execMuteNRelease (s : State) : Host.Outcome State Fault Refusal :=
  s.act (fun n => { n with sht := { n.sht with mutePin := false, muteClear := 0 } })

/-- REFILL_HOLD_END (R91, R99): the hold of a path ends and its Shutter opens over its ramp. XPT.HELD reaching 0 sets
XPT PG_IRQ bit 3. -/
def refillEnd (n : Node) (id : ShutterId) : Node :=
  let held := fun (m : Node) => (m.strips.filter (fun e => e.2.held)).length
  if (n.shut id).held then
    let m := n.modShut id (fun sh => if sh.inHold then sh else releaseShutter (rateHz n.rate) sh)
    let m := { m with strips := m.strips.map (fun e => if e.1 = id.kind * 4096 + id.index then (e.1, { e.2 with held := false, refill := 0 }) else e) }
    if held n ≠ 0 ∧ held m = 0 then m.irq ⟨.xpt, 0⟩ 3 else m
  else n

def execRefillHoldEnd (path : ShutterId) (s : State) : Host.Outcome State Fault Refusal :=
  s.hub (fun n => refillEnd n path)

end Sys2Proof.Machine
end

