-- ==== Sys2Proof/Machine/Drive.lean ====
section
/-! DEFINITION. Drive outputs (R274 to R299): channel states, release groups, stops, trips, identity frames, the safe state,
fencing of hinged channels and rail demand, and the commands of the family that are events. -/

namespace Sys2Proof.Machine

open Sys2Proof (Word Byte Sparse Page Block Die Port Src Chan TripCause)

def modPage (k : Nat) : Page := ⟨.mod, k⟩
def snsPage : Page := ⟨.sns, 0⟩
def railPage : Page := ⟨.rail, 0⟩

/-- Codes of R288. -/
def stOff : Nat := 0
def stHold : Nat := 1
def stReleasing : Nat := 2
def stRun : Nat := 3
def stStopping : Nat := 4
def stTripped : Nat := 5
def stSevere : Nat := 6
def stStandby : Nat := 7
def stFencing : Nat := 8
def stSafe : Nat := 9

/-- The timing counter in Hz (R276). -/
def timingHz : Nat := 786432000

/-- Timing steps from a boundary to the group's period 0 (R290): the first step at or after 2,000 ns. -/
def releaseSteps : Nat := 1573

/-- The Shutter of a drive sink. -/
def drvSink (c : Nat) : ShutterId := ⟨4, 3, c⟩

/-- PERIOD as it acts in its mode (R277), and whether it was clamped. -/
def clampPeriod (cmode : Bool) (p : Nat) : Nat × Bool :=
  let lo := if cmode then 894 else 656
  let hi := if cmode then 2621 else 873
  if p < lo then (lo, true) else if hi < p then (hi, true) else (p, false)

namespace Node

/-- A field of a channel's registers. -/
def chFld (n : Node) (c : Nat) (f : Nat → Field) : Nat := n.fld (modPage (c / 8)) (f (c % 8))
def chSet (n : Node) (c : Nat) (f : Nat → Field) (v : Nat) : Node := n.setFld (modPage (c / 8)) (f (c % 8)) v
def chAct (n : Node) (c : Nat) (f : Nat → Field) : Nat := n.act (modPage (c / 8)) (f (c % 8))

/-- CHSTAT.STATE; a change sets the channel's PG_IRQ bit. -/
def chState (n : Node) (c : Nat) : Nat := n.chFld c Fld.modChstatState
def toState (n : Node) (c st : Nat) : Node :=
  if n.chState c = st then n else (n.chSet c Fld.modChstatState st).irq (modPage (c / 8)) (c % 8)

/-- The channel's MOD page is Active. -/
def chActive (n : Node) (c : Nat) : Bool := (n.hdr (modPage (c / 8))).active

def chEnabled (n : Node) (c : Nat) : Bool := decide (n.chFld c Fld.modChctlChEn = 1)
def chGroup (n : Node) (c : Nat) : Nat := n.chAct c Fld.modChctlRgroup
def chHinged (n : Node) (c : Nat) : Bool := decide (n.chAct c Fld.modChctlRole = 1)

/-- The channels of a release group on Active pages (R277, R289). -/
def groupChans (n : Node) (g : Nat) : List Nat :=
  (List.range 192).filter (fun c => decide (n.chState c ≠ stOff) && decide (n.chGroup c = g))

/-- CHSTAT.GRP_ERR (R277, R284): a PERIOD mismatch in the group, or HINGED without DUAL_INPUT. -/
def grpErr (n : Node) (c : Nat) : Bool :=
  (n.groupChans (n.chGroup c)).any (fun k => decide ((n.drv k).period ≠ (n.drv c).period))
    || (n.chHinged c && decide (n.chFld c Fld.modChstatIdOk = 1) && !(n.drv c).dualInput)

/-- The conditions of R289 for one channel (DEDUCED, notes/assumptions/107.md). -/
def mayRelease (n : Node) (c : Nat) : Bool :=
  n.chEnabled c && decide (n.chFld c Fld.modChstatIdOk = 1) && !(n.drv c).notFree && !(n.drv c).cooling
    && (!n.chHinged c || n.dutyLeases.getLsbD (n.chGroup c)) && !n.grpErr c && n.running && !n.sil.safe

/-- The channel leaves ZERO on the group's period 0 (R290): HALF where the stage releases in step, otherwise the ramp, with
its sink Shutter held at 0. -/
def releaseChan (n : Node) (c : Nat) : Node :=
  let n := n.toState c stReleasing
  let n := n.chSet c Fld.modChstatRamped (if (n.drv c).stepRelease then 0 else 1)
  let n := n.modDrv c (fun d => { d with
    pins := .half, marks := true, alone := false, periods := 0, lead := releaseSteps + d.phase, integ := 0, samples := [] })
  n.modShut (drvSink c) (fun sh => { holdShutter sh with forced := false })

/-- A channel's pins go to ZERO, with the loop open and no marks, and its sink Shutter at 0. -/
def zeroChan (n : Node) (c : Nat) : Node :=
  let n := n.modDrv c (fun d => { d with
    pins := .zero, loop := false, marks := false, stop := .none, fromRun := false, fadeAt := 0, integ := 0, samples := [], widths := [] })
  ((n.chSet c Fld.modChstatFollowed 0).chSet c Fld.modChstatBusy 0).modShut (drvSink c) holdShutter

/-- HOLD, or OFF where the page is not Active (R288, R292). -/
def restChan (n : Node) (c : Nat) : Node :=
  if n.chActive c then n.toState c stHold
  else (n.modDrv c (fun d => { d with pins := .highZ, toOff := false, retry := false, alone := false })).toState c stOff

/-- HOLD and STANDBY follow the lease of a hinged channel (R288, R296). -/
def leaseChan (n : Node) (c : Nat) : Node :=
  let held := !n.chHinged c || n.dutyLeases.getLsbD (n.chGroup c)
  if n.chState c = stHold ∧ !held then n.toState c stStandby
  else if n.chState c = stStandby ∧ held ∧ !(n.drv c).notFree then n.toState c stHold
  else n

/-- One release group at a boundary (R289): it releases where every enabled member that is not TRIPPED or SEVERE and has not
been left behind meets the conditions. -/
def releaseGroup (n : Node) (g : Nat) : Node :=
  let ms := (n.groupChans g).filter (fun c => n.chEnabled c && !(n.drv c).alone
    && decide (n.chState c ≠ stTripped ∧ n.chState c ≠ stSevere))
  let ready := fun (c : Nat) => decide (n.chState c = stHold) && !(n.drv c).retry
  let first := fun (m : Node) (v : Nat) =>
    { m with drive := { m.drive with firstMet := Sparse.set (fun _ => 0) m.drive.firstMet g v } }
  let old := Sparse.get (fun _ => 0) n.drive.firstMet g
  if ms.isEmpty then n
  else if ms.all n.mayRelease then (ms.filter ready).foldl (fun m c => m.releaseChan c) (if old = 0 then n else first n 0)
  else if old = 0 && ms.any (fun c => ready c && n.mayRelease c) then first n (n.clk.now + 1)
  else n

/-- Releases at a casement boundary (R289, R290): the groups, then channels that release alone. -/
def runReleases (n : Node) : Node :=
  if !n.boot.drvPresent then n
  else
    let cs := (List.range 192).filter (fun c => decide (n.chState c ≠ stOff))
    let n := cs.foldl (fun m c => m.leaseChan c) n
    let n := ((cs.map n.chGroup).eraseDups).foldl (fun m g => m.releaseGroup g) n
    (cs.filter (fun c => (n.drv c).alone)).foldl (fun m c =>
      if m.chState c = stHold ∧ !(m.drv c).retry ∧ m.mayRelease c then m.releaseChan c else m) n

/-- A stop is asked of a channel (R288, R292) (DEDUCED, notes/assumptions/109.md). -/
def askStop (n : Node) (c : Nat) : Node :=
  if n.chState c = stRun ∨ n.chState c = stReleasing then
    if (n.drv c).stop = .none then n.modDrv c (fun d => { d with stop := .asked }) else n
  else n

/-- The sink Shutter closes over its RAMP, keeping its settings (R107, R292), and opens again. -/
def closeSink (n : Node) (c : Nat) : Node := n.forceShut (drvSink c) true
def openSink (n : Node) (c : Nat) : Node := n.forceShutNow (drvSink c) false

/-- One channel's stop at a boundary (R292). -/
def runStop (n : Node) (c : Nat) : Node :=
  match (n.drv c).stop with
  | .asked =>
    let ran := decide (n.chState c = stRun)
    let n := ((n.toState c stStopping).chSet c Fld.modChstatBusy 1).modDrv c (fun d => { d with stop := .fading, loop := false, fromRun := ran })
    n.closeSink c
  | .fading =>
    let sh := n.shut (drvSink c)
    if !sh.present ∨ sh.held ∨ isClosed sh then n.modDrv c (fun d => { d with stop := .ending, pins := .half, periods := 0 }) else n
  | _ => n

def runStops (n : Node) : Node := ((n.drive.ch.map (·.1)).filter (fun c => decide (c < 192))).foldl (fun m c => m.runStop c) n

/-- The first carrier period at or after a boundary is marked on channels that release, run or stop (R286). -/
def runMarks (n : Node) : Node :=
  (n.drive.ch.map (·.1)).foldl (fun m c =>
    if m.chState c = stReleasing ∨ m.chState c = stRun ∨ m.chState c = stStopping then
      m.modDrv c (fun d => { d with marks := true })
    else m) n

/-- Trips of a channel within the last 10 s. -/
def tripsRecent (n : Node) (c : Nat) : Nat :=
  ((n.drv c).trips.filter (fun t => decide (n.clk.now - t ≤ 10000 * Config.millisecond))).length

/-- The channel has an unacknowledged trip record (R295). -/
def tripRecorded (n : Node) (c : Nat) : Bool :=
  (n.pageFaults (modPage (c / 8))).any (fun r => decide ((r.code = 1 ∨ r.code = 2) ∧ r.detail = BitVec.ofNat 32 c))

/-- A channel trips (R293 to R295): ZERO at once, the loop open and the sink Shutter at 0; the fourth trip within any 10 s
goes to SEVERE (DEDUCED, notes/assumptions/108.md). -/
def trip (n : Node) (c cause code : Nat) : Node :=
  let st := n.chState c
  if st = stRun ∨ st = stStopping ∨ st = stFencing ∨ (st = stReleasing ∧ n.chFld c Fld.modChstatFollowed = 1) then
    let severe := decide (3 ≤ n.tripsRecent c)
    let n := n.zeroChan c
    let n := n.modDrv c (fun d => { d with
      trips := (n.clk.now :: d.trips).take 16, cooling := true, coolAt := n.clk.now, alone := true, toStandby := decide (st = stFencing), frame := [] })
    let n := ((n.chSet c Fld.modChstatTripCause cause).chSet c Fld.modChstatIdOk 0).chSet c Fld.modChstatPending 0
    let n := n.toState c (if severe then stSevere else stTripped)
    let n := n.bump (modPage (c / 8)) (Fld.modTripsTotal (c % 8))
    let n := if n.tripRecorded c then n.setFld (modPage (c / 8)) Fld.pgFltcapMore 1
      else n.raiseFault (modPage (c / 8)) code (BitVec.ofNat 32 c)
    if severe then n.raiseFault (modPage (c / 8)) 3 (BitVec.ofNat 32 c) else n
  else n

/-- A MODk page becomes Active: its eight channels leave OFF for HOLD (R288). -/
def modStart (n : Node) (k : Nat) : Node :=
  ((List.range 8).map (fun j => 8 * k + j)).foldl (fun m c =>
    let m := m.modDrv c (fun d => { d with toOff := false })
    if m.chState c = stOff then
      ((m.modDrv c (fun d => { d with pins := .zero })).toState c (if m.sil.safe then stSafe else stHold)).leaseChan c
    else m) n

/-- A MODk page shuts down (R288, R292): channels that release or run stop, and those at ZERO go to OFF. -/
def modStop (n : Node) (k : Nat) : Node :=
  ((List.range 8).map (fun j => 8 * k + j)).foldl (fun m c =>
    let st := m.chState c
    let m := m.modDrv c (fun d => { d with toOff := true })
    if st = stRun ∨ st = stReleasing then m.askStop c
    else if st = stStopping ∨ st = stFencing ∨ st = stOff ∨ st = stTripped ∨ st = stSafe then m
    else (m.modDrv c (fun d => { d with pins := .highZ, toOff := false })).toState c stOff) n

/-- Every channel of a MODk page is OFF. -/
def modIdle (n : Node) (k : Nat) : Bool := (List.range 8).all (fun j => decide (n.chState (8 * k + j) = stOff))

/-- The safe state's effect on the drive die (R299, R328): every channel but OFF ones at ZERO in SAFE, rail demands low. -/
def driveSafe (n : Node) : Node :=
  if !n.boot.drvPresent then n.railsLow
  else
    ((List.range 192).foldl (fun m c => if m.chState c = stOff then m else
      ((m.zeroChan c).chSet c Fld.modChstatPending 0).toState c stSafe) n).railsLow

/-- The safe state is released: channels start from HOLD (R288, R299). -/
def driveUnsafe (n : Node) : Node :=
  if !n.boot.drvPresent then n
  else
    let n := (List.range 192).foldl (fun m c => if m.chState c = stSafe then (m.restChan c).leaseChan c else m) n
    if (n.hdr railPage).active then { n with pins := { n.pins with rail := .live } } else n

/-- A drive lease is fenced (R296): its channels that release, run or stop go to FENCING, and those in HOLD to STANDBY. -/
def fenceGroup (n : Node) (g : Nat) : Node :=
  if !n.boot.drvPresent then n
  else (List.range 192).foldl (fun m c =>
    let st := m.chState c
    if !m.chHinged c ∨ m.chGroup c ≠ g then m
    else if st = stRun ∨ st = stReleasing ∨ st = stStopping then
      (m.modDrv c (fun d => { d with marks := false, loop := false, stop := .none })).toState c stFencing
    else if st = stHold then m.toState c stStandby
    else m) n

/-- No channel of a drive lease is still FENCING. -/
def groupFenced (n : Node) (g : Nat) : Bool :=
  (List.range 192).all (fun c => !(n.chHinged c && decide (n.chGroup c = g)) || decide (n.chState c ≠ stFencing))

/-- A committed CARRIER waits for the first carrier period after the boundary (R277), on the channels whose CARRIER the commit changed. -/
def carrierCommit (n : Node) (cs : List Nat) : Node := cs.foldl (fun m c => m.modDrv c (fun d => { d with carrierWaits := true })) n

/-- A committed CARRIER applies (R277): limits of the mode, PHASE below PERIOD. -/
def applyCarrier (n : Node) (c : Nat) : Node :=
  if !(n.drv c).carrierWaits ∨ n.chState c = stReleasing then n
  else
    let cm := decide (n.chAct c Fld.modCarrierCmode = 1)
    let p := clampPeriod cm (n.chAct c Fld.modCarrierPeriod)
    let ph := Nat.min (n.chAct c Fld.modCarrierPhase) (p.1 - 1)
    let n := n.modDrv c (fun d => { d with cmode := cm, period := p.1, phase := ph, carrierWaits := false })
    if p.2 then n.bump (modPage (c / 8)) (Fld.modClipPclamp (c % 8)) else n

/-- A channel is RELEASING, RUN or STOPPING (R297). -/
def chPlays (n : Node) (c : Nat) : Bool :=
  let st := n.chState c
  decide (st = stReleasing ∨ st = stRun ∨ st = stStopping)

/-- Rail group g runs: some channel of it is RELEASING, RUN or STOPPING (R297). -/
def railRuns (n : Node) (g : Nat) : Bool := [0, 1, 2, 3].any (fun j => n.chPlays (4 * g + j))

/-- Units of demand: 9,408 of them are one step of 1/4,096 (DEDUCED, notes/assumptions/110.md). -/
def railUnit : Nat := 9408

/-- A rail group's demand at a boundary (R297, R298), with the peaks of this casement and of the next in 2^-31. -/
def railUpdate (n : Node) (peaks looks : List Nat) (short : List Nat) (g : Nat) : Node :=
  let cfg := fun (f : Field) => n.fld railPage f g
  let d := Sparse.get (fun _ => 0) n.drive.rails g
  let look := decide (cfg Fld.railCfgLook = 1)
  let p := if look then Nat.max (peaks.getD g 0) (looks.getD g 0) else peaks.getD g 0
  let t := if n.railRuns g then Nat.min (4096 * railUnit) (cfg Fld.railCfgFloor * railUnit + cfg Fld.railCfgHeadroom * p * 147 / 2 ^ 19) else 0
  let fall := Nat.max 1 (cfg Fld.railCfgDecay) * (if n.rate % 2 = 0 then 1280 else 1176)
  let d' := if (n.hdr railPage).active ∧ cfg Fld.railCfgEnable = 1 ∧ !n.sil.safe then (if d ≤ t then t else Nat.max t (d - fall)) else 0
  let n := { n with drive := { n.drive with rails := Sparse.set (fun _ => 0) n.drive.rails g d' } }
  let n := n.setFld railPage Fld.railStatShortLook (if look && short.contains g then 1 else 0) g
  let n := n.peak railPage Fld.railStatPeak (d' / railUnit) g
  if d' = 4096 * railUnit ∧ d ≠ d' then n.irq railPage 0 else n

def runRails (n : Node) (peaks looks : List Nat) (short : List Nat) : Node :=
  if n.boot.drvPresent ∧ ((n.hdr railPage).active ∨ n.drive.rails ≠ []) then
    (List.range 48).foldl (fun m g => m.railUpdate peaks looks short g) n
  else n

/-- Milliseconds of cool-down left (R294). -/
def coolLeft (n : Node) (c : Nat) : Nat :=
  if (n.drv c).cooling then 500 - (n.clk.now - (n.drv c).coolAt) / Config.millisecond else 0

/-- What a channel's registers that show state read as. -/
def modView (n : Node) (k off : Nat) : Option Word :=
  if off < 0x040 ∨ 0x140 ≤ off then none
  else
    let j := (off - 0x040) / 0x20
    let c := 8 * k + j
    match (off - 0x040) % 0x20 with
    | 0x10 => some (setWordField (setWordField (n.reg (modPage k) off) (Fld.modChstatCoolLeft j) (n.coolLeft c))
        (Fld.modChstatGrpErr j) (if n.grpErr c then 1 else 0))
    | 0x14 => some (setWordField (n.reg (modPage k) off) (Fld.modTripsWindow j) (n.tripsRecent c))
    | _ => none

/-- The demand that a group's RAIL_DMD carries: none where CFG.ENABLE is 0 (R297). -/
def railDemand (n : Node) (g : Nat) : Nat :=
  if n.fld railPage Fld.railCfgEnable g = 0 then 0 else Sparse.get (fun _ => 0) n.drive.rails g

/-- A RAIL_DMD ball: a density of 0 is a static low (R297). -/
def railBall (n : Node) (g : Nat) : Drive :=
  if n.pins.rail = .live ∧ n.railDemand g = 0 then .low else n.pins.rail

/-- What RAIL.STAT of a group reads as. -/
def railView (n : Node) (off g : Nat) : Option Word :=
  match off with
  | 0x048 => some (setWordField (n.reg railPage 0x048 g) Fld.railStatNow (Nat.min 4095 (n.railDemand g / railUnit)))
  | _ => none

end Node

/-- The loop is closed in RUN, unless LOOP.BW is 0b00 (R281). -/
def Node.loopFollows (n : Node) (c : Nat) : Node :=
  let closed := decide (n.chState c = stRun ∧ n.fld (modPage (c / 8)) (Fld.modLoopBw (c % 8)) ≠ 0)
  if (n.drv c).loop = closed then n else n.modDrv c (fun d => { d with loop := closed })

/-- The limit of the modulation index (R275), ±0.98, for an index in 2^-45 ÷ 50. -/
def modLimit : Int := 49 * 2 ^ 45

/-- Steps for which MODA and MODB are high in a carrier period of `p` steps at an index in 2^-45 ÷ 50 within the limit (R275); the count is
rounded half up (DESIGN CHOICE, notes/assumptions/205.md). HALF is the index 0. -/
def modWidths (p : Nat) (m : Int) : Nat × Nat :=
  let m := max (-modLimit) (min modLimit m)
  let w := (((p : Int) * (50 * 2 ^ 45 + m) * 2 + 100 * 2 ^ 45) / (200 * 2 ^ 45)).toNat
  (w, p - w)

/-- Periods of the common-mode ramp, and the width of both pulses in its period `k` of `q` steps (R290); a stop runs them in reverse
(R292). -/
def rampPeriods (p : Nat) : Nat := ceilDiv 15728640 p
def rampWidth (p q k : Nat) : Nat :=
  let d := 2 * rampPeriods p
  ((k + 1) * q * 2 + d) / (2 * d)

/-- A write of CHCTL.CH_EN := 1 (R288, R289, R292). -/
def enableChan (n : Node) (c : Nat) : Node :=
  let n := n.chSet c Fld.modChctlChEn 1
  match (n.drv c).stop with
  | .asked => if (n.drv c).toOff then n else n.modDrv c (fun d => { d with stop := .none })
  | .fading =>
    if (n.drv c).toOff then n.chSet c Fld.modChstatPending 1
    else
      let ran := (n.drv c).fromRun
      let n := (n.modDrv c (fun d => { d with stop := .none, fromRun := false })).chSet c Fld.modChstatBusy 0
      if ran then ((n.openSink c).toState c stRun).loopFollows c
      else (n.modShut (drvSink c) (fun sh => { holdShutter sh with forced := false })).toState c stReleasing
  | .ending => n.chSet c Fld.modChstatPending 1
  | .none => n

/-- A write of CHCTL.CH_EN := 0 (R288, R292). -/
def disableChan (n : Node) (c : Nat) : Node :=
  ((n.chSet c Fld.modChctlChEn 0).chSet c Fld.modChstatPending 0).askStop c

/-- A write of CHCTL.CLEAR (R294): SEVERE ends, and the trip record empties. -/
def clearChan (n : Node) (c : Nat) : Node :=
  let n := n.modDrv c (fun d => { d with trips := [] })
  if n.chState c = stSevere then (n.restChan c).leaseChan c else n

/-- LATE_MEMBER_TIMEOUT (R289): members that still fail 100 ms after the first met the conditions are left behind. -/
def lateMembers (n : Node) (g : Nat) : Node :=
  if Sparse.get (fun _ => 0) n.drive.firstMet g = 0 then n
  else
    let late := (n.groupChans g).filter (fun c => n.chEnabled c && !n.mayRelease c
      && decide (n.chState c = stHold ∨ n.chState c = stStandby))
    late.foldl (fun m c => (m.modDrv c (fun d => { d with alone := true })).chSet c Fld.modChstatLateMember 1) n

def execLateMemberTimeout (group : Fin 64) (s : State) : Host.Outcome State Fault Refusal :=
  s.hub (fun n => lateMembers n group)

/-- Result of checking an identity frame for a channel (R283, R284). -/
def identityResult (c : Nat) (f : List Byte) : Nat :=
  let b := fun (k : Nat) => (f.getD k 0).toNat
  if f.length ≠ 32 ∨ b 0 ≠ 0x7E ∨ b 1 ≠ 0x5A ∨ crc16 (f.take 30) ≠ b 30 * 256 + b 31 then 2
  else if b 2 = 0 ∨ 3 < b 2 then 3
  else if b 10 ≠ c / 4 ∧ b 10 ≠ 0xFF then 4
  else if b 18 % 4 ≠ 0 then 5
  else if b 2 = 3 ∧ b 18 / 4 % 2 = 1 then 7
  else 1

/-- The channel reads identity frames (R282). -/
def readsIdentity (n : Node) (c : Nat) : Bool :=
  let st := n.chState c
  decide (st = stHold ∨ st = stStandby ∨ st = stTripped ∨ st = stSevere ∨ st = stSafe)
    || (decide (st = stReleasing) && decide (n.chFld c Fld.modChstatFollowed = 0))

/-- The latest identity result of a channel; a change sets SNS PG_IRQ bit 0. -/
def setIdResult (n : Node) (c r : Nat) : Node :=
  if n.fld snsPage Fld.snsIdstatResult c = r then n else (n.setFld snsPage Fld.snsIdstatResult r c).irq snsPage 0

/-- The words that ID0 to ID7 show for a frame (SNS.ID0). -/
def idWords (f : List Byte) : List Word :=
  (List.range 8).map (fun i => BitVec.ofNat 32 ([0, 1, 2, 3].foldl (fun v j => v * 256 + (f.getD (4 * i + j) 0).toNat) 0))

/-- IDENTITY_FRAME_RECEIVED (R284, R291): `period` carrier periods have begun since the release where one runs. -/
def identityFrame (n : Node) (c : Nat) (f : List Byte) (period : Nat) : Node :=
  if !readsIdentity n c then n
  else
    let r := identityResult c f
    if r = 1 ∨ r = 7 then
      let same := decide ((n.drv c).frame = f)
      let caps := (f.getD 9 0).toNat
      let n := n.bump snsPage Fld.snsIdstatFrames 1 c
      let n := n.setFld snsPage Fld.snsIdstatVersion (f.getD 2 0).toNat c
      let n := (((idWords f).zip (List.range 8)).foldl (fun m e => m.setReg snsPage (0x048 + 4 * e.2) e.1 c) n)
      let n := n.modDrv c (fun d => { d with frame := f, notFree := decide (r = 7) })
      let n := if same then
          let n := n.modDrv c (fun d => { d with stepRelease := decide (caps % 2 = 1), dualInput := decide (caps / 2 % 2 = 1) })
          setIdResult (n.chSet c Fld.modChstatIdOk 1) c r
        else n
      if r = 7 ∧ n.chState c = stReleasing ∧ 16 < period then
        let n := (n.zeroChan c).modDrv c (fun d => { d with retry := true })
        ((n.restChan c).chSet c Fld.modChstatNotFollowed 1).irq (modPage (c / 8)) (c % 8)
      else n
    else
      let n := (n.bump snsPage Fld.snsIdstatBad 1 c).chSet c Fld.modChstatIdOk 0
      setIdResult (n.modDrv c (fun d => { d with frame := [], notFree := false })) c r

def execIdentityFrameReceived (ch : Chan) (frame : List Byte) (period : Nat) (s : State) :
    Host.Outcome State Fault Refusal :=
  s.hub (fun n => identityFrame n ch frame period)

/-- NO_STAGE_TIMEOUT (R284): no transition on SNS_n for 1 ms. -/
def noStage (n : Node) (c : Nat) : Node :=
  if readsIdentity n c then
    setIdResult ((n.chSet c Fld.modChstatIdOk 0).modDrv c (fun d => { d with frame := [], notFree := false })) c 6
  else n

def execNoStageTimeout (ch : Chan) (s : State) : Host.Outcome State Fault Refusal := s.hub (fun n => noStage n ch)

/-- SENSE_FOLLOWED (R290): two markers received; the sense stream is locked. -/
def senseFollowed (n : Node) (c : Nat) : Node :=
  if n.chState c = stReleasing then n.chSet c Fld.modChstatFollowed 1 else n

def execSenseFollowed (ch : Chan) (s : State) : Host.Outcome State Fault Refusal := s.hub (fun n => senseFollowed n ch)

/-- CHANNEL_RUN (R290): the loop closes from zero and the sink Shutter opens over its RAMP. -/
def channelRun (n : Node) (c : Nat) : Node :=
  if n.chState c = stReleasing ∧ n.chFld c Fld.modChstatFollowed = 1 then
    let closed := decide (n.fld (modPage (c / 8)) (Fld.modLoopBw (c % 8)) ≠ 0)
    let n := (n.toState c stRun).modDrv c (fun d => { d with pins := .mod, loop := closed })
    n.modShut (drvSink c) (releaseShutter (rateHz n.rate))
  else n

def execChannelRun (ch : Chan) (s : State) : Host.Outcome State Fault Refusal := s.hub (fun n => channelRun n ch)

/-- FOLLOW_TIMEOUT (R291). -/
def followTimeout (n : Node) (c : Nat) : Node :=
  if n.chState c = stReleasing ∧ n.chFld c Fld.modChstatFollowed = 0 then
    let n := (n.zeroChan c).modDrv c (fun d => { d with retry := true })
    ((n.restChan c).chSet c Fld.modChstatFollowTmo 1).irq (modPage (c / 8)) (c % 8)
  else n

def execFollowTimeout (ch : Chan) (s : State) : Host.Outcome State Fault Refusal := s.hub (fun n => followTimeout n ch)

/-- RELEASE_RETRY_EXPIRY (R291): 500 ms after a failed follow the channel may release again. -/
def execReleaseRetryExpiry (ch : Chan) (s : State) : Host.Outcome State Fault Refusal :=
  s.hub (fun n => n.modDrv ch (fun d => { d with retry := false }))

/-- STOP_COMPLETE (R292): ZERO is reached; HOLD, or OFF where the page is not Active. -/
def stopComplete (n : Node) (c : Nat) : Node :=
  if n.chState c = stStopping ∧ (n.drv c).stop = .ending then
    ((n.zeroChan c).restChan c).chSet c Fld.modChstatPending 0
  else n

def execStopComplete (ch : Chan) (s : State) : Host.Outcome State Fault Refusal := s.hub (fun n => stopComplete n ch)

/-- CHANNEL_TRIP (R293): a coarse current value trips where it exceeds PROT.ILIM. -/
def channelTrip (n : Node) (c : Nat) : TripCause → Node
  | .overcurrent coarse => if n.chFld c Fld.modProtIlim < coarse then n.trip c 1 1 else n
  | .staticHigh => n.trip c 2 2
  | .staticLow => n.trip c 3 2

def execChannelTrip (ch : Chan) (cause : TripCause) (s : State) : Host.Outcome State Fault Refusal :=
  s.hub (fun n => channelTrip n ch cause)

/-- SENSE_LOST (R285, R293): three consecutive missing markers, handled as a stage trip. -/
def execSenseLost (ch : Chan) (s : State) : Host.Outcome State Fault Refusal := s.hub (fun n => n.trip ch 4 2)

/-- COOL_DOWN_END (R294, R299). -/
def coolDownEnd (n : Node) (c : Nat) : Node :=
  if n.chState c = stTripped then
    let standby := (n.drv c).toStandby
    let n := n.modDrv c (fun d => { d with cooling := false, toStandby := false })
    if standby ∧ n.chActive c then n.toState c stStandby else (n.restChan c).leaseChan c
  else n.modDrv c (fun d => { d with cooling := false })

def execCoolDownEnd (ch : Chan) (s : State) : Host.Outcome State Fault Refusal := s.hub (fun n => coolDownEnd n ch)

/-- CARRIER_APPLY (R277). -/
def execCarrierApply (ch : Chan) (s : State) : Host.Outcome State Fault Refusal := s.hub (fun n => n.applyCarrier ch)

/-- FENCING_COMPLETE (R296): the fade has ended and both pins reach ZERO. -/
def fencingComplete (n : Node) (c : Nat) : Node :=
  if n.chState c = stFencing then
    let n := n.zeroChan c
    if n.chActive c then n.toState c stStandby else n.restChan c
  else n

def execFencingComplete (ch : Chan) (s : State) : Host.Outcome State Fault Refusal := s.hub (fun n => fencingComplete n ch)

/-- DRIVE_BLOCK_MISSING_STOP (R299): after 8 casements without a block, channels in RUN stop without a fade. -/
def blockMissingStop (n : Node) : Node :=
  if n.drive.missing < 8 then n
  else (List.range 192).foldl (fun m c => if m.chState c = stRun then
    ((m.toState c stStopping).chSet c Fld.modChstatBusy 1).modDrv c (fun d => { d with stop := .ending, pins := .half, loop := false, periods := 0 })
    else m) n

def execDriveBlockMissingStop (s : State) : Host.Outcome State Fault Refusal := s.hub blockMissingStop

end Sys2Proof.Machine
end

