-- ==== Sys2Proof/Machine/Dram.lean ====
section
/-! DEFINITION. The DRAM controller (R300 to R314): ranks and windows, refresh, activate counting, ECC and poison, parity
replay, retirement and migration, training. -/

namespace Sys2Proof.Machine

open Sys2Proof (Word Byte Sparse Page Block Die Port Src)

def drmPage : Page := ⟨.drm, 0⟩

/-- Rank states (DRM.RANKSTAT). -/
def rankAbsent : Nat := 0
def rankInService : Nat := 1
def rankSpare : Nat := 2
def rankFrom : Nat := 3
def rankRetired : Nat := 4
def rankTrainFail : Nat := 5
def rankDegraded : Nat := 6
def rankTo : Nat := 7

/-- First address of the DRAM region (R26). -/
def dramBase : Nat := 0x100000000

namespace Node

/-- DRM is Active. -/
def dramOn (n : Node) : Bool := (n.hdr drmPage).active

/-- 16 Gb devices are fitted (DRM.CFG.DENSITY). -/
def dram16 (n : Node) : Bool := decide (n.fld drmPage Fld.drmCfgDensity = 1)

/-- Rank size in bytes (R300). -/
def rankSize (n : Node) : Nat := if n.dram16 then 0x200000000 else 0x100000000

def rankState (n : Node) (r : Nat) : Nat := n.fld drmPage Fld.drmRankstatState / 16 ^ (r % 4) % 16

def setRank (n : Node) (r st : Nat) : Node :=
  let v := n.fld drmPage Fld.drmRankstatState
  let old := v / 16 ^ (r % 4) % 16
  n.setFld drmPage Fld.drmRankstatState (v - old * 16 ^ (r % 4) + st % 16 * 16 ^ (r % 4))

/-- A rank that holds a window: in service, degraded or being copied. -/
def rankServes (n : Node) (r : Nat) : Bool :=
  decide (n.rankState r = rankInService ∨ n.rankState r = rankFrom ∨ n.rankState r = rankDegraded)

/-- First address above the last window (R301). -/
def dramTop (n : Node) : Nat := dramBase + n.dram.windows.length * n.rankSize

/-- The address ÷ 64 of a rank's burst, through the rank's window. -/
def burstAddr (n : Node) (r burst : Nat) : Option Nat :=
  match n.dram.windows.findIdx? (fun x => decide (x = r)) with
  | some k => some ((dramBase + k * n.rankSize) / 64 + burst)
  | none => none

/-- DRM.STAT.MAP_ERR: a mask in use is invalid (R304). -/
def mapErr (n : Node) : Bool :=
  let banks := if n.dram16 then 5 else 4
  let own := (List.range banks).foldl (fun a k => a + 2 ^ (6 + k)) 0
  let top := if n.dram16 then 2 ^ 27 else 2 ^ 26
  !((List.range banks).all (fun k =>
    let m := n.fld drmPage (Fld.drmXorMask k)
    decide (m &&& own = 2 ^ (6 + k) ∧ m < top)))

/-- A bank bit's mask as it acts (R304): an invalid one leaves the bit's own position alone. -/
def bankMask (n : Node) (k : Nat) : Nat :=
  let banks := if n.dram16 then 5 else 4
  let own := (List.range banks).foldl (fun a j => a + 2 ^ (6 + j)) 0
  let m := n.fld drmPage (Fld.drmXorMask k)
  if m &&& own = 2 ^ (6 + k) ∧ m < (if n.dram16 then 2 ^ 27 else 2 ^ 26) then m else 2 ^ (6 + k)

/-- Bank bit `k` of a rank offset (R303, R304). -/
def bankBit (n : Node) (k offset : Nat) : Bool :=
  (List.range 27).foldl (fun b i => b != ((n.bankMask k).testBit i && offset.testBit (i + 6))) false

/-- The bank of a rank offset (R303). -/
def dramBank (n : Node) (offset : Nat) : Nat :=
  (List.range (if n.dram16 then 5 else 4)).foldl (fun a k => a + if n.bankBit k offset then 2 ^ k else 0) 0

/-- The row of a rank offset (R303). -/
def dramRow (n : Node) (offset : Nat) : Nat := offset / (if n.dram16 then 131072 else 65536) % 65536

/-- The burst of a rank offset within its row (R303). -/
def dramColumn (offset : Nat) : Nat := offset / 64 % 64

/-- Rows that a neighbour refresh of a row activates and precharges (R306): those beyond the bank's ends are skipped. -/
def neighbourRows (n : Node) (row : Nat) : List Nat :=
  let k := if n.fld drmPage Fld.drmCfgBlast = 2 then 2 else 1
  (List.range (2 * k + 1)).filterMap (fun d =>
    if d = k ∨ row + d < k ∨ 65536 ≤ row + d - k then none else some (row + d - k))

/-- A burst is written back as poisoned (R307): marked, counted, and a contained fault is raised. -/
def poisonBurst (n : Node) (r burst : Nat) (detail : Word) (notRun : Bool) : Node :=
  let n := match n.burstAddr r burst with
    | some a => { n with dram := { n.dram with poisoned := if n.dram.poisoned.contains a then n.dram.poisoned else a :: n.dram.poisoned } }
    | none => n
  ((n.bump drmPage Fld.drmPoisonMarked).irq drmPage 0).raiseFault drmPage 2 detail (r + 4 * (burst + 1)) notRun

/-- A write of `k` bytes at `a` clears the mark of each burst that it covers whole; a partial write keeps it (R307). -/
def unpoison (n : Node) (a k : Nat) : Node :=
  if n.dram.poisoned.isEmpty then n
  else { n with dram := { n.dram with poisoned := n.dram.poisoned.filter (fun b => !decide (a ≤ b * 64 ∧ b * 64 + 64 ≤ a + k)) } }

/-- An access of `k` bytes at `a` meets a poisoned burst. -/
def burstPoisoned (n : Node) (a k : Nat) : Bool :=
  n.dram.poisoned.any (fun b => decide (b * 64 < a + k ∧ a < b * 64 + 64))

/-- Retire a rank (R310, R312) (DEDUCED, notes/assumptions/114.md). -/
def retireRank (n : Node) (r : Nat) : Node :=
  let noSpare := fun (m : Node) => (m.setFld drmPage Fld.drmStatNoSpare 1).reportFault drmPage 5 2 0 0 0
  let st := n.rankState r
  if st = rankInService then
    match (List.range 4).find? (fun k => decide (n.rankState k = rankSpare)), n.dram.migrating with
    | some sp, none =>
      let n := (n.setRank r rankFrom).setRank sp rankTo
      let n := { n with dram := { n.dram with migrating := some (r, sp) } }
      let n := (n.setFld drmPage Fld.drmMigMarkActive 1).setFld drmPage Fld.drmMigMarkW 0
      (n.reportFault drmPage 4 2 0 0 0).irq drmPage 1
    | _, _ => noSpare (n.setRank r rankDegraded)
  else if st = rankTo then
    let n := n.setRank r rankRetired
    let n := match n.dram.migrating with | some (f, _) => n.setRank f rankDegraded | none => n
    noSpare ({ n with dram := { n.dram with migrating := none } }.setFld drmPage Fld.drmMigMarkActive 0)
  else if st = rankSpare then (n.setRank r rankRetired).setFld drmPage Fld.drmStatNoSpare 1
  else n

/-- Capture an error where no capture is held (DRM.ECCCAP, DRM.ECCADDR). -/
def captureEcc (n : Node) (cap burst : Word) : Node :=
  if n.flag drmPage Fld.drmEcccapValid then n else (n.setReg drmPage 0x068 cap).setReg drmPage 0x06C burst

/-- Migration copies during one casement (R311): up to RATE bursts, in groups of four, within what the reserve leaves. The
last group is left to DRAM_MIGRATION_COMPLETE. -/
def migrateCasement (n : Node) (reserve : Nat) : Node :=
  if n.dram.migrating = none ∨ !n.dramOn then n
  else
    let rate := Nat.max 64 (Nat.min 2048 (n.fld drmPage Fld.drmMigRate))
    let k := Nat.min rate reserve / 4 * 4
    n.setFld drmPage Fld.drmMigMarkW (Nat.min (n.fld drmPage Fld.drmMigMarkW + k) (n.rankSize / 64 - 4))

/-- A postponed count of a rank. -/
def postponed (n : Node) (r : Nat) : Nat := n.dram.postponed.getD r 0
def setPostponed (n : Node) (r v : Nat) : Node :=
  { n with dram := { n.dram with postponed := n.dram.postponed.set r v } }

/-- The neighbour-refresh queue of a channel (R306). -/
def nrQueue (n : Node) (ch : Nat) : List (Nat × Nat × Nat) := if ch = 0 then n.dram.queue0 else n.dram.queue1
def setNrQueue (n : Node) (ch : Nat) (q : List (Nat × Nat × Nat)) : Node :=
  if ch = 0 then { n with dram := { n.dram with queue0 := q } } else { n with dram := { n.dram with queue1 := q } }

end Node

/-- Count an activate in a bank's table of 32 rows (R306). -/
def countActivate (t : List ActRow) (row : Nat) : List ActRow :=
  match t.findIdx? (fun e => decide (e.row = row)) with
  | some k => t.modify k (fun e => { e with count := e.count + 1 })
  | none =>
    if t.length < 32 then t ++ [⟨row, 1⟩]
    else
      let low := t.foldl (fun m e => Nat.min m e.count) 65536
      match t.findIdx? (fun e => decide (e.count = low)) with
      | some k => t.set k ⟨row, low + 1⟩
      | none => t

namespace Node

/-- An activate that is not held (R306): counted; a count that reaches the threshold queues a neighbour refresh, and the
entry's count returns to 0 (DEDUCED, notes/assumptions/115.md). -/
def activate (n : Node) (rank bank row : Nat) : Node :=
  let key := rank * 32 + bank
  let t := countActivate (Sparse.get (fun _ => []) n.dram.tables key) row
  let thresh := Nat.max 256 (n.fld drmPage Fld.drmActThresh)
  let due := t.any (fun e => decide (e.row = row ∧ thresh ≤ e.count)) && decide ((n.nrQueue (rank / 2)).length < 16)
  let t := if due then t.map (fun e => if e.row = row then { e with count := 0 } else e) else t
  let n := { n with dram := { n.dram with tables := Sparse.set (fun _ => []) n.dram.tables key t } }
  if due then n.setNrQueue (rank / 2) (n.nrQueue (rank / 2) ++ [(rank, bank, row)]) else n

/-- A write of 1 to DRM.TRAIN.START: training starts while DRM is Idle (R313). -/
def trainStart (n : Node) : Node :=
  let h := n.hdr drmPage
  if h.active ∨ h.busy ∨ h.pending then n else n.setFld drmPage Fld.drmStatTraining 1

end Node

/-- DRAM_REFRESH_DUE (R305): `queued` says whether rank 0 requests for the rank are queued. -/
def dramRefreshDue (n : Node) (r : Nat) (queued : Bool) : Node :=
  if !n.dramOn then n
  else if !queued then n
  else
    let limit := Nat.min 8 (n.fld drmPage Fld.drmRefreshPostponeMax)
    let p := n.postponed r
    if p < limit then (n.setPostponed r (p + 1)).peak drmPage Fld.drmRefstatPeak (p + 1)
    else n.bump drmPage Fld.drmRefstatForced

def execDramRefreshDue (rank : Fin 4) (queued : Bool) (s : State) : Host.Outcome State Fault Refusal :=
  s.hub (fun n => dramRefreshDue n rank queued)

/-- DRAM_REFRESH_MAKEUP (R305): the rank's rank 0 queue is empty, and the postponed refreshes are made up. -/
def dramRefreshMakeup (n : Node) (r : Nat) : Node :=
  if !n.dramOn then n else (n.bump drmPage Fld.drmRefstatMakeup (n.postponed r)).setPostponed r 0

def execDramRefreshMakeup (rank : Fin 4) (s : State) : Host.Outcome State Fault Refusal :=
  s.hub (fun n => dramRefreshMakeup n rank)

/-- DRAM_HOT_CHANGE (R305). -/
def execDramHotChange (hot : Bool) (s : State) : Host.Outcome State Fault Refusal :=
  s.hub (fun n => n.setFld drmPage Fld.drmStatHot (if hot then 1 else 0))

/-- DRAM_ACTIVATE (R306): held while the channel's queue is full and the bank has a queued refresh. -/
def dramActivate (n : Node) (r bank row : Nat) : Node :=
  if !n.dramOn ∨ (!n.dram16 ∧ 16 ≤ bank) then n
  else
    let q := n.nrQueue (r / 2)
    if 16 ≤ q.length ∧ q.any (fun e => decide (e.1 = r ∧ e.2.1 = bank)) then
      ({ n with dram := { n.dram with heldActs := n.dram.heldActs ++ [(r, bank, row)] } }.bump drmPage
        Fld.drmActcntThrottle).irq drmPage 4
    else n.activate r bank row

def execDramActivate (rank : Fin 4) (bank : Fin 32) (row : BitVec 16) (s : State) : Host.Outcome State Fault Refusal :=
  s.hub (fun n => dramActivate n rank bank row.toNat)

/-- NEIGHBOUR_REFRESH (R306): the oldest queued refresh of a channel is issued to the rows beside its row, and activates held for
its bank go on. -/
def neighbourRefresh (n : Node) (ch : Nat) : Node :=
  match n.nrQueue ch with
  | [] => n
  | (r, bank, row) :: rest =>
    let n := (n.setNrQueue ch rest).bump drmPage Fld.drmActcntNr
    let n := { n with dram := { n.dram with refreshed := (n.neighbourRows row).map (fun x => (r, bank, x)) } }
    let mine := n.dram.heldActs.filter (fun e => decide (e.1 = r ∧ e.2.1 = bank))
    let n := { n with dram := { n.dram with heldActs := n.dram.heldActs.filter (fun e => !decide (e.1 = r ∧ e.2.1 = bank)) } }
    mine.foldl (fun m e => m.activate e.1 e.2.1 e.2.2) n

def execNeighbourRefresh (channel : Fin 2) (s : State) : Host.Outcome State Fault Refusal :=
  s.hub (fun n => neighbourRefresh n channel)

/-- DRAM_REFRESH_CYCLE_END (R306): the tables of the rank are cleared. -/
def dramRefreshCycleEnd (n : Node) (r : Nat) : Node :=
  { n with dram := { n.dram with tables := n.dram.tables.filter (fun (e : Nat × List ActRow) => decide (e.1 / 32 ≠ r)) } }

def execDramRefreshCycleEnd (rank : Fin 4) (s : State) : Host.Outcome State Fault Refusal :=
  s.hub (fun n => dramRefreshCycleEnd n rank)

/-- DRM.ECCCAP for an error. -/
def ecccap (r device : Nat) (uncorr parity : Bool) : Word :=
  BitVec.ofNat 32 (2 ^ 31 + (if uncorr then 2 ^ 30 else 0) + (if parity then 2 ^ 29 else 0) + device % 16 * 2 ^ 16 + r % 4)

/-- DRAM_ECC_ERROR (R307, R310): a corrected error asks for the reread of the burst; an uncorrectable one poisons the burst
and retires the rank. Corrected errors of a rank being copied or degraded are only counted. -/
def dramEccError (n : Node) (r burst device : Nat) (uncorr : Bool) : Node :=
  let st := n.rankState r
  if !n.dramOn ∨ !(n.rankServes r ∨ st = rankTo) then n
  else
    let cap := ecccap r device uncorr false
    let gone := decide (st = rankFrom ∨ st = rankDegraded)
    if uncorr then
      let n := (n.bump drmPage Fld.drmEccUncorrected).captureEcc cap (BitVec.ofNat 32 burst)
      let n := n.poisonBurst r burst cap gone
      let n := if gone then n else { n with dram := { n.dram with rereads := (r, burst, device) :: n.dram.rereads } }
      n.retireRank r
    else
      let n := (n.bump drmPage Fld.drmEccCorrected).captureEcc cap (BitVec.ofNat 32 burst)
      if gone then n
      else { n.raiseFault drmPage 1 cap (r + 4 * (burst + 1)) with
        dram := { n.dram with rereads := (r, burst, device) :: n.dram.rereads } }

def execDramEccError (rank : Fin 4) (burst : BitVec 27) (device : BitVec 4) (uncorrectable : Bool) (s : State) :
    Host.Outcome State Fault Refusal :=
  s.hub (fun n => dramEccError n rank burst.toNat device.toNat uncorrectable)

/-- DRAM_REREAD_RESULT (R307): an error that recurs in the same device is lasting, and the rank is retired. A test of the
rank that FAULT TEST asked for takes the result too (R331). -/
def dramRereadResult (n : Node) (r burst device : Nat) (recurs : Bool) : Node :=
  let asked := n.dram.rereads.contains (r, burst, device)
  let job := n.flt.jobs.any (fun j => decide (j.region = 0 ∧ j.page = pageIndex drmPage ∧ j.unit = r ∧ j.result = 1))
  if !asked ∧ !job then n
  else
    let res := if recurs then 3 else 2
    let n := { n with dram := { n.dram with rereads := n.dram.rereads.filter (fun e => !decide (e = (r, burst, device))) } }
    let n := (n.testResult drmPage (r + 4 * (burst + 1)) res).testResult drmPage r res
    if recurs then n.retireRank r else n

def execDramRereadResult (rank : Fin 4) (burst : BitVec 27) (device : BitVec 4) (recurs : Bool) (s : State) :
    Host.Outcome State Fault Refusal :=
  s.hub (fun n => dramRereadResult n rank burst.toNat device.toNat recurs)

/-- DRAM_CA_PARITY_ERROR (R309): the commands are replayed, and the rank is retired. -/
def dramCaParityError (n : Node) (r : Nat) : Node :=
  if !n.dramOn ∨ !(n.rankServes r ∨ n.rankState r = rankTo) then n
  else
    let cap := ecccap r 15 false true
    let n := (n.captureEcc cap 0).reportFault drmPage 3 2 cap 0 0
    { n.retireRank r with dram := { (n.retireRank r).dram with replaying := some r } }

def execDramCaParityError (rank : Fin 4) (s : State) : Host.Outcome State Fault Refusal :=
  s.hub (fun n => dramCaParityError n rank)

/-- DRAM_REPLAY_COMPLETE (R309): where the replay fails too, every burst that its writes touched is poisoned
(DEDUCED, notes/assumptions/116.md). -/
def dramReplayComplete (n : Node) (r : Nat) (ok : Bool) (touched : List Nat) : Node :=
  if n.dram.replaying ≠ some r then n
  else
    let n := { n with dram := { n.dram with replaying := none } }
    if ok then n else touched.foldl (fun m b => m.poisonBurst r b (ecccap r 15 true false) true) n

def execDramReplayComplete (rank : Fin 4) (ok : Bool) (touched : List (BitVec 27)) (s : State) :
    Host.Outcome State Fault Refusal :=
  s.hub (fun n => dramReplayComplete n rank ok (touched.map (·.toNat)))

/-- DRAM_MIGRATION_COMPLETE (R311): the last group is copied, the watermark reaches the end, and the spare takes the retired rank's window.
While no casements run the copy goes on in hardware (R312), and this event alone tells how far (DESIGN CHOICE,
notes/assumptions/206.md). -/
def dramMigrationComplete (n : Node) : Node :=
  match n.dram.migrating with
  | none => n
  | some (f, sp) =>
    if !n.dramOn ∨ (n.running ∧ n.fld drmPage Fld.drmMigMarkW < n.rankSize / 64 - 4) then n
    else
      let n := { n with dram := { n.dram with
        migrating := none, windows := n.dram.windows.map (fun r => if r = f then sp else r) } }
      let n := (n.setRank f rankRetired).setRank sp rankInService
      let n := (n.setFld drmPage Fld.drmMigMarkActive 0).setFld drmPage Fld.drmMigMarkW (n.rankSize / 64)
      (n.setFld drmPage Fld.drmStatNoSpare 1).irq drmPage 2

def execDramMigrationComplete (s : State) : Host.Outcome State Fault Refusal := s.hub dramMigrationComplete

/-- DRAM_TRAINING_END (R313): every rank that CFG marks present ends in service, as the spare, or failed. -/
def dramTrainingEnd (n : Node) (passed : BitVec 4) : Node :=
  if !n.flag drmPage Fld.drmStatTraining then n
  else
    let n := (n.setFld drmPage Fld.drmStatTraining 0).setFld drmPage Fld.drmStatTrained 1
    let present := fun (r : Nat) => (n.fld drmPage Fld.drmCfgRanks).testBit r
    let spare := fun (r : Nat) => n.flag drmPage Fld.drmCfgSpareEn && decide (n.fld drmPage Fld.drmCfgSpare = r)
    let st := fun (r : Nat) => if !present r then rankAbsent else if !passed.getLsbD r then rankTrainFail
      else if spare r then rankSpare else rankInService
    let bad := (List.range 4).any (fun r => present r && spare r && !passed.getLsbD r)
    let good := (List.range 4).any (fun r => decide (st r = rankSpare))
    let n := (List.range 4).foldl (fun m r =>
      let m := m.setRank r (st r)
      if st r = rankTrainFail then m.reportFault drmPage 6 2 0 0 0 else m) n
    let n := if bad then n.setFld drmPage Fld.drmStatNoSpare 1 else if good then n.setFld drmPage Fld.drmStatNoSpare 0 else n
    let n := { n with dram := { n.dram with
      windows := (List.range 4).filter (fun r => decide (st r = rankInService)), migrating := none } }
    ((n.setFld drmPage Fld.drmMigMarkActive 0).setFld drmPage Fld.drmMigMarkW 0).irq drmPage 3

def execDramTrainingEnd (passed : BitVec 4) (s : State) : Host.Outcome State Fault Refusal :=
  s.hub (fun n => dramTrainingEnd n passed)

/-- DRAM_ZQ_CALIBRATION (R313): repeated without stopping traffic. -/
def execDramZqCalibration (s : State) : Host.Outcome State Fault Refusal :=
  s.hub (fun n => if n.dramOn then { n with dram := { n.dram with zqCount := n.dram.zqCount + 1 } } else n)

/-- DRAM_DQS_TRACK (R313): a drift beyond the range that can be corrected retires the rank. -/
def dramDqsTrack (n : Node) (beyond : BitVec 4) : Node :=
  if !n.dramOn then n
  else
    let n := { n with dram := { n.dram with dqsCount := n.dram.dqsCount + 1 } }
    ((List.range 4).filter (fun r => beyond.getLsbD r)).foldl (fun m r =>
      if m.rankServes r ∨ m.rankState r = rankSpare ∨ m.rankState r = rankTo then
        (m.reportFault drmPage 6 2 0 0 0).retireRank r
      else m) n

def execDramDqsTrack (beyond : BitVec 4) (s : State) : Host.Outcome State Fault Refusal :=
  s.hub (fun n => dramDqsTrack n beyond)

/-- What DRM.STAT reads as: MAP_ERR follows the masks. -/
def Node.drmView (n : Node) (off : Nat) : Option Word :=
  if off = 0x07C then some (setWordField (n.reg drmPage 0x07C) Fld.drmStatMapErr (if n.mapErr then 1 else 0)) else none

end Sys2Proof.Machine
end

