-- ==== Sys2Proof/Machine/Work.lean ====
section
/-! DEFINITION. Unfinished work (R62 to R64) as every unit reports it, and writes to Fen with its check words (R120, R121,
R399). -/

namespace Sys2Proof.Machine

open Sys2Proof (Word Byte Sparse Page Block Die Port Src ShutterId InputId SinkId ShutCfg)

/-- The word CAS.OVR_INFO for a unit and item, with VALID at 1. -/
def ovrInfo (die unit item : Nat) : Word :=
  BitVec.ofNat 32 (2 ^ 31 + die % 16 * 2 ^ 20 + unit % 16 * 2 ^ 16 + item % 2 ^ 16)

namespace Node

/-- The casement has unfinished work (R64): one contained fault and one count per casement, and the first item captured. -/
def casUnfinished (n : Node) (die unit item : Nat) (late : Bool) : Node :=
  if n.cas.unfinished then n
  else
    let n := { n with cas := { n.cas with unfinished := true } }
    let n := (n.bump casPage Fld.casEventsUnfinished).irq casPage 1
    let n := if n.flag casPage Fld.casOvrInfoValid then n else n.setReg casPage 0x068 (ovrInfo die unit item)
    n.raiseFault casPage (if late then 2 else 1) (ovrInfo die unit item)

/-- A CAS fault that no unfinished item has caused: DETAIL is laid out as CAS.OVR_INFO with VALID at 1 (R321), and nothing
states its DIE, UNIT and ITEM (DESIGN CHOICE, notes/assumptions/59.md). -/
def raiseCas (n : Node) (code : Nat) : Node :=
  let (w, n) := n.fresh
  n.raiseFault casPage code ((w &&& 0x00FFFFFF) ||| 0x80000000)

/-- Sinks fed through an unfinished item, program or path take the emergency fade; the bundles of affected sinks fade with
them (R62, R87) (DEDUCED, notes/assumptions/53.md). -/
def failSinks (n : Node) (sinks : List SinkId) : Node :=
  let n := n.emergencySinks sinks
  (n.rt.cfg.sinks.filter (fun c => sinks.contains c.id && decide (c.bundle ≠ 0))).foldl (fun m c =>
    m.reportBundle c.bundle true) n

/-- Capacity is lost: the compiler is to re-admit the configuration in force (R61, R120, R203). -/
def capacityLost (n : Node) : Node :=
  if n.rt.inForce then { n with rt := { n.rt with readmitWaits := true } } else n

/-- The 64-bit check words that a write of `k` bytes at `off` covers wholly. -/
def wholeWords (off k : Nat) (ws : List Nat) : List Nat :=
  ws.filter (fun w => decide (off ≤ w ∧ w + 8 ≤ off + k))

/-- An engine of a die. -/
def engine (n : Node) (d k : Nat) : Engine := ((n.die d).engines[k]?).getD {}
def modEngine (n : Node) (d k : Nat) (f : Engine → Engine) : Node :=
  n.modDie d (fun s => { s with engines := s.engines.modify k f })

/-- Items that still run when the next work window opens end there (R63). -/
def endItems (n : Node) : Node :=
  (List.range 6).foldl (fun m d => (List.range 9).foldl (fun m k =>
    if (m.engine d k).item.isSome then m.modEngine d k (fun e => { e with item := none, ops := [], buffer := [], past := 0, ran := {}, recompute := false, late := false }) else m) m) n

/-- The work window of the casement opens, 2,000 ns after its boundary (R52, R63): the first item or slot that starts in a
casement finds it open (DEDUCED, notes/assumptions/152.md). -/
def openWindow (n : Node) : Node :=
  if n.cas.windowOpen then n else { n.endItems with cas := { n.cas with windowOpen := true } }

/-- Fen offset of a bank of a die's target table (R150); a die that the configuration gives none is not steered. -/
def steerLoc (n : Node) (d : Nat) (bank : Bool) : Option Nat :=
  if n.rt.inForce then (n.rt.cfg.steerLoc[d]?).map (fun l => if bank then l.2 else l.1) else none

/-- Bytes of one bank of a target table (R150). -/
def steerSize : Nat := 40968

/-- A byte offset in Fen lies in the bank that the copy of R151 writes. -/
def steerCopied (n : Node) (d off : Nat) : Bool :=
  (n.die d).steerCopying &&
    match n.steerLoc d (!(n.die d).steerBank) with
    | some l => decide (l ≤ off ∧ off < l + steerSize)
    | none => false

/-- Write bytes to a die's Fen: exactly the bytes given (R399). A write of a whole poisoned 64-bit word clears its mark,
and a partial write keeps it. Bytes of a bank that the steering copy writes are held until it ends (R151). -/
def fenWrite (n : Node) (d off : Nat) (bs : List Byte) : Node :=
  let cells := (List.range bs.length).zip bs
  let held := cells.filter (fun c => n.steerCopied d (off + c.1))
  let n := (cells.filter (fun c => !n.steerCopied d (off + c.1))).foldl
    (fun m c => m.wrByte (fenAddr d (off + c.1)) c.2) n
  let n := if held.isEmpty then n
    else n.modDie d (fun s => { s with steerHeld := s.steerHeld ++ held.map (fun c => (off + c.1, c.2)) })
  let cov := wholeWords off bs.length (n.die d).poisoned
  if cov.isEmpty then n else n.modDie d (fun s => { s with poisoned := s.poisoned.filter (fun w => !cov.contains w) })

/-- A read of `k` bytes of a die's Fen at `off` meets a poisoned word. -/
def fenPoisoned (n : Node) (d off k : Nat) : Bool :=
  (n.die d).poisoned.any (fun w => decide (w < off + k ∧ off < w + 8))

/-- A 32-bit word of Fen; one in a poisoned 64-bit word reads as a fresh free value. -/
def fenRead (n : Node) (d off : Nat) : Word × Node :=
  if n.fenPoisoned d off 4 then n.fresh else (n.rdWord (fenAddr d off), n)

end Node

end Sys2Proof.Machine
end

