-- ==== Sys2Proof/Machine/Delay.lean ====
section
/-! DEFINITION. Delay lines and array steering (R145 to R157): the target table, steering commits, glides, jumps, the fill
rule, poison mutes, and the refill hold of new strips (R91). -/

namespace Sys2Proof.Machine

open Sys2Proof (Word Byte Sparse Page Block Die Port Src ShutterId InputId SinkId ShutCfg SourceCfg StripCfg)

def dlyPage (d : Nat) : Page := ⟨.dly, d⟩
def xptPage : Page := ⟨.xpt, 0⟩

/-- What a strip's compilation fixes of its delay: its die, its class (0 NONE, 1 FEN, 2 DRAM), FRAC, and the largest
integer delay (R145). -/
structure DelayCfg where
  die : Nat
  cls : Nat
  frac : Bool
  cap : Nat
deriving DecidableEq, Repr

/-- Largest integer delay of a class (R145). -/
def delayCap (out : Bool) (cls : Nat) : Nat :=
  if cls = 2 then 262144 else if cls = 1 then (if out then 4096 else 1024) else 0

/-- The nearest target that the strip can take, in 1/256 sample, and whether that counts in CLAMPED: a value above the
range, a total below half a sample with FRAC, or a fraction that nothing interpolates (R147, R150, R156). -/
def clampTarget (c : DelayCfg) (samples fraction : Nat) : Nat × Bool × Bool :=
  if c.frac then
    let t := samples * 256 + fraction
    let hi := if c.cap = 0 then 255 else c.cap * 256
    let v := Nat.max 128 (Nat.min t hi)
    (v, decide (v ≠ t), false)
  else (Nat.min samples c.cap * 256, decide (c.cap < samples), decide (fraction ≠ 0))


/-- New samples that a refill counts for a delay (R91). -/
def refillCover (t : Nat) : Nat := t / 256 + (if t % 256 = 0 then 0 else 1)

/-- GLIDE_MAX as it acts (DLY.GLIDE_MAX). -/
def glideMax (v : Nat) : Nat := if v = 0 then 1 else Nat.min v 1000

/-- The delay of a glide after `m` of `len` samples, in 2^-16 sample (R153). -/
def glideAt (d0 d1 len m : Nat) : Nat :=
  if len ≤ m then d1 else ((d0 : Int) + ((d1 : Int) - d0) * m / len).toNat

/-- An applied delay in 1/256 sample: to nearest, with ties upward (R153). -/
def appliedQ8 (a : Nat) : Nat := (a + 128) / 256

/-- Base B of the interpolator for a delay in 1/256 sample (R147). -/
def baseOf (q : Nat) : Nat := (q - 128) / 256

/-- Samples older than the current one that a delay of `t` / 256 sample reads (R147). -/
def delayReach (c : DelayCfg) (t : Nat) : Nat := if c.frac then baseOf t + 1 else t / 256

/-- The largest delay, in 2^-16 sample, whose reads are at most `a` samples old (R147, R156). -/
def oldestDelay (frac : Bool) (a : Nat) : Nat := if frac then (256 * a + 127) * 256 else a * 65536

/-- Delay in 1/256 sample at sample `t` of the casement that runs (R153, R156): a glide stops at the oldest sample received. -/
def StripSt.delayAt (st : StripSt) (frac : Bool) (t : Nat) : Nat :=
  if (st.mode = .gliding ∨ st.mode = .waitFill) ∧ st.len ≠ 0 then
    let d := glideAt st.start (st.target * 256) st.len (st.done + t + 1)
    let oldest := oldestDelay frac (st.filled + t)
    appliedQ8 (if st.start < st.target * 256 then Nat.max st.applied (Nat.min d oldest) else d)
  else if st.mode = .jumping ∨ st.mode = .heldTarget then
    (if st.done + t < 64 then appliedQ8 st.start else st.target)
  else appliedQ8 st.applied

/-- Base, base before the last change, and samples since it, after `k` samples of the casement that runs (R149). A jump has no
change of base, and ends a crossfade between bases that still runs (DESIGN CHOICE, notes/assumptions/193.md). -/
def StripSt.basesTo (st : StripSt) (frac : Bool) : Nat → Nat × Nat × Nat
  | 0 => (st.base, st.baseOld, st.baseAge)
  | k + 1 =>
    let (b, old, age) := st.basesTo frac k
    let new := baseOf (st.delayAt frac k)
    if st.mode = .jumping ∨ st.mode = .heldTarget then (baseOf st.target, old, 16)
    else if new = b then (b, old, Nat.min 16 (age + 1))
    else (new, b, 0)

namespace Node

/-- Strips in force: kind 1 input, 2 bus, 3 output, as SHT.SEL.KIND. -/
def stripKey (kind idx : Nat) : Nat := kind * 4096 + idx
def strip (n : Node) (kind idx : Nat) : StripSt := Sparse.get (fun _ => {}) n.strips (stripKey kind idx)
def setStrip (n : Node) (kind idx : Nat) (s : StripSt) : Node :=
  { n with strips := Sparse.set (fun _ => {}) n.strips (stripKey kind idx) s }
def modStrip (n : Node) (kind idx : Nat) (f : StripSt → StripSt) : Node := n.setStrip kind idx (f (n.strip kind idx))

/-- The Shutter of a strip by its kind; kinds 5 to 7 are the old instances of a transition (R83). -/
def stripSite (kind idx : Nat) : ShutterId := if 4 < kind then ⟨kind - 4, 8, idx⟩ else ⟨kind, 0, idx⟩

/-- The source and the output strip of a number in the configuration in force. -/
def sourceOf (n : Node) (i : Nat) : Option SourceCfg := n.rt.cfg.sources.find? (fun s => decide (s.num = i))
def stripOf (n : Node) (i : Nat) : Option StripCfg := n.rt.cfg.strips.find? (fun s => decide (s.num = i))

/-- The delay of a strip in force, by kind 1 or 3, or of an old instance, by kind 5 or 7. -/
def delayCfg (n : Node) (kind idx : Nat) : Option DelayCfg :=
  let c := if 4 < kind then n.rt.old else n.rt.cfg
  if kind % 4 = 1 then (c.sources.find? (fun s => decide (s.num = idx))).map (fun s =>
    ⟨s.die, if s.fenClass then 1 else 0, false, delayCap false (if s.fenClass then 1 else 0)⟩)
  else if kind % 4 = 3 then (c.strips.find? (fun s => decide (s.num = idx))).map (fun s =>
    let c := if s.dram then 2 else if s.fenClass then 1 else 0
    ⟨s.die, c, s.frac, delayCap true c⟩)
  else none

/-- Entries of a die's target table for its strips in force: strip kind, number and entry (R150). -/
def steerEntries (n : Node) (d : Nat) : List (Nat × Nat × Nat) :=
  (n.rt.cfg.sources.filter (fun s => decide (s.die = d))).map (fun s => (1, s.num, s.num))
  ++ (n.rt.cfg.strips.filter (fun s => decide (s.die = d))).map (fun s => (3, s.num, 4096 + s.num))

/-- Start the move to the target in force, from the delay applied (R153 to R156). -/
def startMove (n : Node) (c : DelayCfg) (kind idx dur : Nat) : Node :=
  let st := n.strip kind idx
  let d1 := st.target * 256
  if dur = 0 ∨ !c.frac then
    if delayReach c st.target ≤ st.filled then
      n.setStrip kind idx { st with mode := .jumping, start := st.applied, len := 64, done := 0, slowed := false }
    else (n.bump (dlyPage c.die) Fld.dlyCountWait).setStrip kind idx { st with
      mode := .waitFill, start := st.applied, len := 0, done := 0, slowed := false }
  else
    let diff := if st.applied ≤ d1 then d1 - st.applied else st.applied - d1
    let g := glideMax (n.fld (dlyPage c.die) Fld.dlyGlideMaxRate)
    let cr := rateCr n.rate
    let slow := decide (g * dur * 65536 < diff * cr)
    let nn := if slow then ceilDiv (diff * cr) (g * 65536) else dur
    let n := if slow then (n.bump (dlyPage c.die) Fld.dlyCountSlowed).irq (dlyPage c.die) 2 else n
    n.setStrip kind idx { st with mode := .gliding, start := st.applied, len := nn * n.s, done := 0, slowed := slow }

/-- A target for a strip (R151, R156). One that meets a jump in WAIT_FILL takes its place at once (DESIGN CHOICE,
notes/assumptions/194.md). Of several targets held in a jump the last is kept, and one equal to the jump's own leaves
the held one waiting (DESIGN CHOICE, notes/assumptions/167.md). -/
def applyTarget (n : Node) (kind idx samples fraction dur : Nat) : Node :=
  match n.delayCfg kind idx with
  | none => n
  | some c =>
    let (t, clamped, ignored) := clampTarget c samples fraction
    let n := if clamped || ignored then n.bump (dlyPage c.die) Fld.dlyCountClamped else n
    let n := if clamped then n.irq (dlyPage c.die) 2 else n
    let st := n.strip kind idx
    if t = st.target then n
    else if st.held then
      n.setStrip kind idx { st with
        target := t, applied := t * 256, base := baseOf t, mode := .still, refill := st.refill + (refillCover t - st.refillD),
        refillD := Nat.max st.refillD (refillCover t) }
    else match st.mode with
      | .jumping | .heldTarget =>
        n.setStrip kind idx { st with mode := .heldTarget, heldTarget := some (t, dur) }
      | _ => (n.setStrip kind idx { st with target := t }).startMove c kind idx dur

/-- A target-table entry in a bank (R150). -/
def steerEntry (n : Node) (d loc kind num e : Nat) : SteerEntry :=
  let w0 := (n.rdWord (fenAddr d (loc + 8 + e * 8))).toNat
  let w1 := (n.rdWord (fenAddr d (loc + 12 + e * 8))).toNat
  ⟨kind, num, e, decide (2 ^ 31 ≤ w0), w0 / 256 % 2 ^ 19, w0 % 256, w1 % 65536⟩

/-- The commit cutoff before boundary `b`: the die reads its inactive bank, the header and the entries of its strips
(R151, R156). -/
def cutoffSteer (n : Node) (d b : Nat) : Node :=
  match n.steerLoc d (!(n.die d).steerBank) with
  | none => n
  | some loc =>
    let n := n.modDie d (fun s => { s with steerSet := (n.steerEntries d).map (fun e => n.steerEntry d loc e.1 e.2.1 e.2.2) })
    let (seq, n) := n.fenRead d loc
    let (w1, n) := n.fenRead d (loc + 4)
    let late := (b + 65536 - w1.toNat % 65536) % 65536
    if seq = n.reg (dlyPage d) 0x058 then
      (n.modDie d (fun s => { s with steerTake := none })).setFld (dlyPage d) Fld.dlySteerPending 0
    else if 2 ^ 31 ≤ w1.toNat ∨ late = 0 then n.modDie d (fun s => { s with steerTake := some (seq, false) })
    else if late ≤ 32767 then n.modDie d (fun s => { s with steerTake := some (seq, true) })
    else (n.modDie d (fun s => { s with steerTake := none })).setFld (dlyPage d) Fld.dlySteerPending 1

/-- The steering commit at a boundary (R151), after the commits of pages: a target meets the instance that these leave (R156). -/
def takeSteer (n : Node) (d : Nat) : Node :=
  match (n.die d).steerTake with
  | none => n
  | some (seq, late) =>
    let bank := !(n.die d).steerBank
    match n.steerLoc d bank with
    | none => n.modDie d (fun s => { s with steerTake := none })
    | some _ =>
      let p := dlyPage d
      let n := n.modDie d (fun s => { s with steerTake := none, steerBank := bank, steerCopying := true })
      let n := (n.setReg p 0x058 seq).setFld p Fld.dlySteerApplied (n.clk.index % 65536)
      let n := (n.setFld p Fld.dlySteerPending 0).setFld p Fld.dlySteerActiveBank (if bank then 1 else 0)
      let n := (n.setFld p Fld.dlySteerCopying 1).irq p 0
      let n := if late then (n.bump p Fld.dlyCountLate).irq p 1 else n
      ((n.die d).steerSet).foldl (fun m (e : SteerEntry) =>
        if e.set && (m.delayCfg e.kind e.num).any (fun c => decide (c.die = d)) then
          m.applyTarget e.kind e.num e.samples e.fraction e.duration
        else m) n

/-- The copy of the steering commit ends: the new inactive bank holds the active one with every SET bit clear, and the
writes held meanwhile take effect (R151). An entry written after the cutoff keeps its SET and is taken in the next commit
(R156) (DEDUCED, notes/assumptions/176.md). -/
def steerCopyEnds (n : Node) (d : Nat) : Node :=
  let st := n.die d
  if st.steerCopying then
    let n := (n.modDie d (fun s => { s with steerCopying := false, steerHeld := [] })).setFld (dlyPage d) Fld.dlySteerCopying 0
    match n.steerLoc d st.steerBank, n.steerLoc d (!st.steerBank) with
    | some a, some b =>
      let newer := ((st.steerSet.filter (fun (e : SteerEntry) => decide (n.steerEntry d a e.kind e.num e.entry ≠ e))).map (fun e => 11 + 8 * e.entry))
      let clearSet := fun (off : Nat) (v : Byte) => if 8 ≤ off ∧ off % 8 = 3 ∧ !newer.contains off then v &&& 0x7F else v
      let n := n.copyMap (fenAddr d b) (fenAddr d a) steerSize clearSet
      st.steerHeld.foldl (fun m e => m.wrByte (fenAddr d e.1) e.2) n
    | _, _ => n
  else n

/-- The change that runs on a strip ends at its target (R153, R155). -/
def endMove (st : StripSt) : StripSt :=
  { st with mode := .still, applied := st.target * 256, len := 0, done := 0, slowed := false }

/-- A move that ends outside the samples of a casement ends at the base of its target (R156). -/
def settleBase (st : StripSt) : StripSt := { st with base := baseOf st.target, baseAge := 16 }

/-- One casement of `k` samples on a strip's delay line: the ring receives them, and a glide or jump runs (R153 to R156). -/
def runDelay (n : Node) (c : DelayCfg) (kind idx k : Nat) : Node :=
  let st := n.strip kind idx
  let (b, old, age) := if c.frac then st.basesTo true k else (st.base, st.baseOld, st.baseAge)
  let st := { st with filled := st.filled + k, base := b, baseOld := old, baseAge := age }
  let n := n.setStrip kind idx st
  let oldest := oldestDelay c.frac (st.filled - 1)
  match st.mode with
  | .still => n
  | .jumping => if 64 ≤ st.done + k then n.setStrip kind idx (endMove st)
      else n.setStrip kind idx { st with done := st.done + k }
  | .heldTarget =>
    if 64 ≤ st.done + k then
      let n := n.setStrip kind idx { endMove st with heldTarget := none }
      match st.heldTarget with
      | some (t, dur) => if t = st.target then n
          else (n.modStrip kind idx (fun s => { s with target := t })).startMove c kind idx dur
      | none => n
    else n.setStrip kind idx { st with done := st.done + k }
  | .gliding | .waitFill =>
    if st.len = 0 then
      if delayReach c st.target ≤ st.filled then
        n.setStrip kind idx { st with mode := .jumping, len := 64, done := 0 }
      else n
    else
      let done := Nat.min st.len (st.done + k)
      let d := glideAt st.start (st.target * 256) st.len done
      if oldest < d ∧ st.start < st.target * 256 then
        let n := if st.mode = .gliding then n.bump (dlyPage c.die) Fld.dlyCountWait else n
        n.setStrip kind idx { st with mode := .waitFill, done := done, applied := Nat.max st.applied oldest }
      else if st.len ≤ done then n.setStrip kind idx (endMove st)
      else n.setStrip kind idx { st with mode := .gliding, done := done, applied := d }

/-- The largest integer delay that a strip reads at (R157). -/
def delayInForce (st : StripSt) : Nat :=
  Nat.max (st.applied / 65536) (if st.mode = .jumping ∨ st.mode = .heldTarget then st.target / 256 else 0)

/-- One casement of the poison hold (R157): it ends when the ring has received D + 1 + S samples since the last poisoned
read, and the cause clears at this boundary. -/
def runPoison (n : Node) (kind idx k : Nat) : Node :=
  let st := n.strip kind idx
  if st.poison then
    let st := { st with poisonRun := st.poisonRun + (k - st.poisonSkip), poisonSkip := 0, poisonD := Nat.max st.poisonD (delayInForce st) }
    if st.poisonD + 1 + n.s ≤ st.poisonRun then
      (n.setStrip kind idx { st with poison := false, poisonRun := 0, poisonD := 0 }).modShut (stripSite kind idx) (clearCause 6)
    else n.setStrip kind idx st
  else n

/-- One casement of the refill hold of a new path (R91). -/
def runRefill (n : Node) (kind idx k : Nat) : Node :=
  let st := n.strip kind idx
  if st.held then
    if st.refill ≤ k then refillEnd n (stripSite kind idx) else n.setStrip kind idx { st with refill := st.refill - k }
  else n

/-- Kind and number of every strip in force. -/
def stripList (n : Node) : List (Nat × Nat) :=
  n.rt.cfg.sources.map (fun s => (1, s.num)) ++ n.rt.cfg.buses.map (fun b => (2, b.num))
    ++ n.rt.cfg.strips.map (fun s => (3, s.num))

/-- Likewise of the old instances of a transition. -/
def oldList (n : Node) : List (Nat × Nat) :=
  (n.rt.old.sources.map (fun (s : SourceCfg) => (5, s.num)) ++ n.rt.old.buses.map (fun (b : Sys2Proof.BusCfg) => (6, b.num)) ++
    n.rt.old.strips.map (fun (s : StripCfg) => (7, s.num))).filter
    (fun e => (n.shut (stripSite e.1 e.2)).present)

/-- The casement that ends, on every strip in force and every old instance. -/
def runDelays (n : Node) : Node :=
  let k := n.s
  (n.stripList ++ n.oldList).foldl (fun m e =>
      let m := match m.delayCfg e.1 e.2 with
        | some c => (m.runDelay c e.1 e.2 k).runPoison e.1 e.2 k
        | none => m
      m.runRefill e.1 e.2 k) n

/-- Every glide and jump ends at its target (R156, the re-index sequence). -/
def endMoves (n : Node) : Node :=
  { n with strips := n.strips.map (fun e =>
      (e.1, if e.2.mode = .still then e.2 else
        match e.2.heldTarget with
        | some (t, _) => settleBase { endMove { e.2 with target := t } with heldTarget := none }
        | none => settleBase (endMove e.2))) }

/-- Samples are read from poisoned words of a strip's ring, the first at sample `t` of the casement and the last at sample `last`
(R157): cause 6 starts its fade there, or the count restarts. -/
def poisonMute (n : Node) (d kind idx t last : Nat) : Node :=
  let st := n.strip kind idx
  let n := n.setStrip kind idx { st with poison := true, poisonRun := 0, poisonSkip := last + 1, poisonD := delayInForce st }
  if st.poison then n
  else ((n.bump (dlyPage d) Fld.dlyPoisonCount).irq (dlyPage d) 3).modShut (stripSite kind idx) (fun sh => setCause 6 32 (runTo t sh))

/-- Kind and number that DLY.SEL selects: kinds 1 and 3, or 0 for nothing. -/
def dlySel (n : Node) (d : Nat) : Nat × Nat :=
  let k := n.fld (dlyPage d) Fld.dlySelKind
  (if k = 0 then 1 else if k = 1 then 3 else 0, n.fld (dlyPage d) Fld.dlySelIndex)

/-- Samples left in the running glide or jump. -/
def moveLeft (st : StripSt) : Nat := if st.mode = .still then 0 else st.len - st.done

/-- DLY.STATE.MODE. -/
def modeCode : DelayMode → Nat
  | .still => 0 | .gliding => 1 | .jumping => 2 | .waitFill => 3 | .heldTarget => 4

/-- Read-only registers of DLY: CFG, TARGET, NOW, STATE, STEER_LOC0 and STEER_LOC1. -/
def dlyView (n : Node) (d off : Nat) : Word :=
  let (kind, idx) := n.dlySel d
  let loc := fun (b : Bool) => BitVec.ofNat 32 ((n.steerLoc d b).getD 0 % 2 ^ 24)
  if off = 0x05C then loc false
  else if off = 0x060 then loc true
  else match n.delayCfg kind idx with
    | none => 0
    | some c =>
      if c.die ≠ d then 0
      else
        let st := n.strip kind idx
        if off = 0x044 then
          BitVec.ofNat 32 (2 ^ 31 + c.cls * 2 ^ 28 + (if c.frac then 2 ^ 24 else 0) + c.cap)
        else if off = 0x048 then BitVec.ofNat 32 (st.target % 2 ^ 27)
        else if off = 0x04C then BitVec.ofNat 32 (appliedQ8 st.applied % 2 ^ 27)
        else if off = 0x050 then
          BitVec.ofNat 32 (moveLeft st % 2 ^ 20 * 4096 + (if st.poison then 32 else 0) + (if st.slowed then 16 else 0)
            + modeCode st.mode)
        else 0

end Node

/-- STEER_COPY_END (R151). -/
def execSteerCopyEnd (die : Die) (s : State) : Host.Outcome State Fault Refusal :=
  s.hub (fun n => n.steerCopyEnds die)

/-- The last sample of a glide carries its target exactly (R153). -/
def glideEnd (n : Node) (d kind idx : Nat) : Node :=
  match n.delayCfg kind idx with
  | some c =>
    let st := n.strip kind idx
    if c.die = d ∧ (st.mode = .gliding ∨ (st.mode = .waitFill ∧ st.len ≠ 0)) then n.setStrip kind idx (Node.endMove st)
    else n
  | none => n

def execGlideEnd (die : Die) (kind : Nat) (index : Nat) (s : State) : Host.Outcome State Fault Refusal :=
  s.hub (fun n => glideEnd n die kind index)

/-- A jump ends; a target held during it is taken at the next boundary (R155, R156). -/
def jumpEnd (n : Node) (d kind idx : Nat) : Node :=
  match n.delayCfg kind idx with
  | some c =>
    let st := n.strip kind idx
    if c.die = d then
      if st.mode = .jumping then n.setStrip kind idx (Node.endMove st)
      else if st.mode = .heldTarget then
        n.setStrip kind idx { st with applied := st.target * 256, done := 64 }
      else n
    else n
  | none => n

def execJumpEnd (die : Die) (kind : Nat) (index : Nat) (s : State) : Host.Outcome State Fault Refusal :=
  s.hub (fun n => jumpEnd n die kind index)

/-- The ring holds the samples that a waiting glide or jump needs, and it goes on (R156). -/
def waitFillResume (n : Node) (d kind idx : Nat) : Node :=
  match n.delayCfg kind idx with
  | some c =>
    let st := n.strip kind idx
    if c.die = d ∧ st.mode = .waitFill then
      if st.len = 0 then n.setStrip kind idx { st with mode := .jumping, len := 64, done := 0 }
      else n.setStrip kind idx { st with mode := .gliding }
    else n
  | none => n

def execWaitFillResume (die : Die) (kind : Nat) (index : Nat) (s : State) : Host.Outcome State Fault Refusal :=
  s.hub (fun n => waitFillResume n die kind index)

/-- The ring has received the samples that the poison hold counts: the cause clears at the next boundary (R157). -/
def poisonHoldEnd (n : Node) (d idx : Nat) : Node :=
  match n.delayCfg 3 idx with
  | some c =>
    let st := n.strip 3 idx
    if c.die = d ∧ st.poison then n.setStrip 3 idx { st with poisonRun := Nat.max st.poisonD (Node.delayInForce st) + 1 + n.s }
    else n
  | none => n

def execPoisonHoldEnd (die : Die) (strip : Nat) (s : State) : Host.Outcome State Fault Refusal :=
  s.hub (fun n => poisonHoldEnd n die strip)

end Sys2Proof.Machine
end

