-- ==== Sys2Proof/Machine/Coeff.lean ====
section
/-! DEFINITION. Coefficient blocks and FIR chains (R127 to R144): the BQD and FIR windows, the two banks, swaps at a commit,
and the copies of PREP. -/

namespace Sys2Proof.Machine

open Sys2Proof (Word Byte Sparse Page Block Die Port Src ShutterId InputId SinkId ShutCfg SourceCfg StripCfg ItemCfg)

def bqdPage (d : Nat) : Page := ⟨.bqd, d⟩
def firPage (d : Nat) : Page := ⟨.fir, d⟩

/-- Where a strip's coefficient block or FIR array lies: its die, size in bytes and the two banks (R131, R133, R140). -/
structure BankCfg where
  die : Nat
  size : Nat
  loc0 : Nat
  loc1 : Nat
  sections : Nat := 0
deriving DecidableEq, Repr

/-- Byte offset of a record in a block of `sections` sections, by the code of BQD.SEL.RECORD (R131). -/
def recordOff (kind sections rec : Nat) : Option Nat :=
  if kind = 1 then
    if rec = 0x20 then some 0 else if rec = 0x21 then some 32
    else if rec < sections then some (64 + 32 * rec) else none
  else if kind = 2 then (if rec < sections then some (32 * rec) else none)
  else if kind = 3 then
    if rec = 0x22 then some (32 * sections) else if rec < sections then some (32 * rec) else none
  else none

namespace Node

/-- The coefficient block of a strip in force (R131). -/
def block (n : Node) (kind idx : Nat) : Option BankCfg :=
  if kind = 1 then (n.sourceOf idx).map (fun s => ⟨s.die, 32 * (s.sections + 2), s.loc0, s.loc1, s.sections⟩)
  else if kind = 2 then (n.rt.cfg.buses.find? (fun b => decide (b.num = idx))).map (fun b =>
    ⟨b.die, 32 * b.sections, b.loc0, b.loc1, b.sections⟩)
  else if kind = 3 then (n.stripOf idx).map (fun s => ⟨s.die, 32 * (s.sections + 1), s.loc0, s.loc1, s.sections⟩)
  else none

/-- The FIR chain of an output strip in force (R140). -/
def chain (n : Node) (idx : Nat) : Option BankCfg :=
  match n.stripOf idx with
  | some s => if s.segments = 0 then none else some ⟨s.die, 256 * s.segments, s.firLoc0, s.firLoc1, s.segments⟩
  | none => none

/-- Bank of a block or an array. -/
def bankLoc (b : BankCfg) (bank : Bool) : Nat := if bank then b.loc1 else b.loc0

/-- The strip that BQD.SEL selects, by kind and number. -/
def bqdSel (n : Node) (d : Nat) : Nat × Nat := (n.fld (bqdPage d) Fld.bqdSelKind + 1, n.fld (bqdPage d) Fld.bqdSelIndex)

/-- Words W0 to W5 of the BQD window. -/
def bqdWords (n : Node) (d : Nat) : List Word := (List.range 6).map (fun k => n.reg (bqdPage d) (0x044 + 4 * k))

/-- Write a record: words 6 and 7 are written as 0 (BQD.W). -/
def writeRec (n : Node) (d off : Nat) (ws : List Word) : Node :=
  n.fenWrite d off ((ws ++ [0, 0]).flatMap (fun (w : Word) => leBytes w.toNat 4))

/-- Load W0 to W5 from a record. -/
def readRec (n : Node) (d off : Nat) : Node :=
  (List.range 6).foldl (fun m k =>
    let (w, m) := m.fenRead d (off + 4 * k)
    m.setReg (bqdPage d) (0x044 + 4 * k) w) n

/-- An action is refused (R137, BQD.ACT). -/
def dropBqd (n : Node) (d : Nat) : Node := (n.bump (bqdPage d) Fld.bqdErrDrops).irq (bqdPage d) 1
def dropFir (n : Node) (d : Nat) : Node := (n.bump (firPage d) Fld.firErrDrops).irq (firPage d) 1

/-- Strips in force on a die, by kind and number. -/
def dieStrips (n : Node) (d : Nat) : List (Nat × Nat) :=
  n.stripList.filter (fun e => match n.block e.1 e.2 with | some b => decide (b.die = d) | none => false)

/-- Sample of the casement at which a page's marked strips swap (SWAP_AT). -/
def swapAt (n : Node) (d : Nat) (fir : Bool) : Nat :=
  Nat.min (if fir then n.act (firPage d) Fld.firSwapAtSample else n.act (bqdPage d) Fld.bqdSwapAtSample) (n.s - 1)

/-- The swap of a strip's coefficient banks at sample `k` of the casement that runs, if one runs; a PREP requested meanwhile starts then
(R135, R137). -/
def swapBqd (k : Option Nat) (st : StripSt) : StripSt :=
  if st.due then { st with
    bank := !st.bank, due := false, swapped := k, prep := st.prep || st.prepAfter, prepAfter := false }
  else st

/-- Likewise for a FIR chain. -/
def swapFir (k : Option Nat) (st : StripSt) : StripSt :=
  if st.firDue then { st with
    firBank := !st.firBank, firDue := false, firSwapped := k, firPrep := st.firPrep || st.firPrepAfter, firPrepAfter := false }
  else st

/-- Every due swap of a die's blocks, or of its chains, takes effect; PG_IRQ bit 0 is set. -/
def swapAll (n : Node) (d : Nat) (fir : Bool) : Node :=
  let any := (n.dieStrips d).any (fun e => if fir then (n.strip e.1 e.2).firDue else (n.strip e.1 e.2).due)
  let k := if n.running then some (n.swapAt d fir) else none
  let n := (n.dieStrips d).foldl (fun m e => m.modStrip e.1 e.2 (if fir then swapFir k else swapBqd k)) n
  if any then n.irq (if fir then firPage d else bqdPage d) 0 else n

/-- A swap in the snapshot is due, unless PREP runs on the strip. -/
def dueSwap (fir : Bool) (st : StripSt) : StripSt :=
  if fir then (if st.firSnapped && !st.firPrep then { st with firSnapped := false, firDue := true } else st)
  else if st.snapped && !st.prep then { st with snapped := false, due := true } else st

/-- A commit of the BQD or FIR page takes effect: the snapshot's swaps are due at their sample of this casement, or at once
while casements are not running (R135). A strip on which PREP runs keeps its IMMEDIATE swap for a later boundary. -/
def effectSwaps (n : Node) (d : Nat) (fir : Bool) : Node :=
  let n := (n.dieStrips d).foldl (fun m e => m.modStrip e.1 e.2 (dueSwap fir)) n
  if n.running then n else n.swapAll d fir

/-- A SWAPREQ under IMMEDIATE is due in this casement where none of the strip's items has started; else it waits for the next
boundary (R135). -/
def immediateSwap (n : Node) (d kind idx : Nat) (fir : Bool) : Node :=
  if n.running && n.stripStarted d kind idx then n
  else
    let n := n.modStrip kind idx (dueSwap fir)
    if n.running then n else n.swapAll d fir

/-- BQD.ACT is written (R134 to R137). CANCEL also takes back a SWAPREQ that waits under IMMEDIATE, where no cutoff comes. -/
def bqdAct (n : Node) (d : Nat) (v : Nat) : Node :=
  let (kind, idx) := n.bqdSel d
  match n.block kind idx with
  | none => if v % 128 = 0 then n else n.dropBqd d
  | some b =>
    if v % 128 = 0 then n
    else if b.die ≠ d then n.dropBqd d
    else match recordOff kind b.sections (n.fld (bqdPage d) Fld.bqdSelRecord) with
      | none => n.dropBqd d
      | some r =>
        let st := n.strip kind idx
        let waits := st.snapped || st.due
        match v % 128 with
        | 1 => n.writeRec d (bankLoc b st.bank + r) (n.bqdWords d)
        | 2 => if st.prep then n.setStrip kind idx { st with heldAcc := st.heldAcc ++ [(r, some (n.bqdWords d))] }
            else if waits then n.dropBqd d
            else n.writeRec d (bankLoc b (!st.bank) + r) (n.bqdWords d)
        | 4 => n.readRec d (bankLoc b st.bank + r)
        | 8 => if st.prep then n.setStrip kind idx { st with heldAcc := st.heldAcc ++ [(r, none)] }
            else n.readRec d (bankLoc b (!st.bank) + r)
        | 16 => if waits then n.setStrip kind idx { st with prepAfter := true }
            else n.setStrip kind idx { st with prep := true }
        | 32 => if n.fld (bqdPage d) Fld.pgCtrlCommitMode = 2 then (n.setStrip kind idx { st with snapped := true }).immediateSwap d kind idx false
            else n.setStrip kind idx { st with marked := true }
        | 64 => n.setStrip kind idx { st with marked := false, snapped := st.snapped && decide (n.fld (bqdPage d) Fld.pgCtrlCommitMode ≠ 2) }
        | _ => n.dropBqd d

/-- FIR.ACT is written (R142). -/
def firAct (n : Node) (d : Nat) (v : Nat) : Node :=
  let idx := n.fld (firPage d) Fld.firSelStrip
  match n.chain idx with
  | none => if v % 8 = 0 then n else n.dropFir d
  | some b =>
    if v % 8 = 0 then n
    else if b.die ≠ d then n.dropFir d
    else
      let st := n.strip 3 idx
      match v % 8 with
      | 1 => if st.firSnapped || st.firDue then n.setStrip 3 idx { st with firPrepAfter := true }
          else n.setStrip 3 idx { st with firPrep := true }
      | 2 => if n.fld (firPage d) Fld.pgCtrlCommitMode = 2 then (n.setStrip 3 idx { st with firSnapped := true }).immediateSwap d 3 idx true
          else n.setStrip 3 idx { st with firMarked := true }
      | 4 => n.setStrip 3 idx { st with firMarked := false, firSnapped := st.firSnapped && decide (n.fld (firPage d) Fld.pgCtrlCommitMode ≠ 2) }
      | _ => n.dropFir d

/-- The commit cutoff for the BQD page of a die: marked strips enter the snapshot, unless PREP still runs on them (R137). -/
def cutoffBqd (n : Node) (d : Nat) : Node :=
  (n.dieStrips d).foldl (fun m e =>
    let st := m.strip e.1 e.2
    if !st.marked then m
    else if st.prep then (m.bump (bqdPage d) Fld.bqdErrDeferred).irq (bqdPage d) 2
    else m.setStrip e.1 e.2 { st with marked := false, snapped := true }) n

/-- Likewise for the FIR page. -/
def cutoffFir (n : Node) (d : Nat) : Node :=
  (n.dieStrips d).foldl (fun m e =>
    let st := m.strip e.1 e.2
    if e.1 ≠ 3 ∨ !st.firMarked then m
    else if st.firPrep then (m.bump (firPage d) Fld.firErrDeferred).irq (firPage d) 2
    else m.setStrip e.1 e.2 { st with firMarked := false, firSnapped := true }) n

/-- A boundary brings the swaps of pages in IMMEDIATE to the casement that begins, in which no item has yet started (R135). -/
def runSwaps (n : Node) : Node :=
  (List.range 6).foldl (fun m d =>
    let m := if m.fld (bqdPage d) Fld.pgCtrlCommitMode = 2 then m.effectSwaps d false else m
    if m.fld (firPage d) Fld.pgCtrlCommitMode = 2 then m.effectSwaps d true else m) n

/-- A casement ends: swaps whose sample lay in it have taken place (R135). -/
def endSwaps (n : Node) : Node :=
  let n := (List.range 6).foldl (fun m d => (m.swapAll d false).swapAll d true) n
  { n with strips := n.strips.map (fun e => (e.1, { e.2 with swapped := none, firSwapped := none })) }

/-- The copy of a PREP ends: the inactive bank holds the active one, and held accesses are carried out on it (R136, R137). -/
def prepEnd (n : Node) (d kind idx : Nat) : Node :=
  match n.block kind idx with
  | some b =>
    let st := n.strip kind idx
    if b.die = d ∧ st.prep then
      let n := n.setStrip kind idx { st with prep := false, heldAcc := [] }
      let n := n.fenWrite d (bankLoc b (!st.bank)) (n.rdBytes (fenAddr d (bankLoc b st.bank)) b.size)
      let n := st.heldAcc.foldl (fun m e =>
        match e.2 with
        | some ws => m.writeRec d (bankLoc b (!st.bank) + e.1) ws
        | none => m.readRec d (bankLoc b (!st.bank) + e.1)) n
      n.irq (bqdPage d) 3
    else n
  | none => n

/-- Likewise for a FIR chain. -/
def firPrepEnd (n : Node) (d idx : Nat) : Node :=
  match n.chain idx with
  | some b =>
    let st := n.strip 3 idx
    if b.die = d ∧ st.firPrep then
      let n := n.setStrip 3 idx { st with firPrep := false }
      let n := n.copyMap (fenAddr d (bankLoc b (!st.firBank))) (fenAddr d (bankLoc b st.firBank)) b.size (fun _ v => v)
      n.irq (firPage d) 3
    else n
  | none => n

/-- A commit frees or replaces a strip: its marks are discarded (R137). -/
def discardMarks (n : Node) (d kind idx : Nat) : Node :=
  let st := n.strip kind idx
  let n := if st.marked || st.snapped then n.bump (bqdPage d) Fld.bqdErrDiscarded else n
  let n := if st.firMarked || st.firSnapped then n.bump (firPage d) Fld.firErrDiscarded else n
  n.setStrip kind idx { st with marked := false, firMarked := false, snapped := false, firSnapped := false }

/-- Read-only registers of BQD: STAT, LOC0, LOC1. PREP_BUSY shows a PREP from its start, and not while it waits for a swap sample
(DESIGN CHOICE, notes/assumptions/192.md). -/
def bqdView (n : Node) (d off : Nat) : Word :=
  let (kind, idx) := n.bqdSel d
  let marked := ((n.dieStrips d).filter (fun e =>
    let st := n.strip e.1 e.2
    st.marked || st.snapped || st.due)).length
  let all := if off = 0x064 then marked % 2 ^ 13 * 2 ^ 16 else 0
  match n.block kind idx with
  | none => BitVec.ofNat 32 all
  | some b =>
    if b.die ≠ d then BitVec.ofNat 32 all
    else
      let st := n.strip kind idx
      if off = 0x064 then
        BitVec.ofNat 32 (all + b.sections % 64 * 256 + 8 + (if st.marked || st.snapped || st.due then 4 else 0)
          + (if st.prep then 2 else 0) + (if st.bank then 1 else 0))
      else if off = 0x06C then BitVec.ofNat 32 (b.loc0 % 2 ^ 24)
      else if off = 0x070 then BitVec.ofNat 32 (b.loc1 % 2 ^ 24)
      else 0

/-- Segments of a die's FIR pool at the node rate (R139). -/
def poolSegments (rate : Nat) : Nat := if rateS rate = 6 then 6144 else if rateS rate = 12 then 3072 else 1536

/-- Read-only registers of FIR: STAT, LOC0, LOC1, HIST and POOL. -/
def firView (n : Node) (d off : Nat) : Word :=
  let idx := n.fld (firPage d) Fld.firSelStrip
  if off = 0x05C then
    let used := ((n.rt.cfg.strips.filter (fun s => decide (s.die = d))).map (·.segments)).sum
    BitVec.ofNat 32 (poolSegments n.rate * 2 ^ 16 + used % 2 ^ 16)
  else match n.chain idx with
    | none => 0
    | some b =>
      if b.die ≠ d then 0
      else
        let st := n.strip 3 idx
        if off = 0x04C then
          BitVec.ofNat 32 (2 ^ 31 + b.sections % 2 ^ 13 * 2 ^ 16 + (if st.firMarked || st.firSnapped || st.firDue then 4 else 0)
            + (if st.firPrep then 2 else 0) + (if st.firBank then 1 else 0))
        else if off = 0x050 then BitVec.ofNat 32 (b.loc0 % 2 ^ 24)
        else if off = 0x054 then BitVec.ofNat 32 (b.loc1 % 2 ^ 24)
        else if off = 0x058 then BitVec.ofNat 32 (((n.stripOf idx).map (·.firHist)).getD 0 % 2 ^ 24)
        else 0

end Node

/-- COEFF_BANK_SWAP (R135): the sample of the casement at which the die's due swaps take place. Where blocks and chains have
different samples, the earlier ones swap first. -/
def coeffSwap (n : Node) (d : Nat) : Node :=
  let dueB := (n.dieStrips d).any (fun e => (n.strip e.1 e.2).due)
  let dueF := (n.dieStrips d).any (fun e => (n.strip e.1 e.2).firDue)
  if dueB && dueF && decide (n.swapAt d false ≠ n.swapAt d true) then
    n.swapAll d (decide (n.swapAt d true < n.swapAt d false))
  else (n.swapAll d false).swapAll d true

def execCoeffBankSwap (die : Die) (s : State) : Host.Outcome State Fault Refusal :=
  s.hub (fun n => coeffSwap n die)

/-- BQD_PREP_END (R136); `kind` is a strip kind 1 to 3. -/
def execBqdPrepEnd (die : Die) (kind : Nat) (index : Nat) (s : State) : Host.Outcome State Fault Refusal :=
  s.hub (fun n => n.prepEnd die kind index)

/-- FIR_PREP_END (R136, R142). -/
def execFirPrepEnd (die : Die) (strip : Nat) (s : State) : Host.Outcome State Fault Refusal :=
  s.hub (fun n => n.firPrepEnd die strip)

end Sys2Proof.Machine
end

