-- ==== Sys2Proof/Machine/Mailbox.lean ====
section
/-! DEFINITION. The service mailbox (R45 to R47): how a service reads its request and answers a slot. -/

namespace Sys2Proof.Machine

open Sys2Proof (Word Byte Sparse Page Block Die Port Src)

def mgtPage : Page := ⟨.mgt, 0⟩

/-- Result codes of R46. -/
def okCode : Nat := 0
def acceptedCode : Nat := 1
def busyCode : Nat := 2
def badLength : Nat := 5
def badArgument : Nat := 6
def refusedCode : Nat := 7
def notPermitted : Nat := 8
def duplicateEid : Nat := 9
def timeoutCode : Nat := 10
def badService : Nat := 3
def badCommand : Nat := 4

/-- The services of R46. -/
def knownService (service : Nat) : Bool := decide (1 ≤ service ∧ service ≤ 10)
def notPresent : Nat := 11

/-- The commands that a service's chapter gives; the spec lists none for DIRECTORY and HINGE, whose codes may all be known
(DESIGN CHOICE, notes/assumptions/158.md). -/
def knownCommand (service command : Nat) : Bool :=
  match service with
  | 1 | 10 => decide (1 ≤ command ∧ command ≤ 3)
  | 2 => decide (1 ≤ command ∧ command ≤ 6)
  | 3 | 7 | 8 => decide (1 ≤ command ∧ command ≤ 5)
  | 4 => decide (command = 1)
  | 9 => decide (1 ≤ command ∧ command ≤ 4)
  | _ => true

/-- Payload words that a command of R57, R232, R279, R331, R346, R349 or R377 takes, at least and at most, as its table gives them; those
of other services are not stated (DEDUCED, notes/assumptions/35.md). -/
def lengthLimits (service command : Nat) : Option (Nat × Nat) :=
  match service, command with
  | 2, 1 | 2, 3 | 2, 5 => some (2, 2)
  | 2, 2 | 2, 4 | 2, 6 => some (1, 1)
  | 3, 1 | 3, 5 => some (1, 1)
  | 3, 2 => some (2, 2)
  | 3, 3 | 3, 4 => some (0, 0)
  | 4, 1 => some (0, 0)
  | 7, 1 => some (1, 33)
  | 7, 2 | 7, 3 | 7, 4 | 7, 5 => some (1, 1)
  | 8, 1 | 8, 2 | 8, 4 => some (0, 0)
  | 8, 3 => some (3, 3)
  | 8, 5 => some (1, 1)
  | 9, 1 | 9, 3 | 9, 4 => some (1, 1)
  | 9, 2 => some (2, 2)
  | 10, 1 => some (3, 3)
  | 10, 2 | 10, 3 => some (1, 1)
  | 1, 1 | 1, 2 => some (0, 0)
  | 1, 3 => some (1, 1)
  | _, _ => none

/-- Offset of a slot's request and response buffers (R45). -/
def requestOff (slot : Nat) : Nat := 0x100 + slot * 0x200
def responseOff (slot : Nat) : Nat := 0x200 + slot * 0x200

namespace Node

/-- A slot is BUSY. -/
def slotBusy (n : Node) (slot : Nat) : Bool := (n.fld mgtPage Fld.mgtMbxStatBusy).testBit slot

/-- Write consecutive registers of a page. -/
def setRegs (n : Node) (p : Page) (off : Nat) : List Word → Node
  | [] => n
  | w :: ws => (n.setReg p off w).setRegs p (off + 4) ws

/-- A slot's response (R46, R47): the request's SERVICE, COMMAND and TAG, the number of data words, the result and the
data; BUSY clears, DONE sets and the slot's PG_IRQ bit sets, for the hardware's own BAD_LENGTH and TIMEOUT as well
(DESIGN CHOICE, notes/assumptions/156.md). A DETAIL that no service gives is a free value. -/
def writeResponse (n : Node) (slot code : Nat) (detail : Option Nat) (data : List Word) : Node :=
  let (free, n) := n.fresh
  let detail := detail.getD free.toNat
  let len := Nat.min data.length 62
  let head := n.reg mgtPage (requestOff slot)
  let n := n.setRegs mgtPage (responseOff slot)
    ((head &&& 0xFFFFFF00 ||| BitVec.ofNat 32 len) :: BitVec.ofNat 32 (detail % 2 ^ 24 * 256 + code % 256) :: data.take 62)
  let n := n.setFld mgtPage Fld.mgtMbxStatBusy (n.fld mgtPage Fld.mgtMbxStatBusy - 2 ^ slot)
  let done := n.fld mgtPage Fld.mgtMbxStatDone
  let n := (n.setFld mgtPage Fld.mgtMbxStatDone (if done.testBit slot then done else done + 2 ^ slot)).irq mgtPage slot
  if slot = 1 then n.attnCause 2 else n

/-- A service answers a slot. A response to a request that is no longer in service is discarded (R47)
(DESIGN CHOICE, notes/assumptions/36.md). -/
def answer (n : Node) (slot : Fin 4) (code : Nat) (detail : Option Nat := none) (data : List Word := []) : Node :=
  if n.slotBusy slot then n.writeResponse slot code detail data else n

/-- The services run on the management cores (R25): while those are stopped a command waits for them, and the hardware
times it out (DEDUCED, notes/assumptions/37.md) (DEDUCED, notes/assumptions/39.md). -/
def serve (n : Node) (f : Node → Node) : Node := if n.mgmt.running then f n else n

/-- LEN of a slot's request lies outside the limits of its command (R46). -/
def lengthBad (n : Node) (slot : Nat) : Bool :=
  let head := (n.reg mgtPage (requestOff slot)).toNat
  match lengthLimits (head / 2 ^ 24) (head / 2 ^ 16 % 256) with
  | some l => decide (head % 256 < l.1 ∨ l.2 < head % 256)
  | none => false

/-- A service takes the request of a slot, and answers BAD_LENGTH to one of a wrong length (R46). -/
def serveSlot (n : Node) (slot : Fin 4) (f : Node → Node) : Node :=
  n.serve (fun n => if n.lengthBad slot then n.answer slot badLength else f n)

end Node

/-- MAILBOX_TIMEOUT (R47): no response within MBX_TMO; the hardware answers TIMEOUT with LEN 0. -/
def mailboxTimeout (n : Node) (slot : Fin 4) : Node :=
  if n.slotBusy slot then n.writeResponse slot timeoutCode none [] else n

def execMailboxTimeout (slot : Fin 4) (s : State) : Host.Outcome State Fault Refusal :=
  s.hub (fun n => mailboxTimeout n slot)

/-- The doorbell bits that one port may ring (R45): a slot's owner is PCIe, I²C, the Ranori path and JTAG for slots 0 to
3, and JTAG is bus matrix master 7 on the core port. -/
def ownsSlot (src : Src) (slot : Nat) : Bool :=
  match slot with
  | 0 => decide (src.port = .pcie)
  | 1 => decide (src.port = .i2c)
  | 2 => decide (src.port = .ranori)
  | _ => decide (src.port = .core ∧ src.master = 7)

/-- Ring one slot (R45, R47): a foreign ring and a ring of a BUSY slot are discarded and counted; a LEN above 63 is
answered BAD_LENGTH at once. -/
def ringSlot (src : Src) (n : Node) (slot : Fin 4) : Node :=
  if !ownsSlot src slot || n.slotBusy slot then n.bump mgtPage Fld.mgtMbxStatDrops
  else
    let n := n.setFld mgtPage Fld.mgtMbxStatBusy (n.fld mgtPage Fld.mgtMbxStatBusy + 2 ^ slot.val)
    if 63 < (n.reg mgtPage (requestOff slot)).toNat % 256 then n.writeResponse slot badLength none [] else n

/-- A write of MGT.MBX_DB: each foreign or BUSY slot that it rings counts one drop (DESIGN CHOICE, notes/assumptions/157.md). -/
def doorbell (n : Node) (src : Src) (ring : Nat) : Node :=
  ([0, 1, 2, 3] : List (Fin 4)).foldl (fun m k => if ring.testBit k.val then ringSlot src m k else m) n

end Sys2Proof.Machine
end

