-- ==== Sys2Proof/Machine/Phc.lean ====
section
/-! DEFINITION. The PTP hardware clock (R222 to R227): its advance with hub cycles, its increment, and steps. -/

namespace Sys2Proof.Machine

open Sys2Proof (Word Byte Sparse Page Block Die Port Src)

def phcPage : Page := ⟨.phc, 0⟩

/-- The nominal increment, 1.25 ns in 2^-32 ns, and the limits of ±1,000 ppm in the same units (R223). -/
def incrNominal : Nat := 0x140000000
def incrLow : Nat := 5363340411
def incrHigh : Nat := 5374077829

/-- Fractions of a nanosecond in a second, in 2^-32 ns. -/
def secondUnits : Nat := 1000000000 * 4294967296

namespace Node

/-- The PHC's time below the second, in 2^-32 ns. -/
def phcSub (n : Node) : Nat := n.phc.ns * 4294967296 + n.phc.frac

/-- The PHC runs on for `k` hub cycles (R222): nanoseconds carry into seconds, which wrap at 2^48, and a carry sets PHC
PG_IRQ bit 3. -/
def phcRun (n : Node) (k : Nat) : Node :=
  let t := n.phcSub + k * n.phc.incr
  let c := t / secondUnits
  let r := t % secondUnits
  let n := { n with phc := { n.phc with sec := (n.phc.sec + c) % 2 ^ 48, ns := r / 4294967296, frac := r % 4294967296 } }
  if c = 0 then n else n.irq phcPage 3

/-- Time passes to `t`, and the PHC with it by the hub cycles that begin meanwhile; the hub stands still in reset. -/
def advanceTo (n : Node) (t : Nat) : Node :=
  if t ≤ n.clk.now then n
  else
    let k := t / Config.hubCycle - n.clk.now / Config.hubCycle
    let n := { n with clk := { n.clk with now := t } }
    if n.sil.por || !n.sil.powered then n else n.phcRun k

/-- DP1 writes the increment (R223, R240). -/
def steer (n : Node) (incr : Nat) : Node :=
  { n with phc := { n.phc with incr := incr, heldFrac := incr % 4294967296 } }

/-- PHC.CTRL.STEER: DP1 writes the increment. -/
def steering (n : Node) : Bool := n.flag phcPage Fld.phcCtrlSteer

/-- An increment write is clamped or discarded (R223). -/
def incrDrop (n : Node) : Node := (n.bump phcPage Fld.phcEventsIncrDrops).irq phcPage 2

/-- An increment outside ±1,000 ppm is clamped to the nearer limit (R223). -/
def steerTo (n : Node) (i : Nat) : Node :=
  if i < incrLow then (n.steer incrLow).incrDrop
  else if incrHigh < i then (n.steer incrHigh).incrDrop
  else n.steer i

/-- A write of INCR_FRAC is held (R223). -/
def writeIncrFrac (n : Node) (v : Word) : Node :=
  if n.steering then n.incrDrop else { n with phc := { n.phc with heldFrac := v.toNat } }

/-- A write of INCR_NS applies the pair (R223). -/
def writeIncrNs (n : Node) (v : Nat) : Node :=
  if n.steering then n.incrDrop
  else n.steerTo (v % 256 * 4294967296 + n.phc.heldFrac)

/-- The signed 48-bit seconds and 32-bit nanoseconds that the STEP registers hold. -/
def stepSec (n : Node) : Int :=
  BitVec.toInt (BitVec.ofNat 48 ((n.reg phcPage 0x060).toNat + (n.reg phcPage 0x064).toNat % 65536 * 4294967296))
def stepNs (n : Node) : Int := (n.reg phcPage 0x05C).toInt

/-- The PHC's time in whole nanoseconds. -/
def phcNs (n : Node) : Int := Int.ofNat (n.phc.sec * 1000000000 + n.phc.ns)

/-- A signed number in 32 bits, saturating at ±(2^31 − 1). -/
def satWord (v : Int) : Word :=
  BitVec.ofInt 32 (if v < -2147483647 then -2147483647 else if 2147483647 < v then 2147483647 else v)

/-- A step is refused: REFUSED counts and PG_IRQ bit 1 is set (R224). -/
def stepRefused (n : Node) (result : Nat) : Node :=
  ((n.setFld phcPage Fld.phcStatLastResult result).bump phcPage Fld.phcEventsRefused).irq phcPage 1

/-- A step of `ns` nanoseconds is applied between two hub cycles (R224, R226). -/
def stepApplied (n : Node) (ns : Int) : Node :=
  let t := (n.phcNs + ns).toNat
  let n := { n with phc := { n.phc with
    sec := t / 1000000000 % 2 ^ 48, ns := t % 1000000000, epoch := (n.phc.epoch + 1) % 4 } }
  let n := (n.setFld phcPage Fld.phcStatLastResult 0).setReg phcPage 0x078 (satWord ns)
  (n.bump phcPage Fld.phcEventsSteps).irq phcPage 0

/-- A step is in progress (STAT.STEP_BUSY): for four hub cycles from the request that was applied (R224)
(DESIGN CHOICE, notes/assumptions/104.md). -/
def stepBusy (n : Node) : Bool := decide (n.clk.now < n.phc.stepUntil)

/-- A step request with the offset that the STEP registers hold (R224, R225): the permit is consumed whatever the result. One that
meets a step in progress is ignored. -/
def stepGo (n : Node) : Node :=
  let permit := n.phc.permit
  let n := { n with phc := { n.phc with permit := false } }
  let off := n.stepSec * 1000000000 + n.stepNs
  if 999999999 < n.stepNs.natAbs ∨ n.phcNs + off < 0 then n.stepRefused 2
  else if (n.reg phcPage 0x06C).toNat < off.natAbs ∧ !permit then n.stepRefused 1
  else if n.stepBusy then n.setFld phcPage Fld.phcStatLastResult 3
  else
    let at_ := n.clk.now
    let n := { n with phc := { n.phc with stepUntil := at_ + 4 * Config.hubCycle } }
    n.stepApplied off

/-- Arm a permit for one step (R225). -/
def stepPermit (n : Node) : Node := { n with phc := { n.phc with permit := true } }

/-- A block of the node requests a step of `ns` nanoseconds through the STEP registers. -/
def requestStep (n : Node) (ns : Int) : Node :=
  let n := n.setReg phcPage 0x05C (BitVec.ofInt 32 (ns.tmod 1000000000))
  let s : BitVec 48 := BitVec.ofInt 48 (ns.tdiv 1000000000)
  ((n.setReg phcPage 0x060 (s.setWidth 32)).setReg phcPage 0x064 ((s >>> 32).setWidth 32)).stepGo

/-- A read of TIME_NS latches the seconds and the fraction of the same hub cycle (R227). -/
def latchTime (n : Node) : Node :=
  ((n.setReg phcPage 0x048 (BitVec.ofNat 32 n.phc.sec)).setReg phcPage 0x04C (BitVec.ofNat 32 (n.phc.sec / 2 ^ 32))).setReg
    phcPage 0x050 (BitVec.ofNat 32 n.phc.frac)

/-- What the registers that show the PHC read as. -/
def phcView (n : Node) (off : Nat) : Option Word :=
  match off with
  | 0x044 => some (BitVec.ofNat 32 (n.phc.epoch * 2 ^ 30 + n.phc.ns))
  | 0x054 => some (BitVec.ofNat 32 n.phc.heldFrac)
  | 0x058 => some (BitVec.ofNat 32 (n.phc.incr / 4294967296 % 256))
  | 0x070 => some (BitVec.ofNat 32 ((if n.steering then 256 else 0) + n.fld phcPage Fld.phcStatLastResult * 16
      + n.phc.epoch * 4 + (if n.stepBusy then 2 else 0) + (if n.phc.permit then 1 else 0)))
  | _ => none

end Node

/-- The block idles for one hub cycle. -/
def hubCycleTick (n : Node) : Node := n.advanceTo (n.clk.now + Config.hubCycle)

/-- PHC_SECONDS_CARRY (R222): hub cycles pass until the nanoseconds carry into seconds. -/
def secondsCarry (n : Node) : Node :=
  if n.phc.incr = 0 then n
  else n.advanceTo (n.clk.now + ceilDiv (secondUnits - n.phcSub) n.phc.incr * Config.hubCycle)

def execPhcSecondsCarry (s : State) : Host.Outcome State Fault Refusal := s.hub (fun n => secondsCarry n)

end Sys2Proof.Machine
end

