-- ==== Sys2Proof/Machine/Refs.lean ====
section
/-! DEFINITION. References, DPLLs and holdover (R233 to R254): qualification of the slots, selection, disputes, the four
DPLLs, the reference state, and the commands of the family that are events or services. -/

namespace Sys2Proof.Machine

open Sys2Proof (Word Byte Sparse Page Block Die Port Src RefMeas LoopErr)

def refPage : Page := ⟨.ref, 0⟩
def dplPage (k : Nat) : Page := ⟨.dpl, k⟩

/-- The kind suits the source (R233). -/
def kindSuits (source kind : Nat) : Bool :=
  if source < 8 then decide (kind ≤ 4)
  else if source < 0x18 then decide (kind = 5)
  else if source < 0x1A then decide (kind = 6)
  else decide (source = 0x1A ∧ kind = 7)

/-- The slot is usable by the selector (R235). -/
def slotUsable (s : SlotState) : Bool := decide (s = .qualified ∨ s = .degraded)

/-- Codes of R235 and R241. -/
def slotCode : SlotState → Nat
  | .disabled => 0 | .noSignal => 1 | .validating => 2 | .waitRestore => 3 | .qualified => 4 | .degraded => 5
  | .disqualified => 6 | .qlLow => 7 | .votedOut => 8
def dpllCode : DpllState → Nat
  | .freeRun => 0 | .acquiring => 1 | .locked => 2 | .holdover => 3 | .switching => 4 | .fault => 7

/-- Frequency of a bandwidth code in mHz (R243). -/
def bwMilliHz (code : Nat) : Nat :=
  if 0x14 ≤ code then 4000000
  else (if code % 3 = 0 then 1 else if code % 3 = 1 then 2 else 5) * 10 ^ (code / 3)

/-- The highest code whose frequency does not exceed `num / den` mHz divided by 20. -/
def bwClamp (num den : Nat) : Nat :=
  ((List.range 0x15).filter (fun c => decide (bwMilliHz c * 20 * den ≤ num))).foldl Nat.max 0

/-- The slope of ABS over the frequencies of the last 16 s, newest first, in 0.01 ppb/s (R236): the change over the span
divided by its seconds (DEDUCED, notes/assumptions/101.md). -/
def driftOf (abs : List Int) : Int :=
  match abs, abs.getLast? with
  | a :: _ :: _, some z => (a - z).tdiv (Int.ofNat (abs.length - 1))
  | _, _ => 0

/-- Frequency `a` against frequency `b`, both against XOIN, in 0.01 ppb (R236). -/
def relOf (a b : Int) : Int := ((a - b) * 100000000000).tdiv (100000000000 + b)

/-- The mean of frequencies, 0 of none (R239, R246). -/
def meanOf (fs : List Int) : Int := fs.sum.tdiv (Int.ofNat (Nat.max 1 fs.length))

/-- A phase in ns taken modulo the grid `num / den` ns into (-P/2, P/2] (R245). -/
def gridStep (num den : Nat) (ns : Int) : Int :=
  let x := 2 * ns * Int.ofNat den
  let p := Int.ofNat num
  if num = 0 ∨ den = 0 ∨ (-p < x ∧ x ≤ p) then ns
  else
    let r := (ns * Int.ofNat den).emod p
    (if p < 2 * r then r - p else r).tdiv (Int.ofNat den)

namespace Node

def slot (n : Node) (k : Nat) : RefSlot := n.refs.slots.getD k {}

/-- Change a slot. -/
def modSlot (n : Node) (k : Nat) (f : RefSlot → RefSlot) : Node :=
  { n with refs := { n.refs with slots := n.refs.slots.set k (f (n.slot k)) } }

def dpll (n : Node) (k : Nat) : Dpll := n.refs.dplls.getD k {}

/-- Change a DPLL; a change of its state sets DPL PG_IRQ bit 0. -/
def modDpll (n : Node) (k : Nat) (f : Dpll → Dpll) : Node :=
  let a := n.dpll k
  let b := f a
  let n := { n with refs := { n.refs with dplls := n.refs.dplls.set k b } }
  if a.state = b.state then n else n.irq (dplPage k) 0

def slotEnabled (n : Node) (k : Nat) : Bool := n.flag refPage Fld.refScfg0Enable k
def slotKind (n : Node) (k : Nat) : Nat := n.fld refPage Fld.refScfg0Kind k
def slotSource (n : Node) (k : Nat) : Nat := n.fld refPage Fld.refScfg0Source k
def slotRank (n : Node) (k : Nat) : Nat := n.fld refPage Fld.refScfg0Rank k
def slotCfgOk (n : Node) (k : Nat) : Bool := kindSuits (n.slotSource k) (n.slotKind k)

/-- The QL in force (R234). -/
def slotQl (n : Node) (k : Nat) : Nat :=
  if n.slotKind k = 5 ∨ n.slotKind k = 6 then
    match (n.slot k).received with
    | some q => q.toNat
    | none => n.fld refPage Fld.refScfg1UserQl k
  else n.fld refPage Fld.refScfg1UserQl k

/-- The QL in force qualifies: not worse than QL_MIN, and CLASS not 255 (R234, R235). -/
def qlGood (n : Node) (k : Nat) : Bool :=
  decide (n.slotQl k ≤ n.fld refPage Fld.refScfg1QlMin k ∧ n.slotQl k / 256 ≠ 255)

def usable (n : Node) (k : Nat) : Bool := slotUsable (n.slot k).state

/-- The usable slots, lowest number first. -/
def usableSlots (n : Node) : List Nat := (List.range 16).filter n.usable

/-- Whether the REL monitor applies to a slot (R236). -/
def relApplies (n : Node) (k : Nat) : Bool :=
  n.refs.active.isSome && decide (n.refs.active ≠ some k) && decide (n.slotKind k ≠ 7)

/-- Every monitor of a slot lies within the limits that `lim` gives for ABS, REL and DRIFT, in 0.01 ppb over `den`. -/
def monitorsWithin (n : Node) (k : Nat) (lim : Field × Field × Field) (num den : Nat) : Bool :=
  let s := n.slot k
  let within := fun (v : Int) (f : Field) => decide (v.natAbs * den ≤ n.fld refPage f * 100 * num)
  within (s.abs.headD 0) lim.1 && (!n.relApplies k || within s.rel lim.2.1) && within s.drift lim.2.2

def hardLimits : Field × Field × Field := (Fld.refFlimAbsHard, Fld.refFlimRelHard, Fld.refDriftLimHard)
def softLimits : Field × Field × Field := (Fld.refFlimAbsSoft, Fld.refFlimRelSoft, Fld.refDriftLimSoft)

/-- Two slots are in a standing dispute (R239). -/
def disputing (n : Node) (a b : Nat) : Bool := n.refs.disputes.contains (Nat.min a b, Nat.max a b)

/-- Among usable slots of the lowest rank: the active slot, else the better QL, else the lower number; between inactive
disputants the lower number (R238, R239). -/
def pickSlot (n : Node) : Option Nat :=
  let us := n.usableSlots
  let low := us.foldl (fun r k => Nat.min r (n.slotRank k)) 15
  let cs := us.filter (fun k => decide (n.slotRank k = low))
  match n.refs.active with
  | some a => if cs.contains a then some a else best cs
  | none => best cs
where
  best (cs : List Nat) : Option Nat :=
    cs.foldl (fun b k => match b with
      | none => some k
      | some x => if !n.disputing x k && decide (n.slotQl k < n.slotQl x) then some k else some x) none

/-- The slot that the mode selects, and whether a MANUAL selection is held by a dispute (R238, R239). -/
def selectSlot (n : Node) : Option Nat × Bool :=
  let m := n.fld refPage Fld.refCtrlManual
  let held := match n.refs.active with
    | some a => decide (a ≠ m) && n.usable a && n.disputing a m
    | none => false
  if !(n.hdr refPage).active then (none, false)
  else match n.fld refPage Fld.refCtrlMode with
    | 0 => if n.usable m then (if held then (n.refs.active, true) else (some m, false)) else (n.pickSlot, false)
    | 1 => if n.usable m then (if held then (n.refs.active, true) else (some m, false)) else (none, false)
    | _ => (none, false)

/-- Update rate of a slot's input in mHz, as a fraction (R233, R243). -/
def slotRateMilliHz (n : Node) (k : Nat) : Nat × Nat :=
  let cap := fun (num den : Nat) => if 100000000 * den < num then (100000000, 1) else (num, den)
  let den := Nat.max 1 (n.fld refPage Fld.refScfg3Den k)
  let num := n.fld refPage Fld.refScfg2Num k * 1000
  match n.slotKind k with
  | 0 => cap num den
  | 1 => (1000, 1)
  | 4 => (num, den)
  | 5 => cap (n.fld ⟨.aes, n.slotSource k - 8⟩ Fld.aesRxStatRate * 10000) 1
  | 6 =>
    let j := 2 * (n.slotSource k - 0x18)
    let port := if (n.ptp.ports.getD j {}).state = 9 then j else j + 1
    let sync : BitVec 8 := ((n.ptp.ports.getD port {}).intervals >>> 8).setWidth 8
    if 0 ≤ sync.toInt then (1000, 2 ^ sync.toInt.toNat) else (1000 * 2 ^ (-sync.toInt).toNat, 1)
  | _ => (100000000, 1)

/-- The phase grid P of a slot in ns, as a fraction (R233); 0 where its nominal frequency is not given. -/
def slotGrid (n : Node) (k : Nat) : Nat × Nat :=
  match n.slotKind k with
  | 1 => (1000000000, 1)
  | 2 => (200, 1)
  | 3 => (100, 1)
  | 5 => (100000000, n.fld ⟨.aes, n.slotSource k - 8⟩ Fld.aesRxStatRate)
  | _ => (1000000000 * Nat.max 1 (n.fld refPage Fld.refScfg3Den k), n.fld refPage Fld.refScfg2Num k)

/-- The slot that a DPLL follows: none where it follows no slot or has no input (R240). -/
def dpllSlot (n : Node) (k : Nat) : Option Nat :=
  match k with
  | 0 => none
  | 1 => n.refs.active
  | _ => match n.fld (dplPage k) Fld.dplCfgInput with
    | 0 => n.refs.active
    | 2 => let f := n.fld (dplPage k) Fld.dplCfgSlot
           if n.usable f then some f else none
    | _ => none

/-- A DPLL has an input (R240, R241). -/
def dpllInput (n : Node) (k : Nat) : Bool :=
  match k with
  | 0 => n.running
  | 1 => n.refs.active.isSome
  | _ => decide (n.fld (dplPage k) Fld.dplCfgInput = 1) || (n.dpllSlot k).isSome

/-- The code to which the input clamps the bandwidth (R243). -/
def bwLimit (n : Node) (k : Nat) : Nat :=
  match n.dpllSlot k with
  | none => 0x14
  | some s => let r := n.slotRateMilliHz s; bwClamp r.1 r.2

/-- The set bandwidth and the acquisition bandwidth as they act (R243); DP2 and DP3 acquire at their set bandwidth. -/
def bwSet (n : Node) (k : Nat) : Nat := Nat.min (Nat.min 0x14 (n.fld (dplPage k) Fld.dplCfgBw)) (n.bwLimit k)
def bwAcquire (n : Node) (k : Nat) : Nat :=
  if k < 2 then Nat.min (Nat.min 0x14 (n.fld (dplPage k) Fld.dplCfgAcqBw)) (n.bwLimit k) else n.bwSet k

/-- The bandwidth code in force (R243, R244): that of the step-down in an acquisition of DP0 and DP1, within what the input allows, and
otherwise the set one, so that a change of either acts at once. -/
def bwNow (n : Node) (k : Nat) : Nat :=
  let d := n.dpll k
  if d.state = .acquiring ∧ k < 2 then Nat.min d.bw (n.bwLimit k) else n.bwSet k

/-- LOCK.WINDOW as it acts. -/
def lockWindow (n : Node) (k : Nat) : Nat := Nat.max 1 (n.fld (dplPage k) Fld.dplLockWindowNs)

/-- The phase-slope limit of a DPLL in force, in ns per second. -/
def psl (n : Node) (k : Nat) : Nat := Nat.min 100000 (Nat.max 10 (n.fld (dplPage k) Fld.dplPslNsPerS))

/-- The part of a phase step not yet slewed, in ns, at PSL from its start (R245). -/
def slewNow (n : Node) (k : Nat) : Int :=
  let d := n.dpll k
  let moved := (n.clk.now - d.slewAt) * n.psl k / 117600000000
  let left := Int.ofNat (d.slewLeft.natAbs - moved)
  if d.slewLeft < 0 then -left else left

/-- The increment that gives the PHC a frequency against XOIN, in 0.01 ppb (R223). -/
def incrOf (f : Int) : Nat := (Curve.roundRatio (Int.ofNat incrNominal * (100000000000 + f)) 100000000000).toNat

/-- DP1's output frequency in 0.01 ppb: its reference's, and in SWITCHING the slope at which the phase step is worked off (R245). -/
def dp1Freq (n : Node) : Int :=
  let d := n.dpll 1
  let slope := Int.ofNat (n.psl 1 * 100)
  if d.state = .switching then (if d.slewLeft < 0 then d.freq - slope else d.freq + slope) else d.freq

/-- DP1 writes the increment of its output frequency while it steers (R240). -/
def steerDp1 (n : Node) : Node := if n.steering then n.steerTo (incrOf n.dp1Freq) else n

/-- DP0's frequency in 0.01 ppb while it follows the media grid, which is the PHC's (R240). -/
def dp0Freq (n : Node) : Int :=
  match (n.dpll 0).state with
  | .acquiring | .locked | .switching => ((Int.ofNat n.phc.incr - Int.ofNat incrNominal) * 100000000000).tdiv (Int.ofNat incrNominal)
  | _ => 0

/-- Start a DPLL's acquisition at ACQ_BW (R244). -/
def acquire (n : Node) (k : Nat) : Node :=
  let bw := n.bwAcquire k
  n.modDpll k (fun d => { d with state := .acquiring, bw := bw, slewLeft := 0, lockedSecs := 0, held := false, keepsHeld := false })

/-- A DPLL free-runs at its nominal frequency (R241, R247); DP1 writes the nominal increment while it steers. -/
def freeRun (n : Node) (k : Nat) : Node :=
  let n := n.modDpll k (fun d => { d with state := .freeRun, slewLeft := 0, lockedSecs := 0, freq := 0, held := false, keepsHeld := false })
  if k = 1 ∧ n.steering then n.steer incrNominal else n

/-- A DPLL enters HOLDOVER at a held frequency (R246). -/
def holdOver (n : Node) (k : Nat) (f : Int) : Node :=
  let n := n.modDpll k (fun d => { d with state := .holdover, slewLeft := 0, lockedSecs := 0, freq := f, held := false, keepsHeld := false })
  let n := n.bump (dplPage k) Fld.dplEventsHoldovers
  if k = 1 then
    let n := (n.setReg refPage 0x064 (BitVec.ofInt 32 f)).setReg refPage 0x060 0
    n.steerDp1.irq refPage 4
  else n

/-- The mean of a DPLL's frequency over the last HOLDOVER.AVG times 10 s of its locked span, the last 2 s left out (R246)
(DEDUCED, notes/assumptions/101.md). -/
def holdFreq (n : Node) (k : Nat) : Int :=
  let d := n.dpll k
  let fs := ((d.hist.take d.lockedSecs).drop 2).take (10 * Nat.max 6 (n.fld refPage Fld.refHoldoverAvg))
  meanOf fs

/-- DP1 with no slot active (R246, R247). -/
def loseReference (n : Node) : Node :=
  let d := n.dpll 1
  let free := decide (n.fld refPage Fld.refCtrlMode = 3) && (n.hdr refPage).active
  match d.state with
  | .locked | .switching => if 60 ≤ d.lockedSecs ∧ !free then n.holdOver 1 (n.holdFreq 1) else n.freeRun 1
  | .acquiring => n.freeRun 1
  | .holdover => if free then n.freeRun 1 else n
  | .freeRun => if free ∧ d.keepsHeld then n.freeRun 1 else n
  | .fault => n

/-- The phase step of the slot now active (R233, R245): for PTP the latest delivered offset, for XOIN, which has no phase grid, none,
and for any other the measured step from the edges that POL chooses, delayed by SOFFSET, modulo its grid P = `den / num` ns
(DEDUCED, notes/assumptions/181.md). -/
def phaseStep (n : Node) (meas : RefMeas) : Int :=
  match n.refs.active with
  | none => 0
  | some s =>
    if n.slotKind s = 7 then 0
    else if n.slotKind s = 6 then -n.ptp.offset
    else
      let g := n.slotGrid s
      let edge := if n.flag refPage Fld.refScfg3Pol s then meas.fallNs else meas.phaseNs
      gridStep g.1 g.2 (edge - (n.reg refPage 0x080 s).toInt)

/-- DP1 takes the frequency of the slot now active, and works off a phase step (R245). -/
def slewTo (n : Node) (step : Int) : Node :=
  let at_ := n.clk.now
  let f := match n.refs.active with
    | some s => ((n.slot s).abs.head?).getD (n.dpll 1).freq
    | none => (n.dpll 1).freq
  (n.modDpll 1 (fun d => { d with
    state := if step = 0 then .locked else .switching, slewLeft := step, slewAt := at_, freq := f, held := false })).steerDp1

/-- DP1 follows a newly selected slot (R245, R246, R254). -/
def takeReference (n : Node) (meas : RefMeas) : Node :=
  let step := n.phaseStep meas
  match (n.dpll 1).state with
  | .locked | .switching =>
    if n.flag refPage Fld.refCtrlStepOnSwitch ∧ n.fld casPage Fld.casAlignLimNs < step.natAbs then
      let m := n.requestStep step
      if m.fld phcPage Fld.phcStatLastResult = 0 then m.slewTo 0 else m.slewTo step
    else n.slewTo step
  | .fault => n
  | _ => if n.steering then n.acquire 1 else n

/-- A general DPLL that follows a slot meets a change of its input (R241, R246). -/
def followInput (n : Node) (k : Nat) : Node :=
  let d := n.dpll k
  if !(n.hdr (dplPage k)).active then n
  else if n.dpllInput k then
    match d.state with
    | .freeRun | .holdover => n.acquire k
    | _ => n
  else match d.state with
    | .locked => if 60 ≤ d.lockedSecs then
        n.holdOver k (n.holdFreq k)
      else n.freeRun k
    | .acquiring => n.freeRun k
    | _ => n

/-- Re-evaluate the selection (R238) and let the DPLLs follow. -/
def reselect (n : Node) (meas : RefMeas) : Node :=
  let (new, held) := n.selectSlot
  let n := { n with refs := { n.refs with manualHeld := held } }
  let n :=
    if new = n.refs.active then (if new.isNone then n.loseReference else n)
    else
      let last := match n.refs.active with
        | some a => n.slotQl a / 256
        | none => n.refs.lastClass
      let n := { n with refs := { n.refs with active := new, lastActive := new.getD n.refs.lastActive, lastClass := last } }
      let n := (n.bump refPage Fld.refEventsSwitches).irq refPage 0
      match new with
      | none => n.loseReference
      | some _ => n.takeReference meas
  (n.followInput 2).followInput 3

/-- The reference state of R248. -/
def refState (n : Node) : Nat :=
  let d := (n.dpll 1).state
  if (n.dpll 0).state = .fault ∨ d = .fault then 7
  else if d = .freeRun ∨ !n.steering then 0
  else if d = .holdover then 3
  else if d = .acquiring then 1
  else if d = .switching then 4
  else match n.refs.active with
    | none => 2
    | some a => if n.refs.disputes.any (fun p => decide (p.1 = a ∨ p.2 = a)) then 6
      else if (n.slot a).state = .degraded then 5 else 2

/-- The slot that REFNUM and REF.STAT.ACTIVE show (R248). -/
def refNum (n : Node) : Nat := n.refs.active.getD n.refs.lastActive

/-- REFSTAT and REFNUM as the balls carry them (R23, R24, R248, R249): while POR_N is low and until the straps are latched they are strap
inputs, and until REF is enabled they show FREE_RUN. -/
def refBalls (n : Node) : Option (Nat × Nat) :=
  if !n.boot.strapped then none
  else match n.pins.refHeld with
    | some p => some p
    | none => if !n.refs.started then some (0, 0) else some (n.refState, if n.refState = 0 then 0 else n.refNum)

/-- clockClass and clockAccuracy that the node announces as grandmaster (R250). -/
def announced (n : Node) : Nat × Nat :=
  let ql := n.slotQl n.refNum
  match n.refState with
  | 2 | 4 | 6 => (ql / 256, ql % 256)
  | 5 => (ql / 256, 0xFE)
  | 3 => (if n.refs.lastClass = 6 then 7 else if n.refs.lastClass = 13 then 14 else n.refs.lastClass, 0xFE)
  | _ => (248, 0xFE)

/-- Channel status byte 4 bits [1:0] of an AES11 reference output (R251). -/
def aes11Grade (n : Node) : Nat :=
  match n.refState with
  | 2 | 6 => if n.slotQl n.refNum / 256 ≤ n.fld refPage Fld.refQlmapG1 / 256 then 1 else 2
  | 4 | 5 | 3 => 2
  | _ => 0

/-- A change that may move the reference state: REF PG_IRQ bit 1 is set where it moved. -/
def refEvent (n : Node) (f : Node → Node) : Node :=
  let m := f n
  if m.refState = n.refState then m else m.irq refPage 1

/-- A slot changes state and the selection is re-evaluated. -/
def slotTo (n : Node) (k : Nat) (s : SlotState) (meas : RefMeas) : Node :=
  (n.modSlot k (fun r => { r with state := s })).reselect meas

/-- Loss of a slot's signal (R237). -/
def slotLoss (n : Node) (k : Nat) (meas : RefMeas) : Node :=
  match (n.slot k).state with
  | .disabled | .noSignal => n
  | _ => (n.modSlot k (fun r => { r with
      state := .noSignal, abs := [], rel := 0, drift := 0, wtrLeft := 0, agreed := 0, phaseIgnored := false })).reselect meas

/-- The QL that an AES3 receiver's last captured block gives (R234): professional format, byte 4 bits [1:0]. -/
def aesQl (n : Node) (rx : Nat) : Option (BitVec 16) :=
  match (Sparse.get (fun _ => ({} : AesSt)) n.loc.aes rx).capture.headD [] with
  | [] => none
  | cs =>
    let grade := (cs.getD 4 0).toNat % 4
    if !(cs.getD 0 0).getLsbD 0 then none
    else if grade = 1 then some (BitVec.ofNat 16 (n.fld refPage Fld.refQlmapG1))
    else if grade = 2 then some (BitVec.ofNat 16 (n.fld refPage Fld.refQlmapG2))
    else none

/-- A port of the pair is SLAVE. -/
def pairSlave (n : Node) (pair : Nat) : Bool :=
  decide ((n.ptp.ports.getD (2 * pair) {}).state = 9 ∨ (n.ptp.ports.getD (2 * pair + 1) {}).state = 9)

/-- The QL of the PTP service's parent (R234). -/
def ptpQl (n : Node) : BitVec 16 := BitVec.ofNat 16 (n.ptp.clockClass * 256 + n.ptp.accuracy)

/-- The native QL that a slot's source has brought (R234). -/
def nativeQl (n : Node) (k : Nat) : Option (BitVec 16) :=
  if !n.slotCfgOk k then none
  else if n.slotKind k = 5 then n.aesQl (n.slotSource k - 8)
  else if n.slotKind k = 6 ∧ n.pairSlave (n.slotSource k - 0x18) then some n.ptpQl
  else none

/-- A write to a slot's configuration (R234, R235): NO_SIGNAL or DISABLED, as a loss where the slot is active, with the native QL of the
source that it now names (DEDUCED, notes/assumptions/102.md). -/
def slotRestart (n : Node) (k : Nat) (meas : RefMeas) : Node :=
  let s := if n.slotEnabled k then SlotState.noSignal else .disabled
  let q := n.nativeQl k
  (n.modSlot k (fun _ => { state := s, received := q })).reselect meas

/-- WTR_S as it acts. -/
def wtrSeconds (n : Node) (k : Nat) : Nat := Nat.min 3600 (n.fld refPage Fld.refScfg0WtrS k)

/-- A fresh measurement for a change of reference that an event outside the selector brings. -/
def freshMeas (n : Node) : RefMeas × Node :=
  let (a, n) := n.fresh
  let (b, n) := n.fresh
  ({ phaseNs := a.toInt, fallNs := b.toInt }, n)

/-- A slot's received QL changes (R234, R235). -/
def slotQlChange (n : Node) (k : Nat) (q : Option (BitVec 16)) (meas : RefMeas) : Node :=
  let n := n.modSlot k (fun r => { r with received := q })
  match (n.slot k).state with
  | .waitRestore | .qualified | .degraded => if n.qlGood k then n.reselect meas else n.slotTo k .qlLow meas
  | .qlLow => if n.qlGood k then n.slotTo k .validating meas else n
  | _ => n

/-- A slot's signal is present (R235): one whose kind does not suit its source stays NO_SIGNAL (R233). -/
def slotPresent (n : Node) (k : Nat) : Node :=
  if (n.slot k).state = .noSignal ∧ n.slotCfgOk k ∧ n.slotEnabled k then
    n.modSlot k (fun r => { r with state := .validating })
  else n

/-- The enabled slots that name an AES3 receiver (R233). -/
def aesSlots (n : Node) (rx : Nat) : List Nat :=
  (List.range 16).filter (fun k => n.slotEnabled k && decide (n.slotKind k = 5 ∧ n.slotSource k = 8 + rx))

/-- An AES3 receiver's slots meet its lock (R235, R237). -/
def aesSlotsFollow (n : Node) (rx : Nat) (locked : Bool) : Node :=
  n.refEvent (fun n => (n.aesSlots rx).foldl (fun m k =>
    if locked then m.slotPresent k
    else
      let (meas, m) := m.freshMeas
      m.slotLoss k meas) n)

/-- An AES3 receiver's channel status, newly captured, grades its slots (R234). -/
def aesSlotsGrade (n : Node) (rx : Nat) : Node :=
  let q := n.aesQl rx
  n.refEvent (fun n => (n.aesSlots rx).foldl (fun m k =>
    if (m.slot k).received = q then m
    else
      let (meas, m) := m.freshMeas
      m.slotQlChange k q meas) n)

/-- One slot at the end of a gate (R235, R236). -/
def gateSlot (n : Node) (k : Nat) : Node :=
  let hard := n.monitorsWithin k hardLimits 1 1
  let soft := n.monitorsWithin k softLimits 1 1
  let goTo := fun (s : SlotState) (irq : Bool) =>
    let m := n.modSlot k (fun r => { r with state := s, wtrLeft := 0 })
    if irq then m.irq refPage 2 else m
  match (n.slot k).state with
  | .qualified => if !hard then goTo .disqualified true else if !soft then goTo .degraded true else n
  | .degraded => if !hard then goTo .disqualified true
      else if n.monitorsWithin k softLimits 9 10 then goTo .qualified false else n
  | .waitRestore => if !hard then goTo .disqualified true else n.modSlot k (fun r => { r with wtrLeft := r.wtrLeft - 1 })
  | .disqualified => if soft then goTo .validating false else n
  | .qlLow | .votedOut => if !hard then goTo .disqualified true else n
  | _ => n

/-- One slot's measurement enters its monitors. -/
def gateMeasure (n : Node) (abs : List (Option Int)) (k : Nat) : Node :=
  match (n.slot k).state with
  | .disabled | .noSignal => n
  | _ =>
    let a := if n.slotKind k = 7 then some 0 else abs.getD k none
    match a with
    | none => n
    | some v => n.modSlot k (fun r =>
        let as := (v :: r.abs).take 17
        { r with abs := as, drift := driftOf as, phaseIgnored := false })

/-- The frequency that a DPLL measures at its input: the slot's, or DP0's (R240); without an input it keeps its own. -/
def inputFreq (n : Node) (k : Nat) : Int :=
  match n.dpllSlot k with
  | some s => (n.slot s).abs.headD 0
  | none => if 2 ≤ k ∧ n.fld (dplPage k) Fld.dplCfgInput = 1 then n.dp0Freq else (n.dpll k).freq

/-- A second passes for a DPLL: its locked span, and the frequency that it has measured. While STEER is 0, DP1 measures, and reports
FREE_RUN (R240). -/
def dpllSecond (n : Node) (k : Nat) : Node :=
  let f := n.inputFreq k
  let ignored := match n.dpllSlot k with
    | some s => (n.slot s).phaseIgnored
    | none => false
  n.modDpll k (fun d => match d.state with
    | .locked | .switching =>
      { d with lockedSecs := d.lockedSecs + 1, freq := f, hist := (f :: d.hist).take 2552, held := ignored }
    | .acquiring => { d with freq := f, held := ignored }
    | .freeRun => if k = 1 ∧ !n.steering then { d with lockedSecs := 0, freq := f } else { d with lockedSecs := 0 }
    | _ => { d with lockedSecs := 0 })

/-- The end of a 1 s gate (R236, R246). -/
def frequencyGate (n : Node) (abs : List (Option Int)) (meas : RefMeas) : Node :=
  let was := decide ((n.dpll 1).state = .holdover)
  let n := (List.range 16).foldl (fun m k => m.gateMeasure abs k) n
  let n := (List.range 16).foldl (fun m k => match m.refs.active with
    | none => m.modSlot k (fun r => { r with rel := 0 })
    | some a => let b := (m.slot a).abs.headD 0
                m.modSlot k (fun r => { r with rel := if m.relApplies k && !r.abs.isEmpty then relOf (r.abs.headD 0) b else 0 })) n
  let n := (List.range 16).foldl (fun m k => m.gateSlot k) n
  let n := n.reselect meas
  let n := ((n.dpllSecond 1).dpllSecond 2).dpllSecond 3
  let d := n.dpll 1
  let n := match d.state with
    | .locked | .switching | .acquiring => n.steerDp1
    | _ => n
  if was && decide (d.state = .holdover) then n.bump refPage Fld.refHoStatElapsed else n

/-- REF.AGREE as it acts, in 0.01 ppb. -/
def agreeWindow (n : Node) : Nat := Nat.max 1 (n.fld refPage Fld.refAgreePpb) * 100

/-- A slot's frequency averaged over the last 16 s, in 0.01 ppb (R239) (DEDUCED, notes/assumptions/101.md). -/
def slotMean (n : Node) (k : Nat) : Int := meanOf ((n.slot k).abs.take 16)

/-- Two slots' 16 s means agree within the window (R239). -/
def slotsAgree (n : Node) (a b : Nat) : Bool :=
  decide ((n.slotMean a - n.slotMean b).natAbs ≤ n.agreeWindow)

/-- Judge one pair of slots (R239). -/
def judgePair (n : Node) (p : Nat × Nat) : Node :=
  let end_ := { n with refs := { n.refs with disputes := n.refs.disputes.filter (fun q => decide (q ≠ p)) } }
  if !(n.usable p.1 && n.usable p.2 && decide (n.slotRank p.1 = n.slotRank p.2)) || n.slotsAgree p.1 p.2 then end_
  else
    let judge := (n.usableSlots.filter (fun k => decide (k ≠ p.1 ∧ k ≠ p.2))).foldl (fun b k => match b with
      | none => some k
      | some x => if n.slotRank k < n.slotRank x then some k else some x) none
    let out := fun (k : Nat) =>
      let m := end_.modSlot k (fun r => { r with state := .votedOut, agreed := 0 })
      (m.bump refPage Fld.refEventsVotes).irq refPage 2
    let stands := if n.refs.disputes.contains p then n
      else
        let m := { n with refs := { n.refs with disputes := n.refs.disputes ++ [p] } }
        (m.bump refPage Fld.refEventsDisputes).irq refPage 3
    match judge with
    | none => stands
    | some j => match n.slotsAgree j p.1, n.slotsAgree j p.2 with
      | true, false => out p.2
      | false, true => out p.1
      | _, _ => stands

/-- Disputes are judged once per second (R239). -/
def judgeDisputes (n : Node) (meas : RefMeas) : Node :=
  let pairs := (List.range 16).flatMap (fun a => ((List.range 16).filter (fun b => decide (a < b))).map (fun b => (a, b)))
  let n := pairs.foldl judgePair n
  let n := (List.range 16).foldl (fun m k =>
    if (m.slot k).state = .votedOut then
      let agree := (m.usableSlots.filter (fun u => m.slotsAgree k u)).length
      m.modSlot k (fun r => { r with agreed := if 2 ≤ agree then r.agreed + 1 else 0 })
    else m) n
  n.reselect meas

/-- DP0 starts with casement generation and stops with it (R241, R254). -/
def dp0Start (n : Node) : Node := n.refEvent (fun n => if (n.dpll 0).state = .fault then n else n.acquire 0)
def dp0Stop (n : Node) : Node := n.refEvent (fun n => if (n.dpll 0).state = .fault then n else n.freeRun 0)

/-- PHC.CTRL.STEER changes (R240): while it is 0, DP1 measures and reports FREE_RUN. -/
def steerWritten (n : Node) : Node :=
  n.refEvent (fun n =>
    if (n.dpll 1).state = .fault then n
    else if n.steering then
      let n := n.steer incrNominal
      if n.refs.active.isSome then n.acquire 1 else n
    else n.freeRun 1)

/-- A DPLL enters FAULT with its code (R254). -/
def dpllFault (n : Node) (k code : Nat) : Node :=
  n.refEvent (fun n =>
    ((n.modDpll k (fun d => { d with state := .fault, slewLeft := 0, lockedSecs := 0 })).raiseFault (dplPage k) code).irq
      (dplPage k) 2)

/-- Frequency family of a DPLL's clock: 0 98.304 MHz, 1 90.3168 MHz, 2 10 MHz. -/
def dpllFamily (n : Node) (k : Nat) : Nat :=
  match k with
  | 0 => if n.rate % 2 = 0 then 1 else 0
  | 1 => 2
  | _ => n.fld (dplPage k) Fld.dplCfgFamily

/-- The DPLL that an output's SRC names. -/
def wckSource (n : Node) (k : Nat) : Nat := match n.fld refPage (Fld.refWckSrc k) with
  | 1 => 2 | 2 => 3 | _ => 0
def tenSource (n : Node) : Nat := match n.fld refPage Fld.refTenSrc with
  | 1 => 2 | 2 => 3 | _ => 1

/-- WCKn.ERR (R252) and TEN.ERR (R253) (DEDUCED, notes/assumptions/105.md). -/
def wckErr (n : Node) (k : Nat) : Bool :=
  let src := n.wckSource k
  let need := match n.fld refPage (Fld.refWckRate k) with
    | 0 | 2 | 4 | 6 => some 0
    | 7 => none
    | _ => some 1
  n.flag refPage (Fld.refWckEnable k) && (match need with
    | none => false
    | some f => decide (n.dpllFamily src ≠ f))
def tenErr (n : Node) : Bool :=
  n.flag refPage Fld.refTenEnable && decide (n.dpllFamily n.tenSource ≠ 2)

/-- An output under SQUELCH is held low while the node state is FREE_RUN or FAULT (R252, R253). -/
def squelched (n : Node) (squelch : Bool) : Bool := squelch && decide (n.refState = 0 ∨ n.refState = 7)

/-- How a clock output ball is driven: undriven without power, low in reset, in the fatal state and where `runs` is false. -/
def clockBall (n : Node) (runs : Bool) : Drive :=
  if n.pins.clocked = .undriven then .undriven
  else if n.boot.strapped && n.pins.refHeld.isNone && runs then .live else .low

/-- A DPLL runs: DP0 and DP1 from reset, DP2 and DP3 while their pages are Active (R240). -/
def dpllRuns (n : Node) (k : Nat) : Bool := decide (k < 2) || (n.hdr (dplPage k)).active

/-- WCKOUTn (R240, R252): low while it is not enabled, at RATE 0b111, for a family mismatch, from a DPLL that does not run, under SQUELCH,
and, sourced from DP0, during the stop of a re-index sequence. -/
def wckBall (n : Node) (k : Nat) : Drive :=
  n.clockBall (n.flag refPage (Fld.refWckEnable k) && decide (n.fld refPage (Fld.refWckRate k) ≠ 7) && !n.wckErr k
    && n.dpllRuns (n.wckSource k) && !n.squelched (n.flag refPage (Fld.refWckSquelch k))
    && !(decide (n.wckSource k = 0) && decide (n.cas.reindex = .stopped)))

/-- PPSOUT and TENOUT (R240, R253). -/
def ppsBall (n : Node) : Drive :=
  n.clockBall (n.flag refPage Fld.refPpsEnable && !n.squelched (n.flag refPage Fld.refPpsSquelch))
def tenBall (n : Node) : Drive :=
  n.clockBall (n.flag refPage Fld.refTenEnable && !n.tenErr && n.dpllRuns n.tenSource && !n.squelched (n.flag refPage Fld.refTenSquelch))

/-- RATE of a word clock in Hz. -/
def wckHz (n : Node) (k : Nat) : Nat :=
  [32000, 44100, 48000, 88200, 96000, 176400, 192000].getD (n.fld refPage (Fld.refWckRate k)) 0

/-- The level of a live WCKOUTn: high in the half period from each PHC time j ÷ rate + OFFSET_NS (R252). -/
def wckHigh (n : Node) (k : Nat) : Bool :=
  let off := (BitVec.ofNat 16 (n.fld refPage (Fld.refWckOffsetNs k))).toInt
  decide (((n.phcNs - off) * Int.ofNat (n.wckHz k)).emod 1000000000 < 500000000)

/-- The level of a live PPSOUT: high for WIDTH_US from each PHC second; and of a live TENOUT, whose edges lie on the PHC's 100 ns grid
(R253). -/
def ppsHigh (n : Node) : Bool := decide (n.phc.ns < Nat.max 1 (n.fld refPage Fld.refPpsWidthUs) * 1000)
def tenHigh (n : Node) : Bool := decide (n.phc.ns % 100 < 50)

/-- HO_STAT.HIST_OK: the history is qualified up to now, or was at the loss that the holdover in force follows (R246). -/
def historyOk (n : Node) (k : Nat) : Bool :=
  let d := n.dpll k
  decide (60 ≤ d.lockedSecs ∨ d.state = .holdover) || d.keepsHeld

/-- What the REF registers that show state read as; `sel` is the slot selected. -/
def refView (n : Node) (off sel : Nat) : Option Word :=
  let s := n.slot sel
  let b := fun (x : Bool) (k : Nat) => if x then 2 ^ k else 0
  match off with
  | 0x044 => some (BitVec.ofNat 32 ((n.usableSlots.foldl (fun m k => m + 2 ^ k) 0) * 65536 + b n.refs.manualHeld 15
      + n.refNum * 256 + b n.refs.active.isSome 7 + n.refState))
  | 0x060 => some (n.reg refPage 0x060 ||| BitVec.ofNat 32 (b (n.historyOk 1) 31))
  | 0x084 => some (BitVec.ofNat 32 (s.wtrLeft % 4096 * 2 ^ 20
      + b (n.refs.disputes.any (fun p => decide (p.1 = sel ∨ p.2 = sel))) 17 + b (decide (n.refs.active = some sel)) 16
      + b (n.slotEnabled sel && !n.slotCfgOk sel) 8 + slotCode s.state))
  | 0x088 | 0x08C | 0x090 | 0x094 => some (n.reg refPage off 0xFFFF)
  | 0x0A0 | 0x0A4 | 0x0A8 | 0x0AC => some (n.reg refPage off ||| BitVec.ofNat 32 (b (n.wckErr ((off - 0x0A0) / 4)) 22))
  | 0x0B4 => some (n.reg refPage off ||| BitVec.ofNat 32 (b n.tenErr 22))
  | _ => none

/-- A read of SSTAT latches SQL to SDRIFT of the selected slot (REF.SEL). -/
def latchSlot (n : Node) : Node :=
  let k := n.fld refPage Fld.refSelSlot
  let s := n.slot k
  let ql := (match s.received with
    | some q => q.toNat
    | none => 0xFFFF) * 65536 + n.slotQl k
  (((n.setReg refPage 0x088 (BitVec.ofNat 32 ql) 0xFFFF).setReg refPage 0x08C (BitVec.ofInt 32 (s.abs.headD 0)) 0xFFFF).setReg
    refPage 0x090 (BitVec.ofInt 32 s.rel) 0xFFFF).setReg refPage 0x094 (BitVec.ofInt 32 s.drift) 0xFFFF

/-- What the DPL registers that show state read as. A DPLL that follows no input shows no bandwidth. DP1's phase error on a PTP slot is the
offset that the PTP service delivers, against the slewed target (R240); any other is a measurement that only the DPLL's own hardware makes
(notes/assumptions/181.md). -/
def dplView (n : Node) (k off : Nat) : Option Word :=
  let d := n.dpll k
  let bw := n.bwNow k
  let follows := decide (d.state = .acquiring ∨ d.state = .locked ∨ d.state = .switching)
  let bw := if follows then bw else 0
  let clamped := follows && (decide (n.bwLimit k < Nat.min 0x14 (n.fld (dplPage k) Fld.dplCfgBw))
    || (decide (d.state = .acquiring ∧ k < 2) && decide (n.bwLimit k < Nat.min 0x14 (n.fld (dplPage k) Fld.dplCfgAcqBw))))
  match off with
  | 0x040 =>
    let w := n.reg (dplPage k) off
    if k = 0 then some (setWordField w Fld.dplCfgFamily (n.dpllFamily 0))
    else if k = 1 then some w
    else some (setWordField w Fld.dplCfgAcqBw (n.fld (dplPage k) Fld.dplCfgBw))
  | 0x04C => some (BitVec.ofNat 32 ((if clamped then 2 ^ 17 else 0) + (if d.state = .switching then 2 ^ 16 else 0)
      + bw * 256 + dpllCode d.state))
  | 0x050 => some (if !n.dpllInput k || !n.dpllRuns k then 0
      else if k = 1 ∧ n.refs.active.any (fun s => decide (n.slotKind s = 6)) then satWord (-n.ptp.offset - n.slewNow 1)
      else satWord (Config.dpllPhase k n.clk.now))
  | 0x054 => some (satWord (n.slewNow k))
  | 0x058 => some (BitVec.ofInt 32 (if k = 0 then n.dp0Freq else if k = 1 then n.dp1Freq else d.freq))
  | _ => none

end Node

/-- REF and DPL are written from a configuration (R233). -/
def Node.loadRefpol (n : Node) (ws : List (Page × Nat × Nat × Word)) (meas : RefMeas) : Node :=
  n.refEvent (fun n =>
    let ws := ws.filter (fun e => decide (e.1 = refPage ∨ e.1.block = .dpl))
    let n := ws.foldl (fun m e => m.setReg e.1 e.2.1 e.2.2.2 e.2.2.1) n
    let ks := ((ws.filter (fun e => decide (e.1 = refPage ∧ 0x070 ≤ e.2.1 ∧ e.2.1 ≤ 0x080))).map (·.2.2.1)).eraseDups
    (ks.foldl (fun m k => m.slotRestart k meas) n).reselect meas)

/-- REFPOL_RELOAD (R233): the service rewrites REF and DPL from the configuration in force and answers OK. -/
def refpolReload (n : Node) (slot : Fin 4) (meas : RefMeas) : Node :=
  n.serveSlot slot (fun n =>
    let n := if n.rt.inForce then n.loadRefpol n.rt.cfg.refpol meas else n
    n.answer slot okCode)

def execRefpolReload (slot : Fin 4) (meas : RefMeas) (s : State) : Host.Outcome State Fault Refusal :=
  s.hub (fun n => refpolReload n slot meas)

/-- REF_SIGNAL_LOSS (R237). -/
def execRefSignalLoss (slot : Fin 16) (meas : RefMeas) (s : State) : Host.Outcome State Fault Refusal :=
  s.hub (fun n => n.refEvent (fun n => n.slotLoss slot meas))

/-- REF_SIGNAL_PRESENT (R235). -/
def execRefSignalPresent (slot : Fin 16) (s : State) : Host.Outcome State Fault Refusal :=
  s.hub (fun n => n.slotPresent slot)

/-- REF_VALIDATION_DONE (R235). -/
def validationDone (n : Node) (k : Nat) (meas : RefMeas) : Node :=
  if (n.slot k).state = .validating ∧ n.qlGood k ∧ n.monitorsWithin k Node.hardLimits 1 1 then
    if n.flag refPage Fld.refScfg0WtrEn k then
      n.modSlot k (fun r => { r with state := .waitRestore, wtrLeft := n.wtrSeconds k })
    else n.slotTo k .qualified meas
  else n

def execRefValidationDone (slot : Fin 16) (meas : RefMeas) (s : State) : Host.Outcome State Fault Refusal :=
  s.hub (fun n => n.refEvent (fun n => validationDone n slot meas))

/-- REF_WAIT_RESTORE_DONE (R235). -/
def waitRestoreDone (n : Node) (k : Nat) (meas : RefMeas) : Node :=
  if (n.slot k).state = .waitRestore then (n.modSlot k (fun r => { r with wtrLeft := 0 })).slotTo k .qualified meas else n

def execRefWaitRestoreDone (slot : Fin 16) (meas : RefMeas) (s : State) : Host.Outcome State Fault Refusal :=
  s.hub (fun n => n.refEvent (fun n => waitRestoreDone n slot meas))

/-- REF_FREQUENCY_GATE (R236). -/
def execRefFrequencyGate (abs : List (Option Int)) (meas : RefMeas) (s : State) : Host.Outcome State Fault Refusal :=
  s.hub (fun n => n.refEvent (fun n => n.frequencyGate abs meas))

/-- REF_QL_CHANGE (R234). -/
def execRefQlChange (slot : Fin 16) (received : Option (BitVec 16)) (meas : RefMeas) (s : State) :
    Host.Outcome State Fault Refusal :=
  s.hub (fun n => n.refEvent (fun n => n.slotQlChange slot received meas))

/-- REF_DISPUTE_JUDGE (R239). -/
def execRefDisputeJudge (meas : RefMeas) (s : State) : Host.Outcome State Fault Refusal :=
  s.hub (fun n => n.refEvent (fun n => n.judgeDisputes meas))

/-- REF_VOTED_OUT_RETURN (R239): after 60 evaluations in a row, one a second, that agreed with two usable slots. -/
def votedOutReturn (n : Node) (k : Nat) : Node :=
  if (n.slot k).state = .votedOut ∧ 60 ≤ (n.slot k).agreed then n.modSlot k (fun r => { r with state := .validating, agreed := 0 }) else n

def execRefVotedOutReturn (slot : Fin 16) (s : State) : Host.Outcome State Fault Refusal :=
  s.hub (fun n => votedOutReturn n slot)

/-- DPLL_BW_STEP_DOWN (R244): a phase error within LOCK.WINDOW for 5τ steps the bandwidth down one code, and once at BW locks. -/
def bwStepDown (n : Node) (k err : Nat) : Node :=
  if (n.dpll k).state = .acquiring ∧ err ≤ n.lockWindow k then
    if n.bwSet k < n.bwNow k then let bw := n.bwNow k - 1; n.modDpll k (fun d => { d with bw := bw })
    else let bw := n.bwSet k; n.modDpll k (fun d => { d with state := .locked, bw := bw, lockedSecs := 0 })
  else n

def execDpllBwStepDown (e : LoopErr) (s : State) : Host.Outcome State Fault Refusal :=
  s.hub (fun n => n.refEvent (fun n => bwStepDown n e.dpll e.errNs))

/-- DPLL_LOCK_LOSS (R244): a phase error beyond 4 × LOCK.WINDOW; during the step-down it returns the bandwidth to ACQ_BW. -/
def lockLoss (n : Node) (k err : Nat) : Node :=
  if err ≤ 4 * n.lockWindow k then n
  else match (n.dpll k).state with
    | .locked | .switching => ((n.acquire k).bump (dplPage k) Fld.dplEventsLockLoss).irq (dplPage k) 1
    | .acquiring => n.acquire k
    | _ => n

def execDpllLockLoss (e : LoopErr) (s : State) : Host.Outcome State Fault Refusal :=
  s.hub (fun n => n.refEvent (fun n => lockLoss n e.dpll e.errNs))

/-- DPLL_SLEW_COMPLETE (R245): the phase step has been worked off, and DP1 goes on at its reference's frequency. -/
def slewComplete (n : Node) : Node :=
  if (n.dpll 1).state = .switching ∧ n.slewNow 1 = 0 then (n.modDpll 1 (fun d => { d with state := .locked, slewLeft := 0 })).steerDp1
  else n

def execDpllSlewComplete (s : State) : Host.Outcome State Fault Refusal :=
  s.hub (fun n => n.refEvent slewComplete)

/-- DPLL_HOLDOVER_EXPIRY (R246, R247): DP1 keeps the held frequency and reports FREE_RUN. -/
def holdoverExpiry (n : Node) : Node :=
  let limit := n.fld refPage Fld.refHoldoverLimitS
  if (n.dpll 1).state = .holdover ∧ limit ≠ 0 ∧ limit ≤ n.fld refPage Fld.refHoStatElapsed then
    let n := n.modDpll 1 (fun d => { d with state := .freeRun, keepsHeld := true })
    (n.setFld refPage Fld.refHoStatExpired 1).irq refPage 5
  else n

def execDpllHoldoverExpiry (s : State) : Host.Outcome State Fault Refusal :=
  s.hub (fun n => n.refEvent holdoverExpiry)

/-- DPLL_SYNTH_UNLOCK and DPLL_FREQ_LIMIT (R254). -/
def execDpllSynthUnlock (k : Fin 4) (s : State) : Host.Outcome State Fault Refusal :=
  s.hub (fun n => n.dpllFault k 1)
def execDpllFreqLimit (k : Fin 4) (s : State) : Host.Outcome State Fault Refusal :=
  s.hub (fun n => n.dpllFault k 2)

/-- DPLL_FAULT_RECOVER (R254): ACQUIRING after 1 s without the condition; without an input, FREE_RUN (R241). -/
def faultRecover (n : Node) (k : Nat) : Node :=
  if (n.dpll k).state = .fault then
    if n.dpllInput k && (decide (k ≠ 1) || n.steering) then n.acquire k else n.freeRun k
  else n

def execDpllFaultRecover (k : Fin 4) (s : State) : Host.Outcome State Fault Refusal :=
  s.hub (fun n => n.refEvent (fun n => faultRecover n k))

/-- MISSING_EDGE_HOLD (R237): the first missing edge of a REFIN slot; DPLLs that follow it hold their frequency. -/
def missingEdge (n : Node) (k : Nat) : Node :=
  if n.slotKind k ≤ 4 ∧ (n.slot k).state ≠ .disabled ∧ (n.slot k).state ≠ .noSignal then
    let n := n.modSlot k (fun r => { r with phaseIgnored := true })
    [1, 2, 3].foldl (fun m d => if m.dpllSlot d = some k then m.modDpll d (fun x => { x with held := true }) else m) n
  else n

def execMissingEdgeHold (slot : Fin 16) (s : State) : Host.Outcome State Fault Refusal :=
  s.hub (fun n => missingEdge n slot)

end Sys2Proof.Machine
end

