-- ==== Sys2Proof/Machine/LocalAudio.lean ====
section
/-! DEFINITION. Local audio ports (R255 to R273): AES3 receivers and transmitters, TDM ports and their slot masks,
sigma-delta inputs and decimators. -/

namespace Sys2Proof.Machine

open Sys2Proof (Word Byte Sparse Page Block Die Port Src ShutterId InputId SinkId ShutCfg Subframe AesBlock)

def aesPage (k : Nat) : Page := ⟨.aes, k⟩
def tdmPage (p : Nat) : Page := ⟨.tdm, p⟩
def sdiPage : Page := ⟨.sdi, 0⟩
def decPage : Page := ⟨.dec, 0⟩

/-- Rate divider of a code: 0b00 and 0b11 give 1 (AES.CFG.TX_DIV, TDM.CFG.DIV). -/
def divOf (code : Nat) : Nat := if code = 1 then 2 else if code = 2 then 4 else 1

/-- Rate class of a node rate: 1, 2 or 4 (R256). -/
def rateClass (rate : Nat) : Nat := rateS rate / 6

/-- Input or output term of a port at DIV, in samples (R256). -/
def portTerm (rate div : Nat) : Nat :=
  if div = 4 then 44 else if div = 2 then (if rateClass rate = 4 then 34 else 18) else 1

/-- A decimator preset's group delay and settle time at its output rate, and the output rate's class (R270). -/
def presetDelay (p : Nat) : Nat := if p = 0 then 36 else if p = 1 then 24 else 4
def presetSettle (p : Nat) : Nat := if p = 0 then 80 else if p = 1 then 56 else 48
def presetClass (p : Nat) : Nat := if p = 0 then 1 else 2

/-- Group delay of the converter stage between the preset's output rate and the node rate, in node samples (R256, R270). -/
def converterDelay (p rate : Nat) : Nat :=
  let a := presetClass p
  let b := rateClass rate
  if a = b then 0 else if a = 1 then (if b = 2 then 16 else 40) else if b = 4 then 32 else 8

/-- Total delay of a decimator channel (R271), and its suppression after a swap (R272), in node samples. -/
def decimatorDelay (p rate : Nat) : Nat := presetDelay p * rateClass rate / presetClass p + converterDelay p rate
def decimatorSettle (p rate : Nat) : Nat := presetSettle p * rateClass rate / presetClass p + 2 * converterDelay p rate

namespace Node

def aes (n : Node) (k : Nat) : AesSt := Sparse.get (fun _ => {}) n.loc.aes k
def modAes (n : Node) (k : Nat) (f : AesSt → AesSt) : Node :=
  { n with loc := { n.loc with aes := Sparse.set (fun _ => {}) n.loc.aes k (f (n.aes k)) } }
def tdm (n : Node) (p : Nat) : TdmSt := Sparse.get (fun _ => {}) n.loc.tdm p
def modTdm (n : Node) (p : Nat) (f : TdmSt → TdmSt) : Node :=
  { n with loc := { n.loc with tdm := Sparse.set (fun _ => {}) n.loc.tdm p (f (n.tdm p)) } }
def dec (n : Node) (k : Nat) : DecSt := Sparse.get (fun _ => {}) n.loc.dec k
def modDec (n : Node) (k : Nat) (f : DecSt → DecSt) : Node :=
  { n with loc := { n.loc with dec := Sparse.set (fun _ => {}) n.loc.dec k (f (n.dec k)) } }

/-- The sources of an input are held with their control gain at 0, as for a refill hold (R257, R272). -/
def holdSources (n : Node) (i : InputId) : Node :=
  (n.inputStrips i).foldl (fun m id => m.modShut id (fun sh => { holdShutter sh with inHold := true })) n

/-- That hold ends: the sources open over their RAMP, unless they still refill. -/
def releaseSources (n : Node) (i : InputId) : Node :=
  (n.inputStrips i).foldl (fun m id =>
    let refills := (m.strip (if id.sinkKind = 8 then 5 else 1) id.index).held
    m.modShut id (fun sh =>
      if sh.inHold then
        let sh := { sh with inHold := false }
        if refills then sh else releaseShutter (rateHz m.rate) sh
      else sh)) n

/-- State of an AES3 receiver (R257). -/
def aesState (n : Node) (k : Nat) : Nat := n.fld (aesPage k) Fld.aesRxStatState

/-- A receiver changes its state; leaving LOCKED is an underrun of the input (R257), and the reference slots that
name it follow (R235, R237). A hold ends with LOCKING and SETTLING: its strips open at the next boundary. -/
def setAesState (n : Node) (k v : Nat) : Node :=
  let old := n.aesState k
  if old = v then n
  else
    let n := (n.setFld (aesPage k) Fld.aesRxStatState v).irq (aesPage k) 0
    let n := if (old = 2 ∨ old = 3) ∧ v < 2 then n.modAes k (fun a => { a with opens := true }) else n
    let n := if old = 4 then n.inputFails ⟨1, k⟩ false true else n
    if old = 4 then n.aesSlotsFollow k false else if v = 4 then n.aesSlotsFollow k true else n

/-- The receiver and the transmitter run as the page and RX_ON and TX_ON give (R257, R263). -/
def aesFollow (n : Node) (k : Nat) : Node :=
  let p := aesPage k
  let on := (n.hdr p).active
  let rx := on && decide (n.act p Fld.aesCfgRxOn ≠ 0)
  let tx := on && decide (n.act p Fld.aesCfgTxOn ≠ 0)
  let n := if rx then (if n.aesState k = 0 then n.setAesState k 1 else n) else n.setAesState k 0
  if tx then (n.setFld p Fld.aesTxStatRunning 1).modAes k (fun a => { a with txStops := false })
  else if n.flag p Fld.aesTxStatRunning then n.modAes k (fun a => { a with txStops := true })
  else n

/-- The channel status words of the active copy. -/
def aesCsWords (n : Node) (k : Nat) : List Word := (List.range 6).map (fun j =>
  BitVec.ofNat 32 (n.act (aesPage k) (Fld.aesTxCsBytes j)))

/-- A commit of an AES page takes effect (R255, R262). -/
def aesCommit (n : Node) (k : Nat) (csChanged : Bool) : Node :=
  let n := n.aesFollow k
  if csChanged then n.setFld (aesPage k) Fld.aesTxStatCsPending 1 else n

/-- The transmitter has completed its block after a stop (R263). -/
def aesIdle (n : Node) (k : Nat) : Node :=
  (n.setFld (aesPage k) Fld.aesTxStatRunning 0).modAes k (fun a => { a with txStops := false })

/-- The channel status that a block carries: committed words with the overrides of R262. -/
def aesSent (n : Node) (k : Nat) : List Word :=
  let p := aesPage k
  let ws := n.aesCsWords k
  let bytes := ws.flatMap (fun (w : Word) => leBytes w.toNat 4)
  let hz := rateHz n.rate / divOf (n.act p Fld.aesCfgTxDiv)
  let bytes := if n.flag p Fld.aesCfgTxAutoRate then
      let b0 := bytes.getD 0 0
      let b4 := bytes.getD 4 0
      (bytes.set 0 ((b0 &&& 0x3F) ||| ((Config.aesRate0 hz).setWidth 8 <<< 6))).set 4
        ((b4 &&& 0x87) ||| ((Config.aesRate4 hz).setWidth 8 <<< 3))
    else bytes
  let bytes := if n.flag p Fld.aesCfgTxRefout then
      bytes.set 4 ((bytes.getD 4 0 &&& 0xFC) ||| BitVec.ofNat 8 n.aes11Grade)
    else bytes
  let bytes := if (bytes.getD 0 0).getLsbD 0 then bytes.set 23 (Config.aesCrcc (bytes.take 23)) else bytes
  (List.range 6).map (fun j => BitVec.ofNat 32 (leNat ((bytes.drop (4 * j)).take 4)))

/-- The user data of each block that is sent (R262). -/
def aesUser (n : Node) (k : Nat) : List Word := (List.range 6).map (fun j =>
  if n.flag (aesPage k) Fld.aesCfgTxUser then n.reg (aesPage k) (0x088 + 4 * j) else 0)

/-- A word of the capture that AES.CAP_SEL selects (R260). -/
def aesCapWord (n : Node) (k j : Nat) : Word :=
  let bytes := (n.aes k).capture.getD (n.fld (aesPage k) Fld.aesCapSelWhat) []
  BitVec.ofNat 32 (leNat ((bytes.drop (4 * j)).take 4))

/-- A read of CAP0 latches CAP1 to CAP5 (R260). -/
def latchAesCap (n : Node) (k : Nat) : Node :=
  n.modAes k (fun a => { a with capLatch := (List.range 5).map (fun j => n.aesCapWord k (j + 1)) })

/-- The validity rule of one subframe (R259): V_MUTE sets a cause after 8 invalid frames in a row. -/
def muteInvalid (n : Node) (k sub : Nat) : Node :=
  let b := n.inputBundle ⟨1, k⟩
  if b ≠ 0 then n.inputFails ⟨1, k⟩ false true
  else match n.rt.cfg.sources.find? (fun s => decide (s.kind = 1 ∧ s.origin = 2 * k + sub)) with
    | some s => n.modShut ⟨1, 0, s.num⟩ (setCause 0 32)
    | none => n

/-- That cause has been clear for 2 whole casements (R259). -/
def unmuteInvalid (n : Node) (k sub : Nat) : Node :=
  let b := n.inputBundle ⟨1, k⟩
  if b ≠ 0 then (if n.aesState k = 4 then n.inputReturns ⟨1, k⟩ else n)
  else match n.rt.cfg.sources.find? (fun s => decide (s.kind = 1 ∧ s.origin = 2 * k + sub)) with
    | some s => if (n.input ⟨1, k⟩).healthy < 2 then n else n.modShut ⟨1, 0, s.num⟩ (clearCause 0)
    | none => n

/-- AES receivers at a boundary: sources open, and validity causes count their clear casements. With V_MUTE = 0 validity is
ignored, and they end. -/
def runAes (n : Node) (k : Nat) : Node :=
  let a := n.aes k
  let n := if a.opens then n.releaseSources ⟨1, k⟩ else n
  let mute := n.flag (aesPage k) Fld.aesCfgVMute
  let ca := if !mute then 2 else if a.vSeenA then 0 else Nat.min 2 (a.vClearA + 1)
  let cb := if !mute then 2 else if a.vSeenB then 0 else Nat.min 2 (a.vClearB + 1)
  let endA := a.vHeldA && decide (ca = 2)
  let endB := a.vHeldB && decide (cb = 2)
  let n := n.modAes k (fun a => { a with
    opens := false, vSeenA := false, vSeenB := false, vClearA := ca, vClearB := cb,
    vHeldA := a.vHeldA && !endA, vHeldB := a.vHeldB && !endB })
  let n := if endA && !(a.vHeldB && !endB && decide (n.inputBundle ⟨1, k⟩ ≠ 0)) then n.unmuteInvalid k 0
    else if a.vHeldA && !endA then n.muteInvalid k 0 else n
  if endB && !(a.vHeldA && !endA && decide (n.inputBundle ⟨1, k⟩ ≠ 0)) then n.unmuteInvalid k 1
  else if a.vHeldB && !endB then n.muteInvalid k 1 else n

/-- TDM port fades and masks in force. -/
def tdmAct (n : Node) (p : Nat) (output : Bool) : Word := n.reg (tdmPage p) (if output then 0x054 else 0x050)
def setTdmAct (n : Node) (p : Nat) (output : Bool) (w : Word) : Node := n.setReg (tdmPage p) (if output then 0x054 else 0x050) w

/-- Put a slot's fade, or take it away with `none`; FADING follows. -/
def setFade (n : Node) (p : Nat) (output : Bool) (slot : Nat) (f : Option SlotFade) : Node :=
  let n := n.modTdm p (fun t => { t with
    fades := t.fades.filter (fun x => !decide (x.output = output ∧ x.slot = slot)) ++ f.toList })
  n.setFld (tdmPage p) Fld.tdmStatFading (if (n.tdm p).fades.isEmpty then 0 else 1)

/-- Frames that a slot's fade takes to retrace when it turns at `frame` (R267): those that it has run of its curve. -/
def fadeTurned (f : SlotFade) (frame : Nat) : Nat :=
  let e := Nat.min f.len (frame - f.start)
  if f.up = f.inCurve then 32 - f.len + e else 32 - (f.len - e)

/-- The factor of a slot's fade at a frame (R267), in Q3.29. -/
def slotFactor (f : SlotFade) (frame : Nat) : Word :=
  let i := frame - f.start
  if f.len ≤ i then (if f.up then 0x20000000 else 0)
  else
    let j := if f.up = f.inCurve then 32 - f.len + i else f.len - 1 - i
    if f.inCurve then restoreFactor 32 j else fadeFactor 0x20000000 32 j

/-- The frame of a port in which frame `t` of the casement in progress lies, and the frame in progress now. -/
def tdmFrame (n : Node) (p t : Nat) : Nat := n.clk.index * n.s / divOf (n.act (tdmPage p) Fld.tdmCfgDiv) + t
def tdmNow (n : Node) (p : Nat) : Nat :=
  (n.clk.index * n.s + (n.samplesBegun n.clk.now - 1)) / divOf (n.act (tdmPage p) Fld.tdmCfgDiv)

/-- The masks and fades of a port are about to change at a frame: the ones before it are kept for the frames of the casements in
progress. -/
def keepTdm (n : Node) (p frame : Nat) : Node :=
  let w : TdmWas := ⟨frame, (n.hdr (tdmPage p)).active, n.tdmAct p false, n.tdmAct p true, (n.tdm p).fades⟩
  n.modTdm p (fun t => { t with was := t.was.filter (fun x => decide (n.tdmNow p ≤ x.frame + 64)) ++ [w] })

/-- The factor of a TDM slot in a frame (R266, R267): 0 for a slot that its mask disables or whose port does not run. -/
def tdmFactor (n : Node) (p : Nat) (output : Bool) (slot frame : Nat) : Word :=
  let now : TdmWas := ⟨0, (n.hdr (tdmPage p)).active, n.tdmAct p false, n.tdmAct p true, (n.tdm p).fades⟩
  let w := ((n.tdm p).was.find? (fun x => decide (frame < x.frame))).getD now
  if !w.runs || !(if output then w.tx else w.rx).getLsbD slot then 0
  else match w.fades.find? (fun x => decide (x.output = output ∧ x.slot = slot)) with
    | some f => slotFactor f frame
    | none => 0x20000000

/-- One slot of a mask change at frame `frame` (R267). -/
def slotChange (n : Node) (p : Nat) (output : Bool) (slot frame : Nat) (want graceful : Bool) : Node :=
  let cur := (n.tdmAct p output).getLsbD slot
  let fade := (n.tdm p).fades.find? (fun x => decide (x.output = output ∧ x.slot = slot))
  let setBit := fun (m : Node) (on : Bool) =>
    let w := m.tdmAct p output
    m.setTdmAct p output (if on then w ||| (1#32 <<< slot) else w &&& ~~~(1#32 <<< slot))
  match fade with
  | some f =>
    if f.up = want then n
    else
      let e := fadeTurned f frame
      let turned : SlotFade := { output := output, slot := slot, up := want, start := frame, len := e, inCurve := f.inCurve }
      if want then n.setFade p output slot (if e = 0 then none else some turned)
      else if graceful && decide (e ≠ 0) then n.setFade p output slot (some turned)
      else (setBit n false).setFade p output slot none
  | none =>
    if cur = want then n
    else if want then (setBit n true).setFade p output slot (some { output := output, slot := slot, up := true, start := frame, len := 32 })
    else if graceful then n.setFade p output slot (some { output := output, slot := slot, up := false, start := frame, len := 32 })
    else setBit n false

/-- Committed masks take effect at a frame start (R266, R267). -/
def tdmMasks (n : Node) (p frame : Nat) : Node :=
  let pg := tdmPage p
  if (n.tdm p).waiting then
    let rx : Word := BitVec.ofNat 32 (n.act pg Fld.tdmRxmaskSlot)
    let tx : Word := BitVec.ofNat 32 (n.act pg Fld.tdmTxmaskSlot)
    let g := n.flag pg Fld.tdmMaskctlGraceful
    let n := n.keepTdm p frame
    let m := (List.range 32).foldl (fun m s =>
      (m.slotChange p false s frame (rx.getLsbD s) g).slotChange p true s frame (tx.getLsbD s) g) n
    let m := if m.tdm p = n.tdm p ∧ m.tdmAct p false = n.tdmAct p false ∧ m.tdmAct p true = n.tdmAct p true then m
      else m.irq pg 0
    m.modTdm p (fun t => { t with waiting := false })
  else n

/-- A slot's fade is over, leaving it running or stopped (R267). -/
def dropFade (n : Node) (p : Nat) (output : Bool) (slot : Nat) : Node :=
  match (n.tdm p).fades.find? (fun x => decide (x.output = output ∧ x.slot = slot)) with
  | none => n
  | some f =>
    let n := n.setFade p output slot none
    if f.up then n else n.setTdmAct p output (n.tdmAct p output &&& ~~~(1#32 <<< slot))

/-- A slot's fade has run its frames. -/
def slotFadeEnd (n : Node) (p : Nat) (output : Bool) (slot : Nat) : Node :=
  match (n.tdm p).fades.find? (fun x => decide (x.output = output ∧ x.slot = slot)) with
  | none => n
  | some f => (n.keepTdm p (f.start + f.len)).dropFade p output slot

/-- Every slot fade of a port ends at its target (R268, R273). -/
def endSlotFades (n : Node) (p : Nat) : Node :=
  (n.tdm p).fades.foldl (fun m f => m.dropFade p f.output f.slot) n

/-- A TDM port starts with the masks in force (R268), in the next frame. A master port has clocks at once; those of a slave are
present after a casement without a framing error (R265). -/
def tdmStart (n : Node) (p : Nat) : Node :=
  let pg := tdmPage p
  let n := n.modTdm p (fun t => { t with was := [⟨n.tdmNow p + 1, false, 0, 0, []⟩] })
  let n := n.setTdmAct p false (BitVec.ofNat 32 (n.act pg Fld.tdmRxmaskSlot))
  let n := n.setTdmAct p true (BitVec.ofNat 32 (n.act pg Fld.tdmTxmaskSlot))
  let n := n.setFld pg Fld.tdmStatFifo (if n.act pg Fld.tdmCfgMaster = 0 then 2 else 0)
  ((n.modTdm p (fun t => { t with waiting := false, framing := false })).setFld pg Fld.tdmStatClocked
    (if n.act pg Fld.tdmCfgMaster = 0 then 0 else 1)).inputReturns ⟨2, p⟩

/-- A TDM port begins to stop: slot fades end at once, and the current frame is its last (R268). -/
def tdmStop (n : Node) (p : Nat) : Node :=
  let n := n.endSlotFades p
  n.modTdm p (fun t => { t with was := t.was ++ [⟨n.tdmNow p + 1, true, n.tdmAct p false, n.tdmAct p true, []⟩] })

/-- That frame has ended: the port is without clocks, and its input slots underrun (R268). -/
def tdmIdle (n : Node) (p : Nat) : Node := (n.setFld (tdmPage p) Fld.tdmStatClocked 0).inputFails ⟨2, p⟩ false true

/-- TDM ports at a boundary: a port whose casement had no framing error counts as clocked again. -/
def runTdm (n : Node) (p : Nat) : Node :=
  if (n.hdr (tdmPage p)).active then
    let n := if (n.tdm p).framing then n else n.setFld (tdmPage p) Fld.tdmStatClocked 1
    n.modTdm p (fun t => { t with framing := false })
  else n

/-- Step 2 of a decimator's change (R272), `late` samples into a casement: the banks swap, the new pin is taken, and the output is
suppressed. With a pin that is not STUCK its input returns (R269). -/
def decSwap (n : Node) (k : Nat) (late : Nat := 0) : Node :=
  let p := decPage
  let preset := n.act p Fld.decCfgPreset k
  let down := (n.input ⟨3, k⟩).down && !(n.reg sdiPage (if n.act p Fld.decCfgPin k < 32 then 0x044 else 0x048)).getLsbD (n.act p Fld.decCfgPin k % 32)
  let n := if down then n.inputReturns ⟨3, k⟩ else n
  let n := n.setFld p Fld.decStatBank (1 - n.fld p Fld.decStatBank k) k
  let n := (n.setFld p Fld.decStatPin (n.act p Fld.decCfgPin k) k).setFld p Fld.decStatPreset preset k
  let n := (n.setFld p Fld.decStatFading 0 k).setFld p Fld.decStatSettling 1 k
  let n := n.setFld p Fld.decStatSettleLeft (Nat.min 0xFFF (decimatorSettle preset n.rate)) k
  ((n.modDec k (fun d => { changing := false, opens := false, ran := d.ran, late := if d.changing then late else 0 })).holdSources ⟨3, k⟩).irq p 1

/-- A commit of the DEC page takes effect for a channel (R272): `changed` says that it changes PRESET or PIN. -/
def decCommit (n : Node) (k : Nat) (wasOn changed : Bool) : Node :=
  let p := decPage
  let on := decide (n.act p Fld.decCfgOn k ≠ 0)
  if !on then
    (((n.setFld p Fld.decStatFading 0 k).setFld p Fld.decStatSettling 0 k).setFld p Fld.decStatSettleLeft 0 k).modDec k (fun _ => {})
  else if !wasOn then n.decSwap k
  else if !changed then n
  else if n.flag p Fld.decStatFading k || n.flag p Fld.decStatSettling k then n.decSwap k
  else (n.setFld p Fld.decStatFading 1 k).modDec k (fun d => { d with changing := true })

/-- The pin that a decimator reads is STUCK (R269). -/
def pinStuck (n : Node) (i : Nat) : Bool := (n.reg sdiPage (if i < 32 then 0x044 else 0x048)).getLsbD (i % 32)

/-- Decimators that run on a pin. -/
def pinReaders (n : Node) (i : Nat) : List Nat :=
  (List.range 64).filter (fun k => decide (n.act decPage Fld.decCfgOn k ≠ 0 ∧ n.fld decPage Fld.decStatPin k = i))

/-- Settling of a decimator ends (R272), in the casement in which its last samples lie; a pin that is STUCK then underruns (R273). -/
def decSettled (n : Node) (k : Nat) : Node :=
  let p := decPage
  if n.flag p Fld.decStatSettling k ∧ n.fld p Fld.decStatSettleLeft k ≤ n.s then
    let n := ((n.setFld p Fld.decStatSettling 0 k).setFld p Fld.decStatSettleLeft 0 k).irq p 0
    let n := n.modDec k (fun d => { d with opens := true })
    if n.pinStuck (n.fld p Fld.decStatPin k) then n.inputFails ⟨3, k⟩ false true else n
  else n

/-- Decimators at a boundary. -/
def runDec (n : Node) (k : Nat) : Node :=
  let n := if (n.dec k).opens then (n.releaseSources ⟨3, k⟩).modDec k (fun d => { d with opens := false }) else n
  let d := n.dec k
  let n := if n.flag decPage Fld.decStatSettling k then
      n.setFld decPage Fld.decStatSettleLeft (n.fld decPage Fld.decStatSettleLeft k - (n.s - d.late)) k
    else n
  n.modDec k (fun d => { d with
    late := 0, ran := if d.changing then d.ran + n.s else 0, cut := if d.late = 0 then none else some (d.ran, d.late) })

/-- Local ports at a casement boundary; `sats` are decimators whose output has saturated. -/
def runLocal (n : Node) (sats : List Nat) : Node :=
  let n := n.loc.aes.foldl (fun m e => m.runAes e.1) n
  let n := (List.range 8).foldl (fun m p => m.runTdm p) n
  let on := (List.range 64).filter (fun k => decide (n.act decPage Fld.decCfgOn k ≠ 0))
  let n := on.foldl (fun m k => m.runDec k) n
  (sats.filter (fun k => on.contains k)).foldl (fun m k => m.setFld decPage Fld.decStatSat 1 k) n

/-- Local ports after a re-index (R273): slot fades end at their targets, and decimators restart. -/
def reindexLocal (n : Node) : Node :=
  let n := (List.range 8).foldl (fun m p => m.endSlotFades p) n
  let on := (List.range 64).filter (fun k => decide (n.act decPage Fld.decCfgOn k ≠ 0))
  on.foldl (fun m k => m.decSwap k) n

/-! Output balls (R263, R266, R268, R269): generation gives the clocks, and a block that does not run holds its balls low. -/

/-- AESOUT of a transmitter. -/
def aesBall (n : Node) (k : Nat) : Drive :=
  if n.pins.clocked = .live then (if n.flag (aesPage k) Fld.aesTxStatRunning then .live else .low) else n.pins.clocked

/-- The bit clock and frame sync of a TDM port: inputs of a slave port (R265). -/
def tdmClocks (n : Node) (p : Nat) : Drive :=
  if n.act (tdmPage p) Fld.tdmCfgMaster = 0 then .highZ
  else if n.pins.clocked = .live then (if (n.hdr (tdmPage p)).active || (n.hdr (tdmPage p)).busy then .live else .low)
  else n.pins.clocked

/-- The data output of a TDM port for the bits of a slot in a frame: a disabled slot is low, or high-impedance with TRISTATE. -/
def tdmData (n : Node) (p slot frame : Nat) : Drive :=
  if n.pins.clocked ≠ .live then n.pins.clocked
  else
    let now : TdmWas := ⟨0, (n.hdr (tdmPage p)).active, n.tdmAct p false, n.tdmAct p true, []⟩
    let w := ((n.tdm p).was.find? (fun x => decide (frame < x.frame))).getD now
    if !w.runs then .low
    else if w.tx.getLsbD slot then .live
    else if n.act (tdmPage p) Fld.tdmCfgTristate = 0 then .low else .highZ

/-- SDCLK of a group of 16 inputs. -/
def sdclkBall (n : Node) (k : Nat) : Drive :=
  if n.pins.clocked = .live then (if (n.fld sdiPage Fld.sdiCtrlClkEn).testBit k then .live else .low) else n.pins.clocked

/-- Read-only registers of AES and DEC that are computed: AES.CAP0 to CAP5 and DEC.DELAY. -/
def aesView (n : Node) (k off : Nat) : Word :=
  if off = 0x058 then n.aesCapWord k 0 else (n.aes k).capLatch.getD ((off - 0x05C) / 4) 0

def decDelayView (n : Node) : Word :=
  let k := n.fld decPage Fld.decSelChannel
  let p := n.fld decPage Fld.decStatPreset k
  if n.act decPage Fld.decCfgOn k = 0 then 0 else BitVec.ofNat 32 (presetDelay p * 65536 + decimatorDelay p n.rate)

end Node

/-- AES_RX_SIGNAL_LOSS (R257). -/
def aesLoss (n : Node) (k : Nat) : Node := if n.aesState k ≤ 1 then n else n.setAesState k 1

def execAesRxSignalLoss (rx : Fin 16) (s : State) : Host.Outcome State Fault Refusal := s.hub (fun n => aesLoss n rx)

/-- AES_RX_PREAMBLES_FOUND (R257): the sources are held from LOCKING on. -/
def aesPreambles (n : Node) (k : Nat) : Node :=
  if n.aesState k = 1 then ((n.setAesState k 2).modAes k (fun a => { a with opens := false })).holdSources ⟨1, k⟩ else n

def execAesRxPreamblesFound (rx : Fin 16) (s : State) : Host.Outcome State Fault Refusal :=
  s.hub (fun n => aesPreambles n rx)

/-- A ratio moves faster than the ASRC tracks, 1,000 ppm/s, over the time since the last measurement, which takes 2,048 frames at
least (R257, R258). -/
def ratioJumps (n : Node) (k rate : Nat) (ratio : Word) : Bool :=
  let a := n.aes k
  let off := if ratio.toNat < a.lastRatio.toNat then a.lastRatio.toNat - ratio.toNat else ratio.toNat - a.lastRatio.toNat
  let span := Nat.max (n.clk.now - a.lastAt) (2048 * 1000 * Config.millisecond / (10 * rate))
  decide (a.lastRatio ≠ 0 ∧ a.lastRatio.toNat * span < off * 1000 * (1000 * Config.millisecond))

/-- AES_RX_RATE_MEASURED (R257, R258): `rate` in 10 Hz units, `ratio` with 28 fractional bits. A rate outside 28 to 216 kHz is no
signal, and in ASRC mode so is one that leaves the rate measured at lock by more than 2 %, or changes by more than 1,000 ppm/s. -/
def aesMeasured (n : Node) (k rate : Nat) (ratio : Word) : Node :=
  let p := aesPage k
  let off := if ratio.toNat < (n.aes k).lockRatio.toNat then (n.aes k).lockRatio.toNat - ratio.toNat else ratio.toNat - (n.aes k).lockRatio.toNat
  if n.aesState k ≤ 1 then n
  else if rate < 2800 ∨ 21600 < rate then n.setAesState k 1
  else
    let jumps := ratioJumps n k rate ratio
    let note := fun (m : Node) => ((m.setFld p Fld.aesRxStatRate rate).setReg p 0x048 ratio).modAes k (fun a =>
      { a with lastRatio := ratio, lastAt := m.clk.now })
    if n.aesState k = 4 then
      let n := note n
      if n.act p Fld.aesCfgRxSync = 0 ∧ ((n.aes k).lockRatio.toNat < off * 50 ∨ jumps) then n.setAesState k 1 else n
    else if n.aesState k = 2 then
      let n := (note n).modAes k (fun a => { a with lockRatio := ratio })
      let off := if ratio.toNat < 2 ^ 28 then 2 ^ 28 - ratio.toNat else ratio.toNat - 2 ^ 28
      if n.act p Fld.aesCfgRxSync ≠ 0 ∧ 2 ^ 28 < off * 10000 then n.setFld p Fld.aesRxStatModeErr 1
      else (n.setFld p Fld.aesRxStatModeErr 0).setAesState k 3
    else n

def execAesRxRateMeasured (rx : Fin 16) (rate : Nat) (ratio : Word) (s : State) : Host.Outcome State Fault Refusal :=
  s.hub (fun n => aesMeasured n rx rate ratio)

/-- AES_RX_SETTLED (R257): LOCKED; the strips open at the next boundary. -/
def aesSettled (n : Node) (k : Nat) : Node :=
  if n.aesState k = 3 then
    ((n.setAesState k 4).inputReturns ⟨1, k⟩).modAes k (fun a => { a with opens := true })
  else n

def execAesRxSettled (rx : Fin 16) (s : State) : Host.Outcome State Fault Refusal := s.hub (fun n => aesSettled n rx)

/-- AES_RX_FRAME (R257, R259). -/
def aesFrame (n : Node) (k : Nat) (a b : Subframe) : Node :=
  let p := aesPage k
  if n.aesState k = 0 then n
  else
    let st := n.aes k
    let word := fun (f : Subframe) (last : Word) => if f.parityError then last else (f.audio.setWidth 32 <<< 8 : Word)
    let wa := word a st.lastA
    let wb := word b st.lastB
    let errs := (if a.parityError then 1 else 0) + (if b.parityError then 1 else 0)
    let n := if errs = 0 then n else (n.bump p Fld.aesRxErrParity errs).irq p 2
    let n := (n.setFld p Fld.aesRxStatVA (if a.v then 1 else 0)).setFld p Fld.aesRxStatVB (if b.v then 1 else 0)
    let n := if a.v then n.bump p Fld.aesRxVcntVA else n
    let n := if b.v then n.bump p Fld.aesRxVcntVB else n
    let ra := if a.v then st.vRunA + 1 else 0
    let rb := if b.v then st.vRunB + 1 else 0
    let mute := n.flag p Fld.aesCfgVMute
    let ha := mute && decide (8 ≤ ra)
    let hb := mute && decide (8 ≤ rb)
    let n := n.modAes k (fun s => { s with
      lastA := wa, lastB := wb, block := (s.block ++ [(wa, wb)]).drop (s.block.length + 1 - (n.s + 8)), vRunA := Nat.min ra 8, vRunB := Nat.min rb 8,
      vSeenA := s.vSeenA || a.v, vSeenB := s.vSeenB || b.v, vHeldA := s.vHeldA || ha, vHeldB := s.vHeldB || hb })
    let n := if ha && !st.vHeldA then n.muteInvalid k 0 else n
    if hb && !st.vHeldB then n.muteInvalid k 1 else n

def execAesRxFrame (rx : Fin 16) (a b : Subframe) (s : State) : Host.Outcome State Fault Refusal :=
  s.hub (fun n => aesFrame n rx a b)

/-- AES_RX_SLIP (R258): a frame is dropped from a full buffer, or the last one is repeated, and the buffer is centred again at 4
frames beyond those that the casement has brought. -/
def aesSlip (n : Node) (k : Nat) (full : Bool) : Node :=
  let p := aesPage k
  if n.aesState k = 4 ∧ n.act p Fld.aesCfgRxSync ≠ 0 then
    let n := (n.bump p Fld.aesRxErrSlips).irq p 3
    let centre := 4 + Nat.min n.s (n.samplesBegun n.clk.now - 1)
    let n := n.modAes k (fun s => { s with
      block := if full then s.block.drop (Nat.max 1 (s.block.length - centre))
        else s.block ++ List.replicate (Nat.max 1 (centre - s.block.length)) (s.lastA, s.lastB) })
    n.inputFails ⟨1, k⟩ false false
  else n

def execAesRxSlip (rx : Fin 16) (full : Bool) (s : State) : Host.Outcome State Fault Refusal :=
  s.hub (fun n => aesSlip n rx full)

/-- AES_RX_BLOCK_END (R260); the grade that it carries is the native qualifier of a reference slot (R234). -/
def aesBlockEnd (n : Node) (k : Nat) (blk : AesBlock) : Node :=
  let p := aesPage k
  if n.aesState k = 0 then n
  else match blk with
    | .badSync => (n.bump p Fld.aesRxErrBlksync).irq p 2
    | .complete csA csB ua ub ok =>
      let pro := (csA.getD 0 0).getLsbD 0
      if pro && !ok then (n.bump p Fld.aesRxErrCrcc).irq p 2
      else
        let n := n.modAes k (fun s => { s with capture := [csA, csB, ua, ub] })
        let n := ((n.setFld p Fld.aesRxStatPro (if pro then 1 else 0)).setFld p Fld.aesRxStatFresh 1).irq p 1
        n.aesSlotsGrade k

def execAesRxBlockEnd (rx : Fin 16) (blk : AesBlock) (s : State) : Host.Outcome State Fault Refusal :=
  s.hub (fun n => aesBlockEnd n rx blk)

/-- AES_TX_BLOCK_START (R261, R262). A transmitter that stops has completed its block where the next would start, and starts none
(R263). -/
def aesTxBlock (n : Node) (k : Nat) : Node :=
  let p := aesPage k
  if !n.flag p Fld.aesTxStatRunning then n
  else if (n.aes k).txStops then n.aesIdle k
  else
    let ws := n.aesSent k
    let n := n.modAes k (fun s => { s with txCs := ws })
    (n.setFld p Fld.aesTxStatCsPending 0).setFld p Fld.aesTxStatGrade ((ws.getD 1 0).toNat % 4)

def execAesTxBlockStart (tx : Fin 16) (s : State) : Host.Outcome State Fault Refusal := s.hub (fun n => aesTxBlock n tx)

/-- TDM_FRAMING_ERROR (R265). -/
def tdmFraming (n : Node) (p : Nat) : Node :=
  let pg := tdmPage p
  if (n.hdr pg).active then
    let n := (n.bump pg Fld.tdmErrFraming).irq pg 1
    ((n.setFld pg Fld.tdmStatClocked 0).modTdm p (fun t => { t with framing := true })).inputFails ⟨2, p⟩ false false
  else n

def execTdmFramingError (port : Fin 8) (s : State) : Host.Outcome State Fault Refusal := s.hub (fun n => tdmFraming n port)

/-- TDM_SLIP (R265): a slave port repeats or drops a frame in each direction and re-centres. -/
def tdmSlip (n : Node) (p : Nat) : Node :=
  let pg := tdmPage p
  if (n.hdr pg).active ∧ n.act pg Fld.tdmCfgMaster = 0 then
    (((n.bump pg Fld.tdmErrSlips).irq pg 2).setFld pg Fld.tdmStatFifo 2).inputFails ⟨2, p⟩ false false
  else n

def execTdmSlip (port : Fin 8) (_full : Bool) (s : State) : Host.Outcome State Fault Refusal := s.hub (fun n => tdmSlip n port)

/-- TDM_MASK_APPLY (R266). -/
def execTdmMaskApply (port : Fin 8) (frame : Nat) (s : State) : Host.Outcome State Fault Refusal :=
  s.hub (fun n => if (n.hdr (tdmPage port)).active then n.tdmMasks port frame else n)

/-- TDM_SLOT_FADE_END (R267). -/
def execTdmSlotFadeEnd (port : Fin 8) (output : Bool) (slot : Fin 32) (s : State) : Host.Outcome State Fault Refusal :=
  s.hub (fun n => n.slotFadeEnd port output slot)

/-- SDIN_STUCK (R269): every decimator that reads the input underruns, one that settles when it has settled (R273). An input that
shows STUCK already has moved in between, and counts again. -/
def sdinStuck (n : Node) (i : Nat) : Node :=
  if !n.boot.drvPresent then n
  else
    let off := if i < 32 then 0x044 else 0x048
    let n := n.setReg sdiPage off (n.reg sdiPage off ||| (1#32 <<< (i % 32)))
    let n := (n.bump sdiPage Fld.sdiEventsStuck).irq sdiPage 0
    (n.pinReaders i).foldl (fun m k => if m.flag decPage Fld.decStatSettling k then m else m.inputFails ⟨3, k⟩ false true) n

def execSdinStuck (input : Fin 64) (s : State) : Host.Outcome State Fault Refusal := s.hub (fun n => sdinStuck n input)

/-- SDIN_STUCK_CLEAR (R269): the input has not been STUCK for 2 casements, and its underrun clears. -/
def sdinClear (n : Node) (i : Nat) : Node :=
  if n.pinStuck i then
    let off := if i < 32 then 0x044 else 0x048
    let n := n.setReg sdiPage off (n.reg sdiPage off &&& ~~~(1#32 <<< (i % 32)))
    (n.pinReaders i).foldl (fun m k =>
      let h := m.input ⟨3, k⟩
      if h.down then m.setInput ⟨3, k⟩ { h with down := false, healthy := 1 } else m) n
  else n

def execSdinStuckClear (input : Fin 64) (s : State) : Host.Outcome State Fault Refusal := s.hub (fun n => sdinClear n input)

/-- DEC_BANK_SWAP (R272), step 2 of a change that fades, in the casement that holds the sample after the fade's last. -/
def execDecBankSwap (ch : Fin 64) (s : State) : Host.Outcome State Fault Refusal :=
  s.hub (fun n =>
    let d := n.dec ch
    if d.changing ∧ d.ran ≤ 32 ∧ 32 < d.ran + n.s then n.decSwap ch (32 - d.ran) else n)

/-- DEC_SETTLE_END (R272). -/
def execDecSettleEnd (ch : Fin 64) (s : State) : Host.Outcome State Fault Refusal := s.hub (fun n => n.decSettled ch)

end Sys2Proof.Machine
end

