-- ==== Sys2Proof/Machine/Reed.lean ====
section
/-! DEFINITION. Reed cores (R158 to R184) outside the instructions: local memory, the casement's runs, how a run ends or
stops, interrupts, transfers and memory errors, and how an instruction issues and retires. -/

namespace Sys2Proof.Machine

open Sys2Proof (Word Byte Sparse Page Block Die Port Src ShutterId InputId SinkId ShutCfg CoreId ReedCfg ReedImageCfg)

/-- Number of a core over all dies. -/
def coreNum (c : CoreId) : Nat := c.die.val * 4 + c.core.val

/-- The RCX page of a core. -/
def rcxPage (c : CoreId) : Page := ⟨.rcx, coreNum c⟩

/-- All cores. -/
def allCores : List CoreId :=
  (List.finRange 6).flatMap (fun d => (List.finRange 4).map (fun k => ⟨d, k⟩))

/-- Bits of ST (R165). -/
def stZ : Nat := 0
def stN : Nat := 1
def stV : Nat := 2
def stC : Nat := 3
def stSatAcc : Nat := 4
def stSatStore : Nat := 5
def stSatAlu : Nat := 6
def stIE : Nat := 8

/-- A bit of a word put to a value. -/
def putBit (w : Word) (i : Nat) (b : Bool) : Word := if b then w ||| (1#32 <<< i) else w &&& ~~~(1#32 <<< i)

/-- The bits of ST that exist. -/
def stMask : Word := 0x17F

/-- Code of a stop (R164). -/
def stopCode : ReedStop → Nat
  | .overrun => 1 | .deadline => 2 | .illegal => 3 | .address => 4 | .fenRange => 5 | .memory => 6 | .irqOver => 7

/-- Whether a program word takes an extension word (R178): E of the classes CTRL, ALUI, LDST, PTR and XFER. -/
def hasExt (w : Word) : Bool :=
  let cls := w.toNat / 2 ^ 28
  w.getLsbD 27 && decide (cls = 0 ∨ cls = 2 ∨ cls = 3 ∨ cls = 7 ∨ cls = 8)

namespace Node

/-- A core's state. -/
def reed (n : Node) (c : CoreId) : ReedCore := Sparse.get (fun _ => {}) n.reeds (coreNum c)
def setReed (n : Node) (c : CoreId) (r : ReedCore) : Node :=
  { n with reeds := Sparse.set (fun _ => {}) n.reeds (coreNum c) r }
def modReed (n : Node) (c : CoreId) (f : ReedCore → ReedCore) : Node := n.setReed c (f (n.reed c))

/-- Local data words and program words (R167) (DESIGN CHOICE, notes/assumptions/84.md). -/
def locRead (n : Node) (c : CoreId) (a : Nat) : Word := Sparse.get (fun _ => 0) n.reedMem (coreNum c * 32768 + a % 32768)
def locWrite (n : Node) (c : CoreId) (a : Nat) (w : Word) : Node :=
  { n with reedMem := Sparse.set (fun _ => 0) n.reedMem (coreNum c * 32768 + a % 32768) w }
def progRead (n : Node) (c : CoreId) (a : Nat) : Word := Sparse.get (fun _ => 0) n.reedProg (coreNum c * 16384 + a % 16384)
def progWrite (n : Node) (c : CoreId) (a : Nat) (w : Word) : Node :=
  { n with reedProg := Sparse.set (fun _ => 0) n.reedProg (coreNum c * 16384 + a % 16384) w }

/-- The program of a slot, in the configuration in force. -/
def reedCfg (n : Node) (c : CoreId) (slot : Nat) : Option ReedCfg :=
  n.rt.cfg.reeds.find? (fun r => decide (r.die = c.die.val ∧ r.core = c.core.val ∧ r.slot = slot))

/-- The image of a core. -/
def reedImage (n : Node) (c : CoreId) : Option ReedImageCfg :=
  n.rt.cfg.reedImages.find? (fun r => decide (r.die = c.die.val ∧ r.core = c.core.val))

/-- The slot holds a program that is entered (RCX.STAT.RUNNABLE). -/
def slotRunnable (n : Node) (c : CoreId) (k : Nat) : Bool :=
  (n.reedCfg c k).isSome && !(n.reed c).stopped.getLsbD k && !(n.reed c).retired

/-- Words of the instruction at `pc`, by the program word (R178). -/
def instrLen (n : Node) (c : CoreId) (pc : Nat) : Nat := if hasExt (n.progRead c pc) then 2 else 1

/-- Address of the instruction `k` instructions after the one at `pc`, by the program words (R172, R173, R178). -/
def skipInstrs (n : Node) (c : CoreId) (pc : Nat) : Nat → Nat
  | 0 => pc
  | k + 1 => n.skipInstrs c (pc + n.instrLen c pc) k

/-- Interrupt budget as it acts: at most the reserve (RCX.IRQ_BUDGET, R176). -/
def irqBudget (n : Node) (c : CoreId) : Nat :=
  Nat.min (n.fld (rcxPage c) Fld.rcxIrqBudgetCycles) (if n.rate % 2 = 0 then 15847 else 14520)

/-- The word RCX.ERRCAP for an event of a core, with VALID at 1. -/
def reedErrWord (n : Node) (c : CoreId) (code : Nat) (handler : Bool) : Word :=
  let r := n.reed c
  BitVec.ofNat 32 (2 ^ 31 + (if handler then 2 ^ 30 else 0) + code * 2 ^ 24 + r.slot % 8 * 2 ^ 21 + r.pc % 2 ^ 14)

/-- RCX.ERRCAP captures an event unless a capture is held. -/
def reedCapture (n : Node) (c : CoreId) (code : Nat) (handler : Bool) : Node :=
  if n.flag (rcxPage c) Fld.rcxErrcapValid then n else n.setReg (rcxPage c) 0x060 (n.reedErrWord c code handler)

/-- What a core keeps when a run ends, complete or not (R166): the SAT bits are ORed into RCX.SAT, and the run's cycles
are shown. -/
def reedRunEnds (n : Node) (c : CoreId) : Node :=
  let r := n.reed c
  let p := rcxPage c
  let st := if r.mode = .handler then r.ist else r.st
  let sat := st.toNat / 16 % 8
  let n := if sat = 0 then n
    else (n.setFld p Fld.rcxSatSticky (n.fld p Fld.rcxSatSticky ||| sat)).bump p Fld.rcxSatCount
  let n := n.setFld p Fld.rcxPcycLastCycles r.cyc r.slot
  n.peak p Fld.rcxPcycPeakCycles r.cyc r.slot

/-- The lowest slot that a core still has to enter in this casement. -/
def nextSlot (n : Node) (c : CoreId) : Option Nat :=
  (List.range 8).find? (fun k => decide ((n.reed c).entered ≤ k) && n.slotRunnable c k && !(n.reed c).restarted.getLsbD k)

/-- The last run of the casement has ended: interrupts barred by the budget are allowed again (R176). -/
def reedRunsOver (n : Node) (c : CoreId) : Node :=
  n.modReed c (fun r => { r with runsOver := true, irqBarred := false })

/-- A run has ended: with no slot left to enter the casement's runs are over. -/
def reedRunOver (n : Node) (c : CoreId) : Node := if (n.nextSlot c).isNone then n.reedRunsOver c else n

/-- A run stops with a code (R164, R165). The core then waits for its next slot, or stays in the handler that had
interrupted the run. A hold-off that the stop cuts short counts in HOLDOFF_PEAK (R174). -/
def reedStop (n : Node) (c : CoreId) (why : ReedStop) : Node :=
  let r := n.reed c
  let p := rcxPage c
  let n := n.reedCapture c (stopCode why) (decide (r.mode = .handler))
  let n := ((n.bump p Fld.rcxPcntStops 1 r.slot).bump p Fld.rcxPcntConsec 1 r.slot).irq p 1
  let n := n.reedRunEnds c
  let n := if r.mode = .handler then n else n.peak p Fld.rcxIrqStatHoldoffPeak r.holdoff
  let sinks := ((n.reedCfg c r.slot).map (Graph.reedSinks n.rt.cfg)).getD []
  let n := (n.failSinks sinks).casUnfinished c.die.val (9 + c.core.val) r.slot false
  let limit := n.fld p Fld.rcxOvrLimitLimit
  let stopsNow := decide (limit ≠ 0) && decide (limit ≤ n.fld p Fld.rcxPcntConsec r.slot)
  let n := if stopsNow then n.irq p 2 else n
  (n.modReed c (fun r => { r with
    mode := if r.mode = .handler then .handler else .idle, interrupted := false,
    stall := none, jump := if r.mode = .handler then r.jump else none, reps := if r.mode = .handler then r.reps else [],
    loads := if r.mode = .handler then r.loads else [], holdoff := if r.mode = .handler then r.holdoff else 0,
    stopped := if stopsNow then r.stopped ||| (1#8 <<< r.slot) else r.stopped })).reedRunOver c

/-- Values become visible after the instruction that stood in the load delay slot (R171). -/
def landLoads (x : List Word) : List (Nat × Word) → List Word
  | [] => x
  | (i, w) :: ls => landLoads (x.set i w) ls

/-- The core leaves a handler (R176): ST from IST, back to IPC. A load of its last instruction lands after the first
instruction of the run that goes on, or at once where none does (R171). -/
def leaveHandler (r : ReedCore) : ReedCore :=
  { r with
    st := r.ist, pc := r.ipc.toNat % 65536, mode := if r.interrupted then .program else .idle, interrupted := false,
    servesMbx := false, jump := none, reps := [], stall := none,
    x := if r.interrupted then r.x else landLoads r.x r.loads, loads := if r.interrupted then r.loads else [] }

/-- A handler ends as a RETI would (R176). -/
def reedReturn (n : Node) (c : CoreId) : Node :=
  let n := if (n.reed c).servesMbx then n.setFld (rcxPage c) Fld.rcxMbxCtlFull 0 else n
  n.modReed c leaveHandler

/-- A handler that meets an illegal instruction or a MEMORY error ends as a RETI would and clears IMASK (R176). -/
def reedHandlerFails (n : Node) (c : CoreId) (code : Nat) : Node :=
  ((n.reedCapture c code true).reedReturn c).modReed c (fun r => { r with imask := 0 })

/-- What stops a run stops the program, or ends the handler that met it. -/
def reedFault (n : Node) (c : CoreId) (why : ReedStop) : Node :=
  if (n.reed c).mode = .handler then n.reedHandlerFails c (stopCode why) else n.reedStop c why

/-- The core executes instructions now. -/
def reedExecutes (n : Node) (c : CoreId) : Bool :=
  let r := n.reed c
  decide (r.mode = .program ∨ r.mode = .handler) && decide (r.stall = none) && !n.sil.fatal

end Node

/-- An instruction of a REP body has completed (R173): the next iteration, or the end of the body, which counts as one
instruction of the body that holds it. The next address is `pc` unless a body starts again. -/
def repFinish (pc : Nat) : List RepFrame → Nat × List RepFrame
  | [] => (pc, [])
  | f :: fs =>
    if 1 < f.left then (pc, { f with left := f.left - 1 } :: fs)
    else if 1 < f.count then (f.start, { f with left := f.len, count := f.count - 1 } :: fs)
    else repFinish pc fs

/-- What an instruction does: the core's new state with its loads, or a stop before anything is read or written. -/
inductive ReedRes
  | ok (n : Node) (r : ReedCore) (loads : List (Nat × Word))
  | stop (why : ReedStop)
  /-- The core stalls: the instruction has not issued. -/
  | stalls (w : ReedStall)

namespace Node

/-- A REP that starts is one instruction of the body that holds it, and its own body another (R173, R178). -/
def repNested : List RepFrame → List RepFrame
  | f :: g :: fs => f :: { g with left := g.left - 1 } :: fs
  | fs => fs

/-- The instruction completes: its cycle is counted, the loads before it land, the control transfer or REP around it moves
on (R163, R171 to R174). A program ends with no load left, for no instruction follows in whose delay slot it could stand
(DEDUCED, notes/assumptions/82.md). -/
def reedRetire (n : Node) (c : CoreId) (old r : ReedCore) (loads : List (Nat × Word)) : Node :=
  let r := { r with x := landLoads r.x old.loads, loads := loads }
  let (pc, reps) := if old.reps.length < r.reps.length then (r.pc, repNested r.reps) else repFinish r.pc r.reps
  let r := { r with pc := pc % 65536, reps := reps }
  let r := match old.mode with
    | .handler => if r.runsOver then r else { r with irqCycles := r.irqCycles + 1 }
    | _ => { r with cyc := r.cyc + 1 }
  let (r, taken) : ReedCore × Option ReedJump := match old.jump with
    | none => (r, none)
    | some (k, j) => if k ≤ 1 then ({ r with jump := none }, some j) else ({ r with jump := some (k - 1, j) }, none)
  let r := if taken = some .end_ then { r with x := landLoads r.x r.loads, loads := [] } else r
  let held := !r.loads.isEmpty || r.jump.isSome || !r.reps.isEmpty
  let peak := if held then 0 else r.holdoff
  let n := n.setReed c { r with holdoff := if held then r.holdoff + 1 else 0 }
  let n := n.peak (rcxPage c) Fld.rcxIrqStatHoldoffPeak peak
  match taken with
  | none => n
  | some (.to a) => n.modReed c (fun r => { r with pc := a % 65536 })
  | some .end_ => n.modReed c (fun r => { r with mode := .ending, stalledAt := n.clk.now })
  | some .reti => n.reedReturn c

/-- Cycle budget of the running slot. -/
def reedBudget (n : Node) (c : CoreId) : Nat := ((n.reedCfg c (n.reed c).slot).map (·.budget)).getD 0

/-- Issue an instruction of `len` program words at the core's PC. It executes only while the core executes. A program
whose CYC would exceed its budget stops with OVERRUN (R163); a poisoned program word stops with MEMORY (R183). The core
that `f` receives has PC at the next instruction. -/
def reedIssue (n : Node) (c : CoreId) (len : Nat) (f : Node → ReedCore → ReedRes) : Node :=
  let r := n.reed c
  if !n.reedExecutes c then n
  else if r.mode = .program ∧ n.reedBudget c ≤ r.cyc then n.reedStop c .overrun
  else if r.mode = .handler ∧ !r.runsOver ∧ n.irqBudget c ≤ r.irqCycles then n
  else if (List.range len).any (fun k => r.poisonedProg.contains (r.pc + k)) then n.reedFault c .memory
  else match f n { r with pc := r.pc + len } with
    | .ok n' r' loads => n'.reedRetire c r r' loads
    | .stop why => n.reedFault c why
    | .stalls w => n.setReed c { r with stall := some w, stalledAt := n.clk.now }

/-- The areas that data accesses may touch (R168): a program's own region, the IN blocks of its input ports and the OUT
blocks of its output ports; all of local data and the port areas for a handler. -/
def locAllowed (n : Node) (c : CoreId) (a : Nat) : Bool :=
  let r := n.reed c
  if r.mode = .handler then decide (a < 0x8000)
  else match n.reedCfg c r.slot with
    | none => false
    | some g =>
      decide (g.regionBase ≤ a ∧ a < g.regionBase + g.regionLen)
      || decide (0x7000 + g.inFirst * 32 ≤ a ∧ a < 0x7000 + (g.inFirst + g.nin) * 32)
      || decide (0x7800 + g.outFirst * 32 ≤ a ∧ a < 0x7800 + (g.outFirst + g.nout) * 32)

/-- The Fen bytes that transfers may touch (R177). -/
def fenAllowed (n : Node) (c : CoreId) (off bytes : Nat) : Bool :=
  let r := n.reed c
  let ws := if r.mode = .handler then ((n.reedImage c).map (·.windows)).getD []
    else ((n.reedCfg c r.slot).map (·.windows)).getD []
  ws.any (fun w => decide (w.1 ≤ off ∧ off + bytes ≤ w.1 + w.2))

/-- The word that a load of local address `a` reads: a word that an unconfirmed XRD writes is a fresh free value (R177). -/
def locLoad (n : Node) (c : CoreId) (a : Nat) : Word × Node :=
  if (n.reed c).unconfirmed.any (fun u => decide (u.2.1 ≤ a ∧ a < u.2.1 + u.2.2)) then n.fresh else (n.locRead c a, n)

/-- A store to local data. -/
def locStore (n : Node) (c : CoreId) (a : Nat) (w : Word) : Node :=
  (n.locWrite c a w).modReed c (fun r => { r with poisonedData := r.poisonedData.filter (fun q => decide (q ≠ a)) })

/-- The words that an XWR finds in local data when it issues, from word `a` on (R177). -/
def xferWords (n : Node) (c : CoreId) (a : Nat) : Nat → List Word × Node
  | 0 => ([], n)
  | k + 1 =>
    let (w, n) := n.locLoad c a
    let (ws, n) := n.xferWords c (a + 1) k
    (w :: ws, n)

/-- A channel starts a transfer (R177) (DEDUCED, notes/assumptions/80.md). -/
def reedStartXfer (r : ReedCore) (n : Node) (c : CoreId) (ch : Nat) (x : ReedXfer) : Node × ReedCore :=
  let (ws, n) := if x.write then n.xferWords c x.loc x.len else ([], n)
  (n, { r with chans := r.chans.set ch (r.chans.getD ch [] ++ [{ x with words := ws }]),
               unconfirmed := if x.write then r.unconfirmed else r.unconfirmed ++ [(ch, x.loc, x.len)] })

/-- The channels of a mask that are busy. -/
def busyChans (r : ReedCore) : Nat :=
  (List.range 4).foldl (fun m k => if (r.chans.getD k []).isEmpty then m else m + 2 ^ k) 0

/-- WAITX confirms the transfers of the channels in its mask (R177). -/
def confirmChans (r : ReedCore) (mask : Nat) : ReedCore :=
  { r with unconfirmed := r.unconfirmed.filter (fun u => !mask.testBit u.1) }

/-- The words that an XWR copies: a local word stored to since its issue may or may not be the one copied (R177) (DESIGN CHOICE,
notes/assumptions/81.md). -/
def sentWords (n : Node) (c : CoreId) (x : ReedXfer) : Nat → List Word × Node
  | 0 => ([], n)
  | k + 1 =>
    let i := x.len - (k + 1)
    let was := x.words.getD i 0
    let (now, n) := n.locLoad c (x.loc + i)
    let (w, n) := if was = now then (was, n)
      else (if Config.freeBit n.free then was else now, { n with free := n.free + 1 })
    let (ws, n) := n.sentWords c x k
    (w :: ws, n)

/-- The words of an XRD or XWR move, in ascending order (R177). -/
def moveWords (n : Node) (c : CoreId) (x : ReedXfer) : Node :=
  if x.write then
    let (ws, n) := n.sentWords c x x.len
    n.fenWrite c.die.val x.fen (ws.flatMap (fun (w : Word) => leBytes w.toNat 4))
  else (List.range x.len).foldl (fun m i =>
    let (w, m) := m.fenRead c.die.val (x.fen + 4 * i)
    m.locStore c (x.loc + i) w) n

/-- The core enters a slot (R161, R162). -/
def reedEnter (n : Node) (c : CoreId) (k : Nat) (g : ReedCfg) : Node :=
  let x0 := BitVec.ofNat 32 n.clk.index
  let db := BitVec.ofNat 16 g.regionBase
  let pin := BitVec.ofNat 16 (0x7000 + g.inFirst * 32)
  let pout := BitVec.ofNat 16 (0x7800 + g.outFirst * 32)
  n.modReed c (fun r => { r with
    mode := .program, slot := k, interrupted := false, stall := none, pc := g.entry % 16384,
    x := [x0, BitVec.ofNat 32 n.s, BitVec.ofNat 32 k] ++ List.replicate 13 0, ac := List.replicate 4 0,
    p := List.replicate 6 db ++ [pin, pout], b := List.replicate 6 db ++ [pin, pout],
    m := List.replicate 8 1, l := List.replicate 8 0, st := 0x100, lr := 0, cyc := 0, loads := [], jump := none,
    reps := [], entered := k + 1, holdoff := 0 })

/-- Samples of a program's output blocks go to Fen (R161, R163). -/
def copyOut (n : Node) (c : CoreId) (g : ReedCfg) : Node :=
  (g.outOffs.zipIdx).foldl (fun m e =>
    (List.range n.s).foldl (fun m k =>
      let (w, m) := m.locLoad c (0x7800 + (g.outFirst + e.2) * 32 + k)
      m.fenWrite c.die.val (e.1 + 4 * k) (leBytes w.toNat 4)) m) n

/-- Samples of every program's input blocks come from Fen (R161). -/
def copyIn (n : Node) (c : CoreId) (g : ReedCfg) : Node :=
  (g.inOffs.zipIdx).foldl (fun m e =>
    (List.range n.s).foldl (fun m k =>
      let (w, m) := m.fenRead c.die.val (e.1 + 4 * k)
      m.locWrite c (0x7000 + (g.inFirst + e.2) * 32 + k) w) m) n

/-- Raise an interrupt source of a core (R175). -/
def reedRaise (n : Node) (c : CoreId) (bit : Nat) : Node :=
  n.modReed c (fun r => { r with ipend := r.ipend ||| (1#3 <<< bit) })

/-- The slots that a core has not entered when the work deadline comes are not run in the casement: they are unfinished
(R62, R161) (DEDUCED, notes/assumptions/168.md). -/
def slotsMissed (n : Node) (c : CoreId) : Node :=
  if (n.reed c).runsOver then n
  else
    ((List.range 8).filter (fun k => decide ((n.reed c).entered ≤ k) && n.slotRunnable c k && !(n.reed c).restarted.getLsbD k)).foldl
      (fun m k =>
        let sinks := ((m.reedCfg c k).map (Graph.reedSinks m.rt.cfg)).getD []
        (m.failSinks sinks).casUnfinished c.die.val (9 + c.core.val) k false) n

/-- The cycles of a stall or of the port mover's copy that a stop cuts short count in CYC, up to the budget (R163): a cycle is one ns
(DEDUCED, notes/assumptions/195.md). -/
def reedWaited (n : Node) (c : CoreId) : Node :=
  n.modReed c (fun r =>
    if r.mode = .ending ∨ (r.mode = .program ∧ r.stall.isSome) then
      { r with cyc := Nat.max r.cyc (Nat.min (n.reedBudget c) (r.cyc + (n.clk.now - r.stalledAt) * 10 / 1176)) }
    else r)

/-- Work deadline (R161): a run still in progress stops, slots not yet entered are not run, and the port mover copies the
input blocks of the casement. -/
def reedDeadline (n : Node) (c : CoreId) : Node :=
  let r := n.reed c
  let n := if r.mode = .program ∨ r.mode = .ending ∨ r.interrupted then (n.reedWaited c).reedStop c .deadline else n
  let n := (n.slotsMissed c).reedRunsOver c
  (n.rt.cfg.reeds.filter (fun g => decide (g.die = c.die.val ∧ g.core = c.core.val))).foldl (fun m g => m.copyIn c g) n

/-- A casement boundary for a core (R161, R175, R176): the casement-start interrupt, the handler cycles of the casement
that ended, the slots of the next, and the SHT interrupt for selected Shutter transitions. -/
def reedBoundary (n : Node) (edges : List (ShutterId × Nat)) (c : CoreId) : Node :=
  let p := rcxPage c
  let r := n.reed c
  let n := n.setFld p Fld.rcxIrqCycCycles (Nat.min r.irqCycles 0x3FFFF)
  let n := n.modReed c (fun r => { r with irqCycles := 0, entered := 0, restarted := 0 })
  let n := if (List.range 8).any (n.slotRunnable c) && r.mode ≠ .program then
      n.modReed c (fun r => { r with runsOver := false }) else n
  let hits := (List.range 4).filter (fun j =>
    let w := n.reg p (0x0A0 + 4 * j)
    let id : ShutterId := ⟨w.toNat / 2 ^ 28, if w.toNat / 2 ^ 28 = 4 then w.toNat / 2 ^ 25 % 8 else 0, w.toNat % 2 ^ 14⟩
    edges.any (fun e => decide (e.1 = id) && decide (e.2 &&& (w.toNat / 2 ^ 21 % 16) ≠ 0)))
  let n := n.reedRaise c 0
  if hits.isEmpty then n
  else (n.modReed c (fun r => { r with evthit := hits.foldl (fun v j => v ||| (1#4 <<< j)) r.evthit })).reedRaise c 2

end Node

/-- REED_SLOT_ENTRY (R161): the lowest occupied slot not yet run is entered; with none left the runs are over. -/
def reedSlotEntry (n : Node) (c : CoreId) : Node :=
  let r := n.reed c
  if r.mode ≠ .idle ∨ r.runsOver ∨ r.retired ∨ n.sil.fatal then n
  else match n.nextSlot c with
    | none => n.reedRunsOver c
    | some k => match n.reedCfg c k with
      | none => n
      | some g => n.reedEnter c k g

def execReedSlotEntry (c : CoreId) (s : State) : Host.Outcome State Fault Refusal :=
  s.hub (fun n => reedSlotEntry (if n.running then n.openWindow else n) c)

/-- REED_RUN_COMPLETE (R163): the port mover's copy ends. The copy counts in CYC, and the run is complete if CYC is at or
below the budget. -/
def reedRunComplete (n : Node) (c : CoreId) : Node :=
  let r := n.reed c
  if r.mode ≠ .ending ∨ n.sil.fatal then n
  else match n.reedCfg c r.slot with
    | none => n
    | some g =>
      let cyc := r.cyc + 8 + ceilDiv (n.s * g.nout) 8
      if g.budget < cyc then (n.setReed c { r with cyc := g.budget }).reedStop c .overrun
      else
        let n := (n.setReed c { r with cyc := cyc }).copyOut c g
        let n := { n with cas := { n.cas with hooks := n.cas.hooks ++ [(c.die.val, c.core.val, r.slot)] } }
        let n := (n.reedRunEnds c).setFld (rcxPage c) Fld.rcxPcntConsec 0 r.slot
        (n.modReed c (fun r => { r with mode := .idle })).reedRunOver c

def execReedRunComplete (c : CoreId) (s : State) : Host.Outcome State Fault Refusal :=
  s.hub (fun n => reedRunComplete n c)

/-- REED_INTERRUPT_ENTRY (R174 to R176): the pending source of highest order is taken, unless interrupts are disabled,
barred or held off, or the core waits for the port mover's OUT copy (DESIGN CHOICE, notes/assumptions/197.md). A WAITX in progress is abandoned after `cycles` cycles of its stall, which CYC counts, to be executed
again. -/
def reedInterrupt (n : Node) (c : CoreId) (cycles : Nat) : Node :=
  let r := n.reed c
  let ready := r.ipend &&& r.imask
  let heldOff := !r.loads.isEmpty || r.jump.isSome || !r.reps.isEmpty
  let stalledXfer : Bool := match r.stall with | some (.xfer _ _) => true | _ => false
  if n.sil.fatal ∨ r.retired ∨ r.mode = .handler ∨ r.mode = .ending ∨ r.irqBarred ∨ heldOff ∨ stalledXfer
      ∨ !r.st.getLsbD stIE ∨ ready = 0 then n
  else if r.stall.isSome ∧ r.mode = .program ∧ n.reedBudget c < r.cyc + cycles then
    (n.setReed c { r with cyc := n.reedBudget c }).reedStop c .overrun
  else
    let r := if r.stall.isSome then { r with cyc := r.cyc + cycles } else r
    let src := if ready.getLsbD 0 then 0 else if ready.getLsbD 1 then 1 else 2
    n.setReed c { r with
      ipend := r.ipend &&& ~~~(1#3 <<< src), ipc := BitVec.ofNat 32 r.pc, ist := r.st, st := putBit r.st stIE false,
      pc := src * 4, interrupted := decide (r.mode = .program), mode := .handler, stall := none,
      servesMbx := decide (src = 1) }

def execReedInterruptEntry (c : CoreId) (cycles : Nat) (s : State) : Host.Outcome State Fault Refusal :=
  s.hub (fun n => reedInterrupt n c cycles)

/-- REED_IRQ_BUDGET_EXCEEDED (R176): the handler is abandoned, a run it had interrupted stops with IRQ_OVER, and no
interrupt is taken until the casement's last run has ended. The run stops after the handler has been left, so that ERRCAP shows
HANDLER 0 and the PC of the run (DESIGN CHOICE, notes/assumptions/196.md). -/
def reedIrqOver (n : Node) (c : CoreId) : Node :=
  let r := n.reed c
  let p := rcxPage c
  if r.mode ≠ .handler ∨ r.runsOver ∨ n.sil.fatal then n
  else
    let n := (n.bump p Fld.rcxIrqStatOver).irq p 4
    let was := r.interrupted
    let n := n.setReed c { Node.leaveHandler r with irqBarred := true }
    if was then n.reedStop c .irqOver else n

def execReedIrqBudgetExceeded (c : CoreId) (s : State) : Host.Outcome State Fault Refusal :=
  s.hub (fun n => reedIrqOver n c)

/-- The configuration's copy of a program word of a core (R183). -/
def Node.progCopy (n : Node) (c : CoreId) (addr : Nat) : Option Word :=
  let at_ := fun (base : Nat) (ws : List Word) => if base ≤ addr then ws[addr - base]? else none
  match (n.rt.cfg.reeds.filter (fun g => decide (g.die = c.die.val ∧ g.core = c.core.val))).findSome? (fun g => at_ g.progBase g.program) with
  | some w => some w
  | none => (n.reedImage c).bind (fun g => at_ g.progBase g.code)

/-- The compiler rewrites a poisoned program word from the configuration's copy, where there is one (R183). -/
def Node.progRewrite (n : Node) (c : CoreId) (addr : Nat) : Node :=
  match n.progCopy c addr with
  | some w => (n.progWrite c addr w).modReed c (fun r => { r with poisonedProg := r.poisonedProg.filter (fun a => decide (a ≠ addr)) })
  | none => n

/-- REED_MEM_ECC_ERROR (R183): a corrected word is counted and reported. An uncorrectable one is poisoned; the run or
handler that fetched or read it, as `met` says, stops. While the management cores run it is then rewritten: a program word
from the configuration's copy, where there is one, and a data word with zero. -/
def reedMemError (n : Node) (c : CoreId) (prog : Bool) (addr : Nat) (bad met : Bool) : Node :=
  let p := rcxPage c
  let inHandler := decide ((n.reed c).mode = .handler)
  if !bad then (n.bump p Fld.rcxMemerrCorrected).raiseFault p 1 (n.reedErrWord c 0 inHandler) c.core.val
  else
    let word := n.reedErrWord c 6 inHandler
    let n := n.bump p Fld.rcxMemerrUncorrected
    let r := n.reed c
    let n := if !met then n
      else if r.mode = .program ∨ r.mode = .ending then (n.reedWaited c).reedStop c .memory
      else if r.mode = .handler then n.reedHandlerFails c 6 else n
    let n := n.raiseFault p 2 word c.core.val
    let poison := n.modReed c (fun r =>
      if prog then { r with poisonedProg := r.poisonedProg ++ [addr] } else { r with poisonedData := r.poisonedData ++ [addr] })
    if !n.mgmt.running then poison
    else if prog then poison.progRewrite c addr
    else poison.locStore c addr 0

def execReedMemEccError (c : CoreId) (prog : Bool) (addr : Nat) (uncorrectable met : Bool) (s : State) :
    Host.Outcome State Fault Refusal :=
  s.hub (fun n => reedMemError n c prog addr uncorrectable met)

/-- REED_CORE_TEST_END (R183, R184): the test's result is entered in every record that asked for it; a failure retires the
core, whose programs then have no core until the compiler re-places them. -/
def reedTestEnd (n : Node) (c : CoreId) (pass : Bool) : Node :=
  let p := rcxPage c
  let n := (n.testResult p c.core.val (if pass then 2 else 3)).modReed c (fun r => { r with stest := false })
  if pass ∨ (n.reed c).retired then n
  else
    let n := n.modReed c (fun r => { r with retired := true, mode := .idle, stall := none, jump := none, reps := [], loads := [] })
    let n := (n.setFld p Fld.rcxStatRetired 1).raiseFault p 3 (n.reedErrWord c 0 false) c.core.val
    let sinks := (n.rt.cfg.reeds.filter (fun g => decide (g.die = c.die.val ∧ g.core = c.core.val))).flatMap (Graph.reedSinks n.rt.cfg)
    { n.emergencySinks sinks with rt := { (n.emergencySinks sinks).rt with readmitWaits := true } }

def execReedCoreTestEnd (c : CoreId) (pass : Bool) (s : State) : Host.Outcome State Fault Refusal :=
  s.hub (fun n => reedTestEnd n c pass)

/-- ILLEGAL_INSTRUCTION (R164, R176, R180): a run stops with code ILLEGAL; a handler ends as a RETI would, IMASK cleared. -/
def reedIllegal (n : Node) (c : CoreId) : Node := if n.reedExecutes c then n.reedFault c .illegal else n

def execIllegalInstruction (c : CoreId) (s : State) : Host.Outcome State Fault Refusal :=
  s.hub (fun n => reedIllegal n c)

end Sys2Proof.Machine
end

