-- ==== Sys2Proof/Machine/Xpt.lean ====
section
/-! DEFINITION. The crosspoint table (R73 to R81): its two banks, refused and masked writes, the swap with the Shutters it
starts and ends, the follow copy, and the object descriptors (R93). -/

namespace Sys2Proof.Machine

open Sys2Proof (Word Byte Sparse Page Block Die Port Src ShutterId InputId SinkId ShutCfg SourceCfg BusCfg XpCfg StripCfg SinkCfg)

/-- Base address of a bank, and its size (R73). -/
def xptBase (bank : Bool) : Nat := if bank then 0x48040000 else 0x48000000
def xptSize : Nat := 0x40000

/-- Structural bits of word 0, and those that say which crosspoint an entry is (R74, R76). -/
def structMask : Word := 0x883FFFFF
def shapeMask : Word := 0x083FFFFF

/-- Reserved bits of the words of an entry, which read 0 (R10, R74). -/
def reservedMask (w : Nat) : Word := if w = 0 then 0x07C00000 else if w = 1 then 0 else if w = 2 then 0x0000F000 else 0xFFFFFFFF

/-- A port whose structural writes the hardware ignores (R75). -/
def maskedPort (p : Port) : Bool := decide (p = .i2c ∨ p = .pcie ∨ p = .ranori)

/-- The Shutter settings that an entry's words give (R74). -/
def entryCfg (w0 w1 w2 : Word) : ShutCfg :=
  { gain := w1, shut := w0.getLsbD 30, law := w0.toNat / 2 ^ 28 % 4, ramp := w2.toNat % 4096 }

/-- The Shutter of the crosspoint at an entry, and that of a removed one that closes beside it. -/
def xpShut (i : Nat) (old : Nat := 0) : ShutterId := ⟨0, old, i⟩

namespace Node

/-- A word of an entry in a bank. -/
def entryWord (n : Node) (bank : Bool) (i w : Nat) : Word := n.rdWord (xptBase bank + 16 * i + 4 * w)

/-- Numbers of the valid entries of a bank. -/
def validEntries (n : Node) (bank : Bool) : List Nat :=
  let b := xptBase bank
  (n.mem.filter (fun e => decide (b ≤ e.1 ∧ e.1 < b + xptSize ∧ (e.1 - b) % 16 = 3) && e.2.getLsbD 7)).map
    (fun e => (e.1 - b) / 16)

/-- Put a word into the table: the enabled bits of `mask`, structural bits left alone where they are masked (R75, R399). -/
def xptPut (n : Node) (addr : Nat) (value mask : Word) (masked : Bool) : Node :=
  let w := addr / 4 % 4
  let mask := if masked && decide (w = 0) then mask &&& ~~~structMask else mask
  let v := ((n.rdWord addr &&& ~~~mask) ||| (value &&& mask)) &&& ~~~(reservedMask w)
  { (n.wrWord addr v) with xpt := { n.xpt with dirty := true } }

/-- A write to the table from a port, at a word address (R75, R77, R79, R80): refused, held during the copy, or done
(DEDUCED, notes/assumptions/52.md). -/
def xptWrite (n : Node) (port : Port) (addr : Nat) (value mask : Word) : Node × Bool :=
  let bank := decide (0x48040000 ≤ addr)
  let locked := match (n.hdr xptPage).keyHolder with
    | some h => decide (h ≠ port)
    | none => false
  if decide (bank = n.xpt.active) || locked then
    ((n.bump xptPage Fld.xptWerrActive).irq xptPage 1, false)
  else
    let masked := maskedPort port
    let n := if masked && decide (addr / 4 % 4 = 0) then n.bump xptPage Fld.xptWerrMasked else n
    let mask' := if masked && decide (addr / 4 % 4 = 0) then mask &&& ~~~structMask else mask
    if n.xpt.copying then
      ({ n with xpt := { n.xpt with held := n.xpt.held ++ [(addr, value, mask')] } }, true)
    else (n.xptPut addr value mask masked, true)

/-- The first place for a removed crosspoint that still closes at an entry. -/
def oldPlace (n : Node) (i : Nat) : Nat :=
  ((List.range n.sht.shutters.length).map (· + 1)).find? (fun k => !(n.shut (xpShut i k)).present)
    |>.getD (n.sht.shutters.length + 1)

/-- A removed crosspoint closes over its own RAMP and is dropped when closed (R76). -/
def closeEntry (n : Node) (i : Nat) (word : Word) : Node :=
  let sh := n.shut (xpShut i)
  if sh.present then
    let k := n.oldPlace i
    let live := n.xpt.closing.filter (fun e => (n.shut (xpShut e.entry e.place)).present)
    let n := { n with xpt := { n.xpt with closing := live ++ [({ entry := i, place := k, shape := (word &&& shapeMask).toNat } : Closing)] } }
    let n := (n.setShut (xpShut i k) { sh with dropping := true }).setShut (xpShut i) {}
    n.shutRequest (xpShut i k) { sh.cfg with shut := true }
  else n

/-- An added crosspoint starts closed and opens over its RAMP (R76). -/
def openEntry (n : Node) (i : Nat) (c : ShutCfg) : Node :=
  let sh : Shutter := { present := true, cfg := c }
  n.setShut (xpShut i) (if shutTarget c = 0 then sh else startRamp (rateHz n.rate) sh)

/-- The banks swap (R76, R78, R79): crosspoints are removed, added or changed by their entries in the two banks. -/
def xptSwap (n : Node) : Node :=
  let old := n.xpt.active
  let cfgOf := fun (m : Node) (b : Bool) (i : Nat) => entryCfg (m.entryWord b i 0) (m.entryWord b i 1) (m.entryWord b i 2)
  let olds := n.validEntries old
  let news := n.validEntries (!old)
  let same := fun (i : Nat) =>
    decide ((n.entryWord old i 0 &&& shapeMask) = (n.entryWord (!old) i 0 &&& shapeMask)) && olds.contains i && news.contains i
  let n := { n with xpt := { n.xpt with active := !old, dirty := false } }
  let n := ((n.setFld xptPage Fld.xptCtrlSwap 0).setAct xptPage Fld.xptCtrlSwap 0).irq xptPage 0
  let n := (olds.filter (fun i => !same i)).foldl (fun m i => m.closeEntry i (m.entryWord old i 0)) n
  let n := (news.filter (fun i => !same i)).foldl (fun m i => m.openEntry i (cfgOf m (!old) i)) n
  let n := (news.filter same).foldl (fun m i => m.shutRequest (xpShut i) (cfgOf m (!old) i)) n
  if n.flag xptPage Fld.xptCtrlFollow then { n with xpt := { n.xpt with copying := true } } else n

/-- The active bank is copied into the inactive one. -/
def xptCopy (n : Node) : Node :=
  let n := n.copyMap (xptBase (!n.xpt.active)) (xptBase n.xpt.active) xptSize (fun _ b => b)
  { n with xpt := { n.xpt with dirty := false } }

/-- The follow copy ends, and held writes take effect (R79). -/
def followEnds (n : Node) : Node :=
  if n.xpt.copying then
    let held := n.xpt.held
    let n := ({ n with xpt := { n.xpt with copying := false, held := [] } }).xptCopy
    held.foldl (fun m e => m.xptPut e.1 e.2.1 e.2.2 false) n
  else n

/-- Level of a bus (R72): 2 where a bus feeds it. -/
def busLevel (n : Node) (b : Nat) : Nat := if n.rt.cfg.xpoints.any (fun x => x.fromBus && decide (x.bus = b)) then 2 else 1

/-- HELD and REFILL of a strip's path (R91, R93): a hold by an input shows HELD with no count. -/
def heldWord (n : Node) (kind i : Nat) : Word :=
  let st := n.strip kind i
  let held := st.held || (n.shut ⟨kind, 0, i⟩).held
  BitVec.ofNat 32 ((if held then 2 ^ 31 else 0) + (if st.held then st.refill % 2 ^ 20 else 0))

/-- A sink's span of a route transition. -/
def spanOf (n : Node) (s : SinkId) : Option Span := n.rt.spans.find? (fun x => decide (x.sink = s))

/-- Descriptor of a source (R93). -/
def sourceDesc (n : Node) (s : SourceCfg) : List Word :=
  let xs := (n.rt.cfg.xpoints.filter (fun x => !x.fromBus && decide (x.source = s.num))).length
  [BitVec.ofNat 32 (2 ^ 31 + s.kind % 8 * 2 ^ 28 + s.origin % 2 ^ 16),
   BitVec.ofNat 32 (s.die * 2 ^ 24 + s.bundle % 256 * 2 ^ 16 + xs % 2 ^ 16),
   BitVec.ofNat 32 ((n.strip 1 s.num).target / 256 % 2 ^ 11), n.heldWord 1 s.num]

/-- Descriptor of a bus. -/
def busDesc (n : Node) (b : BusCfg) : List Word :=
  let ins := (n.rt.cfg.xpoints.filter (fun x => decide (x.bus = b.num))).length
  [BitVec.ofNat 32 (2 ^ 31 + n.busLevel b.num * 2 ^ 28 + ins % 2 ^ 16),
   BitVec.ofNat 32 (b.die * 2 ^ 24 + (if b.hook then 1 else 0)), 0, 0]

/-- Descriptor of an output strip. -/
def stripDesc (n : Node) (s : StripCfg) : List Word :=
  [BitVec.ofNat 32 (2 ^ 31 + (if s.inBus then 2 ^ 28 else 0) + s.input % 4096), BitVec.ofNat 32 (s.die * 2 ^ 24),
   BitVec.ofNat 32 ((n.strip 3 s.num).target / 256 % 2 ^ 19), n.heldWord 3 s.num]

/-- Every path to a sink without a span holds a strip that refills (R91). -/
def routeHeld (n : Node) (s : SinkCfg) : Bool :=
  let ways := Graph.sinkWays n.rt.cfg s
  !ways.isEmpty && ways.all (fun w => w.any (fun (o : Obj) => (n.strip (o.1 + 1) o.2).held))

/-- Descriptor of a sink. -/
def sinkDesc (n : Node) (s : SinkCfg) : List Word :=
  let (x, held, left) := match n.spanOf s.id with
    | some sp => (2, (if sp.done < sp.wait then 1 else 0), sp.wait + sp.fade - sp.done)
    | none => (0, if n.routeHeld s then 1 else 0, 0)
  [BitVec.ofNat 32 (2 ^ 31 + s.feedKind % 4 * 2 ^ 28 + s.feed % 4096),
   BitVec.ofNat 32 (s.bundle % 256 * 2 ^ 16 + x + held), BitVec.ofNat 32 (left % 2 ^ 20), 0]

/-- Descriptor of a bundle; one without members reads 0. -/
def bundleDesc (n : Node) (b : Nat) : List Word :=
  let src := (n.rt.cfg.sources.filter (fun (s : SourceCfg) => decide (s.bundle = b))).length
  let snk := (n.bundleSinks b).length
  let listed := n.rt.cfg.bundles.any (fun c => decide (c.num = b) && !c.inputs.isEmpty)
  let streams := n.rt.cfg.rx.any (fun r => decide (Graph.memberOf n.rt.cfg ⟨0, r.num⟩ = b))
  let st := n.bundle b
  if b = 0 ∨ (src = 0 ∧ snk = 0 ∧ !listed ∧ !streams) then [0, 0, 0, 0]
  else [BitVec.ofNat 32 (2 ^ 31 + src % 2 ^ 13), BitVec.ofNat 32 (snk % 2 ^ 16),
        BitVec.ofNat 32 (Graph.bundleDepth n.rt.cfg b % 256), if st.faded || st.restoring then 1 else 0]

/-- The descriptor that XPT.OBJ_SEL selects (R93). -/
def objDesc (n : Node) : List Word :=
  let i := n.fld xptPage Fld.xptObjSelIndex
  let none4 : List Word := [0, 0, 0, 0]
  match n.fld xptPage Fld.xptObjSelObj with
  | 0 => ((n.sourceOf i).map n.sourceDesc).getD none4
  | 1 => ((n.rt.cfg.buses.find? (fun b => decide (b.num = i))).map n.busDesc).getD none4
  | 2 => ((n.stripOf i).map n.stripDesc).getD none4
  | 3 => ((n.rt.cfg.sinks.find? (fun s => decide (s.feedKind < 3 ∧ s.id = ⟨n.fld xptPage Fld.xptObjSelSinkKind, i⟩))).map n.sinkDesc).getD none4
  | 4 => n.bundleDesc i
  | _ => none4

/-- A read of OBJ_VAL0 latches words 1 to 3 (XPT.OBJ_VAL). -/
def latchObj (n : Node) : Node :=
  let d := n.objDesc
  ((n.setReg xptPage 0x05C (d.getD 1 0)).setReg xptPage 0x060 (d.getD 2 0)).setReg xptPage 0x064 (d.getD 3 0)

/-- Paths held for refill (XPT.HELD). -/
def heldPaths (n : Node) : Nat := (n.strips.filter (fun e => e.2.held)).length

/-- Read-only registers of XPT: STAT, COUNT, HELD and OBJ_VAL0. -/
def xptView (n : Node) (off : Nat) : Word :=
  if off = 0x044 then
    BitVec.ofNat 32 ((if n.xpt.dirty then 4 else 0) + (if n.xpt.copying then 2 else 0) + (if n.xpt.active then 1 else 0))
  else if off = 0x048 then
    BitVec.ofNat 32 (n.rt.spans.length % 2 ^ 16 * 2 ^ 16 + (n.validEntries n.xpt.active).length % 2 ^ 16)
  else if off = 0x04C then BitVec.ofNat 32 (n.heldPaths % 2 ^ 16)
  else if off = 0x058 then n.objDesc.getD 0 0
  else n.reg xptPage off

end Node

end Sys2Proof.Machine
end

