-- ==== Sys2Proof/Machine/Schedule.lean ====
section
/-! DEFINITION. The schedule of the path engines (R12, R72, R110, R125, R127, R141, R146 to R155): what the work items of a
configuration compute, in which order, what each waits for, and the pipeline operations that it performs. -/

namespace Sys2Proof.Machine

open Sys2Proof (Word Byte Sparse Page Block Die Port Src ShutterId SinkId SourceCfg BusCfg XpCfg StripCfg SinkCfg
  ItemCfg ReedCfg BlockCfg PsumCfg PartCfg Cfg EngineOp Lintel CoreId)

/-- A work item in a slot's schedule: its number, and its objects with the configuration that places them. The items of the
old routes of a transition follow those of the configuration in force, numbered from 32,768 on
(DESIGN CHOICE, notes/assumptions/170.md). -/
structure Sched where
  num : Nat
  cfg : Cfg
  item : ItemCfg
  old : Bool

/-- What an item waits for (R52, R72, R125, R141, R146): another item of its die, by slot and number, or of another die; a Lintel
transfer; a read window of a strip; the run of a bus's hook, by core and slot. -/
inductive Need
  | item (slot num : Nat)
  | there (die slot num : Nat)
  | transfer (what : Lintel)
  | window (strip : Nat)
  | hook (core slot : Nat)
deriving DecidableEq, Repr

namespace Graph

/-- Fen offset of a block on a die (`BlockCfg`). -/
def blockAt (c : Cfg) (d kind num : Nat) : Nat :=
  ((c.blocks.find? (fun (b : BlockCfg) => decide (b.die = d ∧ b.kind = kind ∧ b.num = num))).map (·.off)).getD 0

/-- Die of an object. -/
def dieOf (c : Cfg) (o : Obj) : Option Nat :=
  match o.1 with
  | 0 => (sourceAt c o.2).map (·.die)
  | 1 => (busAt c o.2).map (·.die)
  | _ => (stripAt c o.2).map (·.die)

/-- The objects whose strips an item runs. -/
def itemStrips (i : ItemCfg) : List Obj := i.ins.map (fun k => (0, k)) ++ i.buses.map (fun k => (1, k)) ++ i.outs.map (fun k => (2, k))

/-- The item of a configuration that runs an object's strip. -/
def itemOf (c : Cfg) (o : Obj) : Option ItemCfg := c.items.find? (fun (i : ItemCfg) => (itemStrips i).contains o)

/-- The Reed program that is hooked onto a bus (R158). -/
def hookOf (c : Cfg) (b : Nat) : Option ReedCfg := c.reeds.find? (fun (g : ReedCfg) => g.hook && decide (g.feeds.head? = some (1, b)))

/-- The items that hold later segments of a strip's FIR chain, in the order of the schedule, with the first segment of each
(R141). -/
def laterRuns (c : Cfg) (k : Nat) : List (ItemCfg × Nat × Nat) :=
  let count := fun (i : ItemCfg) => ((i.segs.filter (fun e => decide (e.1 = k))).map (·.2)).sum
  let first := ((c.items.filter (fun (i : ItemCfg) => i.outs.contains k)).map count).sum
  let rest := c.items.filter (fun (i : ItemCfg) => !i.outs.contains k && i.segs.any (fun e => decide (e.1 = k)))
  (rest.foldl (fun (a : List (ItemCfg × Nat × Nat) × Nat) i => (a.1 ++ [(i, a.2, count i)], a.2 + count i)) ([], first)).1

/-- Partial sums of a bus, by ascending die, slot and item of the items that form them (R125). -/
def psumsOf (c : Cfg) (b d : Nat) : List PsumCfg :=
  let mine := c.psums.filter (fun (p : PsumCfg) => decide (p.bus = b ∧ p.die = d))
  (List.range 48).flatMap (fun k => mine.filter (fun (p : PsumCfg) => decide (p.src * 8 + p.slot = k)))

/-- What an object's block waits for on a die: the item that runs its strip there, or its transfer. -/
def blockNeed (c : Cfg) (d : Nat) (o : Obj) : List Need :=
  if dieOf c o = some d then
    match itemOf c o with
    | some j => [.item j.slot j.item]
    | none => []
  else [.transfer (.block (o.1 + 1) o.2)]

/-- A transfer of an old route, told apart from that of the configuration in force (DESIGN CHOICE,
notes/assumptions/170.md), and back. -/
def oldLintel : Lintel → Lintel
  | .input k => .input (4096 + k)
  | .block kind num => .block (kind + 4) num
  | .psum bus src slot item => .psum (1024 + bus) src slot item
def plainLintel : Lintel → Bool × Lintel
  | .input k => (decide (4096 ≤ k), .input (k % 4096))
  | .block kind num => (decide (4 < kind), .block (if 4 < kind then kind - 4 else kind) num)
  | .psum bus src slot item => (decide (1024 ≤ bus), .psum (bus % 1024) src slot item)

end Graph

namespace Node

/-- Sample `t` of the casement that runs, by its number on the media grid (R48). -/
def mediaSample (n : Node) (t : Nat) : Nat := n.clk.index * n.s + t

/-! The transition (R83, R84). -/

/-- Kind under which a strip's state is kept: that of an old instance lies beside the new one's. -/
def stateKind (kind : Nat) (old : Bool) : Nat := if old then kind + 4 else kind

/-- The Shutter of a strip, or of its old instance. -/
def stripShut (kind num : Nat) (old : Bool) : ShutterId := ⟨kind, if old then 8 else 0, num⟩

/-- Word 0 of an entry as far as it says which crosspoint it holds (R74, R76). -/
def xpShape (x : XpCfg) : Nat := x.source % 4096 + x.bus % 1024 * 4096 + (if x.fromBus then 2 ^ 27 else 0)

/-- A crosspoint of the configuration that a commit replaces, which that commit removes, still fades (R76): its swap is about to
come, or its Shutter closes. -/
def xpFades (n : Node) (x : XpCfg) : Bool :=
  !n.rt.cfg.xpoints.any (fun (y : XpCfg) => decide (y.entry = x.entry ∧ xpShape y = xpShape x)) &&
  (n.xpt.closing.any (fun e => decide (e.entry = x.entry ∧ e.shape = xpShape x) && (n.shut ⟨0, e.place, e.entry⟩).present) ||
    decide ((n.entryWord n.xpt.active x.entry 0 &&& shapeMask).toNat = xpShape x) && (n.entryWord n.xpt.active x.entry 0).getLsbD 31)

/-- The object that feeds a crosspoint. -/
def xpFeed (x : XpCfg) : Obj := (if x.fromBus then 1 else 0, x.source)

/-- An old object runs on for a span that has not ended: it, or what feeds it, is changed or gone, and the old route of an
affected or removed sink passes through it. A sink with a closed Shutter needs it for one casement after its switch (R83 to
R85). It runs on as well for a removed crosspoint that it feeds, while that fades (R76). -/
def oldRuns (n : Node) (o : Obj) : Bool :=
  (Graph.above n.rt.old 4 o).any (Graph.lostObj n.rt.old n.rt.cfg) &&
  (n.rt.spans.any (fun (x : Span) => !(x.closed && decide (x.wait + n.s ≤ x.done)) && match Graph.sinkAt n.rt.old x.sink with
    | some a => (Graph.above n.rt.old 4 (a.feedKind, a.feed)).contains o
    | none => false) ||
   n.rt.old.xpoints.any (fun (x : XpCfg) => n.xpFades x && (Graph.above n.rt.old 4 (xpFeed x)).contains o))

/-- The item of an old schedule as far as it still runs. -/
def oldItem (n : Node) (i : ItemCfg) : ItemCfg :=
  let runs := n.oldRuns
  { i with
    xps := i.xps.filter (fun e => n.rt.old.xpoints.any (fun (x : XpCfg) => decide (x.entry = e) && runs (1, x.bus)))
    ins := i.ins.filter (fun k => runs (0, k))
    buses := i.buses.filter (fun k => runs (1, k))
    outs := i.outs.filter (fun k => runs (2, k))
    segs := i.segs.filter (fun e => runs (2, e.1))
    joins := i.joins.filter (fun k => runs (2, k)) }

/-- Number from which the items of old routes count. -/
def oldItems : Nat := 32768

/-- The schedule of a logical slot in the casement that runs (R110). -/
def schedule (n : Node) (d slot : Nat) : List Sched :=
  if !n.rt.inForce then []
  else
    let here := fun (i : ItemCfg) => decide (i.die = d ∧ i.slot = slot)
    (n.rt.cfg.items.filter here).map (fun i => ⟨i.item, n.rt.cfg, i, false⟩) ++
    ((n.rt.old.items.filter here).map n.oldItem).filterMap (fun i =>
      if i.xps.isEmpty && (Graph.itemStrips i).isEmpty && i.segs.isEmpty then none
      else some ⟨oldItems + i.item, n.rt.old, i, true⟩)

/-- An item of an old route reads an object's old instance where it has one (R83). -/
def readsOld (n : Node) (x : Sched) (o : Obj) : Bool := x.old && n.oldRuns o

/-- Fen offset of an object's block on the die of the item that reads it. -/
def feedAt (n : Node) (x : Sched) (o : Obj) : Nat :=
  Graph.blockAt (if n.readsOld x o then x.cfg else n.rt.cfg) x.item.die (o.1 + 1) o.2

/-! Banks and delays, sample by sample. -/

/-- Bank of a strip's block, or of its chain, at sample `t` of the casement (R135). -/
def bankAt (bank due : Bool) (swapped : Option Nat) (at_ t : Nat) : Bool :=
  if due then (if at_ ≤ t then !bank else bank)
  else match swapped with
    | some k => if t < k then !bank else bank
    | none => bank

/-- The limiter, interpolator and scratch words of an output strip, past the states of its sections: the state word of the
interpolator, that of the section or read it fades from, the limiter's gain and hold, and a scratch sample
(DESIGN CHOICE, notes/assumptions/171.md). -/
def strA (s : StripCfg) : Nat := s.state + 32 * s.sections
def strB (s : StripCfg) : Nat := strA s + 8
def limGain (s : StripCfg) : Nat := strA s + 16
def limHold (s : StripCfg) : Nat := strA s + 24
def scratch (s : StripCfg) : Nat := strA s + 28

/-- Length of the ring in Fen: 1,056 of an input strip, 4,160 or the tail of 64 of an output strip (R145), and the two samples
of an interpolator without a ring. -/
def fenRingLen (cls : Nat) (out : Bool) : Nat := if !out then 1056 else if cls = 1 then 4160 else if cls = 2 then 64 else 2

/-- Age that the first sample of a read window has at sample 0: the largest delay of the casement and 3 samples more
(DESIGN CHOICE, notes/assumptions/172.md). -/
def windowAge (n : Node) (st : StripSt) (jumpTo : Bool) : Nat :=
  (if jumpTo then st.target * 256
   else match st.mode with
     | .gliding | .waitFill => if st.len = 0 then st.applied else Nat.max (glideAt st.start (st.target * 256) st.len (st.done + 1)) (glideAt st.start (st.target * 256) st.len (st.done + n.s))
     | .jumping | .heldTarget => st.start
     | _ => st.applied) / 65536 + 3

/-- Where an output strip reads the sample of age `a` at sample `t` (R146): its ring or tail, or a read window. -/
def ringRead (n : Node) (s : StripCfg) (st : StripSt) (jumpTo : Bool) (t a : Nat) : Nat :=
  let cls := if s.dram then 2 else if s.fenClass then 1 else 0
  let len := fenRingLen cls true
  if cls = 2 ∧ 63 < a then (if jumpTo then s.window2 else s.window) + 4 * (n.windowAge st jumpTo + t - a)
  else s.fenRing + 4 * ((n.mediaSample t + len * (a + 1) - a) % len)

/-- The read of an output strip at delay `q` in 1/256 sample into `dst`, on the state word `st8` (R147). -/
def readOps (n : Node) (s : StripCfg) (st : StripSt) (jumpTo : Bool) (t q base dst st8 : Nat) : List EngineOp :=
  if s.frac then [.interp (n.ringRead s st jumpTo t (base + 1)) (n.ringRead s st jumpTo t base) (q - 256 * base) dst st8]
  else [.copy (n.ringRead s st jumpTo t (q / 256)) dst]

/-- The ages at which an output strip reads its ring at sample `t`, each with whether the read is that of a jump's new position
(R147, R149, R155). -/
def readAges (s : StripCfg) (st : StripSt) (t : Nat) : List (Bool × Nat) :=
  let pair := fun (jumpTo : Bool) (q base : Nat) => if s.frac then [(jumpTo, base + 1), (jumpTo, base)] else [(jumpTo, q / 256)]
  match st.mode with
  | .jumping | .heldTarget =>
    let old := appliedQ8 st.start
    pair true st.target (baseOf st.target) ++ (if st.done + t < 64 then pair false old (baseOf old) else [])
  | _ =>
    let q := st.delayAt s.frac t
    let (b, old, age) := st.basesTo s.frac (t + 1)
    pair false q b ++ (if s.frac ∧ age < 16 then pair false q old else [])

/-- The samples that a strip reads from its read windows in the casement that runs, in order: the sample of the casement, the window,
and the media sample read (R146). -/
def windowReads (n : Node) (s : StripCfg) (st : StripSt) : List (Nat × Bool × Int) :=
  (List.range n.s).flatMap (fun t => ((readAges s st t).filter (fun e => decide (63 < e.2))).map (fun e =>
    (t, e.1, (n.mediaSample t : Int) - (e.2 : Int))))

/-- A state word moves. -/
def moveState (src dst : Nat) : List EngineOp := [.copy src dst, .copy (src + 4) (dst + 4)]

/-- The delay and the interpolator of an output strip at sample `t`, on the sample at `w` (R145 to R149, R153, R155). -/
def outDelayOps (n : Node) (s : StripCfg) (st : StripSt) (w t : Nat) : List EngineOp :=
  let cls := if s.dram then 2 else if s.fenClass then 1 else 0
  if cls = 0 ∧ !s.frac then []
  else
    let len := fenRingLen cls true
    let write : List EngineOp := [.copy w (s.fenRing + 4 * (n.mediaSample t % len))]
    let j := st.done + t
    match st.mode with
    | .jumping | .heldTarget =>
      let new := st.target
      let old := appliedQ8 st.start
      let nb := baseOf new
      write ++
      (if j = 0 ∧ s.frac then moveState (strA s) (strB s) ++ [.seed (n.ringRead s st true t nb) (strA s)] else []) ++
      n.readOps s st true t new nb w (strA s) ++
      (if j < 64 then n.readOps s st false t old (baseOf old) (scratch s) (strB s) ++ [.mix (scratch s) w w j 64] else [])
    | _ =>
      let q := st.delayAt s.frac t
      let (b, old, age) := st.basesTo s.frac (t + 1)
      write ++
      (if s.frac ∧ age = 0 then moveState (strA s) (strB s) else []) ++
      n.readOps s st false t q b w (strA s) ++
      (if s.frac ∧ age < 16 then n.readOps s st false t q old (scratch s) (strB s) ++ [.mix (scratch s) w w age 16] else [])

/-- The delay of an input strip at sample `t` (R145, R155): whole samples alone. -/
def inDelayOps (n : Node) (s : SourceCfg) (st : StripSt) (w t : Nat) : List EngineOp :=
  if !s.fenClass then []
  else
    let at_ := fun (a : Nat) => s.ring + 4 * ((n.mediaSample t + 1056 * (a + 1) - a) % 1056)
    let j := st.done + t
    [.copy w (at_ 0)] ++
    (match st.mode with
      | .jumping | .heldTarget =>
        if j < 64 then [.mix (at_ (st.start / 65536)) (at_ (st.target / 256)) w j 64] else [.copy (at_ (st.target / 256)) w]
      | _ => [.copy (at_ (st.applied / 65536)) w])

/-! The stages of the strips (R127). -/

/-- Sections from record `rec` and state `st` on. -/
def sectionOps (x rec st k : Nat) : List EngineOp := (List.range k).map (fun j => .biquad x (rec + 32 * j) (st + 32 * j))

/-- A Shutter: the sample at `x` times its gain, stored at `dst` (R94). -/
def shutterOps (x dst : Nat) (sh : ShutterId) (t : Nat) : List EngineOp := [.clear, .gain x sh t, .storeSample dst]

/-- An input strip at sample `t`. -/
def inputOps (n : Node) (c : Cfg) (old : Bool) (s : SourceCfg) (t : Nat) : List EngineOp :=
  let st := n.strip (stateKind 1 old) s.num
  let w := Graph.blockAt c s.die 1 s.num + 4 * t
  let rec_ := if bankAt st.bank st.due st.swapped (n.swapAt s.die false) t then s.loc1 else s.loc0
  [.copy (Graph.blockAt c s.die 0 s.num + 4 * t) w, .trim w rec_, .biquad w (rec_ + 32) s.state] ++
  sectionOps w (rec_ + 64) (s.state + 32) s.sections ++ n.inDelayOps s st w t ++
  shutterOps w w (stripShut 1 s.num old) t ++
  (if s.kind = 2 then [.scale w (n.tdmFactor (s.origin / 32) false (s.origin % 32) ((n.clk.index * n.s - n.s + t) / divOf (n.act (tdmPage (s.origin / 32)) Fld.tdmCfgDiv)))] else [])

/-- The Shutter under which a crosspoint of an old route plays: that of its entry, or the one that closes beside it (R76). -/
def xpGain (n : Node) (x : XpCfg) (old : Bool) : ShutterId :=
  match (if old then n.xpt.closing.find? (fun e => decide (e.entry = x.entry ∧ e.shape = xpShape x)) else none) with
  | some e => ⟨0, e.place, x.entry⟩
  | none => ⟨0, 0, x.entry⟩

/-- A Fen offset on another die, as an item of die `d` names it: its block crosses the Lintel links. -/
def crossAt (d home off : Nat) : Nat := if d = home then off else (home + 1) * 2 ^ 24 + off

/-- The removed crosspoints into a bus that still close (R76): the object that feeds each, which is the old instance where that runs
on, and its Shutter. -/
def closingXps (n : Node) (b : Nat) : List (Bool × Obj × ShutterId) :=
  (n.xpt.closing.filter (fun e => decide (e.shape / 4096 % 1024 = b) && (n.shut ⟨0, e.place, e.entry⟩).present)).map (fun e =>
    let o : Obj := (if e.shape / 2 ^ 27 % 2 = 1 then 1 else 0, e.shape % 4096)
    (n.oldRuns o, o, ⟨0, e.place, e.entry⟩))

/-- The configuration that places such an object. -/
def closingCfg (n : Node) (old : Bool) : Cfg := if old then n.rt.old else n.rt.cfg

/-- The crosspoints into a bus that an item sums, by the Fen offset of what feeds each: its own, and, in the item that completes
the bus, those that close after their removal (R76). -/
def itemXps (n : Node) (x : Sched) (b : Nat) : List (Nat × ShutterId) :=
  (x.cfg.xpoints.filter (fun (e : XpCfg) => decide (e.bus = b) && x.item.xps.contains e.entry)).map (fun e =>
    (n.feedAt x (xpFeed e), n.xpGain e x.old)) ++
  (if x.old || !x.item.buses.contains b then []
    else (n.closingXps b).filterMap (fun e => (Graph.dieOf (n.closingCfg e.1) e.2.1).map (fun h =>
      (crossAt x.item.die h (Graph.blockAt (n.closingCfg e.1) h (e.2.1.1 + 1) e.2.1.2), e.2.2))))

/-- The crosspoints of an item into a bus, summed at sample `t`. -/
def sumOps (n : Node) (x : Sched) (b t : Nat) : List EngineOp :=
  .clear :: (n.itemXps x b).map (fun e => .gain (e.1 + 4 * t) e.2 t)

/-- A bus strip at sample `t` (R72, R125): its own die's sums, then those of the other dies, one saturating store, its sections,
its hook, and its Shutter. -/
def busOps (n : Node) (x : Sched) (b : BusCfg) (t : Nat) : List EngineOp :=
  let c := x.cfg
  let st := n.strip (stateKind 2 x.old) b.num
  let rec_ := if bankAt st.bank st.due st.swapped (n.swapAt b.die false) t then b.loc1 else b.loc0
  let out := Graph.blockAt c b.die 2 b.num + 4 * t
  let hook := if b.hook then Graph.hookOf c b.num else none
  let w := match hook with
    | some g => g.inOffs.getD 0 0 + 4 * t
    | none => out
  let ps := Graph.psumsOf c b.num b.die
  let add := fun (p : PsumCfg) => EngineOp.addPartial (p.off + 12 * t)
  n.sumOps x b.num t ++ (ps.filter (fun p => decide (p.src = b.die))).map add ++ (ps.filter (fun p => decide (p.src ≠ b.die))).map add ++
  [.storeSample w] ++ sectionOps w rec_ b.state b.sections ++
  shutterOps (match hook with | some g => g.outOffs.getD 0 0 + 4 * t | none => w) out (stripShut 2 b.num x.old) t

/-- Taps of a run of FIR segments at sample `t` (R140). -/
def firOp (n : Node) (s : StripCfg) (st : StripSt) (t first count : Nat) : EngineOp :=
  let taps := if bankAt st.firBank st.firDue st.firSwapped (n.swapAt s.die true) t then s.firLoc1 else s.firLoc0
  .fir taps s.firHist (64 * s.segments) (n.mediaSample t % (64 * s.segments)) (64 * first) (64 * count)

/-- An output strip at sample `t`. -/
def outOps (n : Node) (x : Sched) (s : StripCfg) (t : Nat) : List EngineOp :=
  let c := x.cfg
  let st := n.strip (stateKind 3 x.old) s.num
  let rec_ := if bankAt st.bank st.due st.swapped (n.swapAt s.die false) t then s.loc1 else s.loc0
  let w := Graph.blockAt c s.die 3 s.num + 4 * t
  let count := ((x.item.segs.filter (fun e => decide (e.1 = s.num))).map (·.2)).sum
  let fir : List EngineOp := if s.segments = 0 then [] else
    [.copy w (s.firHist + 4 * (n.mediaSample t % (64 * s.segments))), .clear, n.firOp s st t 0 count] ++
    (c.parts.filter (fun (p : PartCfg) => decide (p.strip = s.num))).map (fun p => .addPartial (p.off + 12 * t)) ++ [.storeSample w]
  [.copy (n.feedAt x (if s.inBus then 1 else 0, s.input) + 4 * t) w] ++
  sectionOps w rec_ s.state s.sections ++ fir ++ n.outDelayOps s st w t ++
  [.limiter w (rec_ + 32 * s.sections) (limGain s) (limHold s) (if x.old then 4096 + s.num else s.num)] ++ shutterOps w w (stripShut 3 s.num x.old) t

/-- A run of later segments of a chain, at sample `t` (R141). -/
def laterOps (n : Node) (x : Sched) (k t : Nat) : List EngineOp :=
  match Graph.stripAt x.cfg k, (Graph.laterRuns x.cfg k).find? (fun r => decide (r.1.slot = x.item.slot ∧ r.1.item = x.item.item)),
      x.cfg.parts.find? (fun (p : PartCfg) => decide (p.strip = k ∧ p.slot = x.item.slot ∧ p.item = x.item.item)) with
  | some s, some r, some p =>
    [.clear, n.firOp s (n.strip (stateKind 3 x.old) k) t r.2.1 r.2.2, .storePartial (p.off + 12 * t)]
  | _, _, _ => []

/-- A partial sum for a bus that another item completes, at sample `t` (R12). -/
def psumOps (n : Node) (x : Sched) (b t : Nat) : List EngineOp :=
  match x.cfg.psums.find? (fun (p : PsumCfg) => decide (p.bus = b ∧ p.src = x.item.die ∧ p.slot = x.item.slot ∧ p.item = x.item.item)) with
  | some p => n.sumOps x b t ++ [.storePartial (p.off + 12 * t)]
  | none => []

/-- The buses that an item sums into, level 1 first (R72). -/
def itemBuses (x : Sched) : List Nat :=
  let bs := ((x.cfg.xpoints.filter (fun (e : XpCfg) => x.item.xps.contains e.entry)).map (·.bus) ++ x.item.buses).eraseDups
  bs.filter (fun b => decide (Graph.level x.cfg b = 1)) ++ bs.filter (fun b => decide (Graph.level x.cfg b ≠ 1))

/-- The operations of a work item, in the order in which it performs them (R72, R127): later FIR segments, input strips, sums and
bus strips by level, and output strips, each over the samples of the casement. -/
def itemOps (n : Node) (x : Sched) : List EngineOp :=
  let each := fun (f : Nat → List EngineOp) => (List.range n.s).flatMap f
  ((x.item.segs.map (·.1)).eraseDups.filter (fun k => !x.item.outs.contains k)).flatMap (fun k => each (n.laterOps x k)) ++
  x.item.ins.flatMap (fun k => match Graph.sourceAt x.cfg k with
    | some s => each (n.inputOps x.cfg x.old s)
    | none => []) ++
  (itemBuses x).flatMap (fun b =>
    if x.item.buses.contains b then
      match Graph.busAt x.cfg b with
      | some bc => each (n.busOps x bc)
      | none => []
    else each (n.psumOps x b)) ++
  x.item.outs.flatMap (fun k => match Graph.stripAt x.cfg k with
    | some s => each (n.outOps x s)
    | none => [])

/-! What an item waits for. -/

/-- A strip reads beyond its tail in the casement that runs (R146). -/
def needsWindow (n : Node) (s : StripCfg) (old : Bool) : Bool :=
  let st := n.strip (stateKind 3 old) s.num
  let far := fun (jumpTo : Bool) => decide (66 < n.windowAge st jumpTo + (if s.frac then 1 else 0))
  s.dram && (far false || (decide (st.mode = .jumping ∨ st.mode = .heldTarget) && far true))

/-- A need of an old route. -/
def oldNeed : Need → Need
  | .item slot i => .item slot (oldItems + i)
  | .there d slot i => .there d slot (oldItems + i)
  | .transfer what => .transfer (Graph.oldLintel what)
  | .window s => .window (4096 + s)
  | .hook core slot => .hook core slot

/-- The items that run an object's strip, as another item waits for them. -/
def stripNeeds (c : Cfg) (old : Bool) (o : Obj) : List Need :=
  match Graph.itemOf c o with
  | some j => [.there j.die j.slot (if old then oldItems + j.item else j.item)]
  | none => []

/-- An item that sums into a level-2 bus waits for every level-1 bus strip that it does not run itself (R72). -/
def levelNeeds (x : Sched) : List Need :=
  if (itemBuses x).all (fun b => decide (Graph.level x.cfg b = 1)) then []
  else (x.cfg.buses.filter (fun (b : BusCfg) => decide (Graph.level x.cfg b.num = 1) && !x.item.buses.contains b.num)).flatMap
    (fun (b : BusCfg) => stripNeeds x.cfg x.old (1, b.num))

/-- Everything that an item waits for, itself apart. -/
def itemNeeds (n : Node) (x : Sched) : List Need :=
  let c := x.cfg
  let d := x.item.die
  let mine := fun (ks : List Need) => if x.old then ks.map oldNeed else ks
  let feed := fun (o : Obj) =>
    if n.readsOld x o then (Graph.blockNeed c d o).map oldNeed else Graph.blockNeed n.rt.cfg d o
  (mine (x.item.ins.map (fun k => Need.transfer (.input k))) ++
   (c.xpoints.filter (fun (e : XpCfg) => x.item.xps.contains e.entry)).flatMap (fun e => feed (if e.fromBus then 1 else 0, e.source)) ++
   (if x.old then [] else levelNeeds x ++ x.item.buses.flatMap (fun b =>
      (n.closingXps b).flatMap (fun e => stripNeeds (n.closingCfg e.1) e.1 e.2.1))) ++
   x.item.buses.flatMap (fun b =>
      mine ((Graph.psumsOf c b d).map (fun p => if p.src = d then Need.item p.slot p.item else .transfer (.psum b p.src p.slot p.item))) ++
      (match Graph.busAt c b, Graph.hookOf c b with
        | some bc, some g => if bc.hook then [Need.hook g.core g.slot] else []
        | _, _ => [])) ++
   x.item.outs.flatMap (fun k => match Graph.stripAt c k with
      | some s => feed (if s.inBus then 1 else 0, s.input) ++
          mine ((c.parts.filter (fun (p : PartCfg) => decide (p.strip = k))).map (fun p => Need.item p.slot p.item) ++
            (if n.needsWindow s x.old then [Need.window k] else []))
      | none => [])).filter (fun k => decide (k ≠ .item x.item.slot x.num ∧ k ≠ .there d x.item.slot x.num))

/-- A need is met on a die. Nobody waits for an item of a lost slot (R61), nor for a hook whose slot is STOPPED (R165). -/
def needMet (n : Node) (d : Nat) (k : Need) : Bool :=
  match k with
  | .item slot i => n.cas.done.contains (d, slot, i) || n.rt.lostSlots.contains (d * 8 + slot)
  | .there h slot i => n.cas.done.contains (h, slot, i) || n.rt.lostSlots.contains (h * 8 + slot)
  | .transfer what => n.cas.arrived.contains (d, what)
  | .window s => n.cas.fetched.contains s
  | .hook core slot => n.cas.hooks.contains (d, core, slot) ||
      (n.reed ⟨Fin.ofNat 6 d, Fin.ofNat 4 core⟩).stopped.getLsbD (slot % 8) || (n.reed ⟨Fin.ofNat 6 d, Fin.ofNat 4 core⟩).retired

/-- The first need of an item that is not met. -/
def firstUnmet (n : Node) (x : Sched) : Option Need := (n.itemNeeds x).find? (fun k => !n.needMet x.item.die k)

end Node

end Sys2Proof.Machine
end

