-- ==== Sys2Proof/Machine/Engine.lean ====
section
/-! DEFINITION. Path engines, Fen and the Lintel links (R110 to R126): the arithmetic of a work item, its write-back buffer,
residue mismatches, retirement and the spare, Fen errors, and link errors. -/

namespace Sys2Proof.Machine

open Sys2Proof (Word Byte Sparse Page Block Die Port Src ShutterId InputId SinkId ShutCfg EngineOp Unfinished Lintel PsumCfg BlockCfg)

def penPage (d : Nat) : Page := ⟨.pen, d⟩
def fenPage (d : Nat) : Page := ⟨.fen, d⟩
def lnkPage (d : Nat) : Page := ⟨.lnk, d⟩

/-- What the datapath's error adds in the check now made, at a stage. -/
def ItemRun.errAt (r : ItemRun) (stage : Nat) : Int :=
  match r.flaw with
  | some (k, st, e) => if k = r.checks ∧ st = stage then e else 0
  | none => 0

/-- A check of the check unit: `ok` says that residue, or comparator, agrees (R113). -/
def ItemRun.check (r : ItemRun) (ok : Bool) : ItemRun := { r with checks := r.checks + 1, agree := r.agree && ok }

/-- The residue that the check unit keeps of a value (R113). -/
def residue (v : Int) : Int := v % 3

/-- Note a saturation at a stage. -/
def ItemRun.saturate (r : ItemRun) (stage : Nat) : ItemRun := { r with sat := some (r.sat.getD stage) }

/-- Put a sum into the accumulator, Q10.62, saturating at its range (R111). The accumulate's residue is checked, or the
second comparator where it saturates (R113). -/
def ItemRun.sum (r : ItemRun) (v : Int) : ItemRun :=
  let w := satInt 72 v
  if w = v then
    let got := w + r.errAt 1
    { r.check (decide (residue got = residue v)) with acc := got }
  else ({ r.check (decide (r.errAt 3 = 0)) with acc := w }).saturate 2

/-- Add a product of two 32-bit operands, aligned by `shift` bits (R111). The residues of the product and of the shift, by
(−1)^k, are checked (R113). -/
def ItemRun.addMul (r : ItemRun) (a b : Int) (shift : Nat) : ItemRun :=
  let p := a * b + r.errAt 0
  let r := r.check (decide (residue p = residue (residue a * residue b)))
  let q := p * 2 ^ shift + r.errAt 0
  let r := r.check (decide (residue q = residue (residue p * (if shift % 2 = 0 then 1 else -1))))
  r.sum (r.acc + q)

/-- A state word rounded to Q2.30 for a feedback product (R128). One that rounds past 2.0 saturates, and sets no SAT flag (DESIGN
CHOICE, notes/assumptions/165.md). -/
def roundFeedback (y : Int) : Int := satInt 32 ((y + 2 ^ 31) / 2 ^ 32)

/-- The bytes of a two's-complement number. -/
def intBytes (v : Int) (k : Nat) : List Byte := Node.leBytes (BitVec.ofInt (8 * k) v).toNat k

/-- The number that bytes spell in two's complement. -/
def bytesInt (bs : List Byte) : Int := (BitVec.ofNat (8 * bs.length) (Node.leNat bs)).toInt

/-- Write bytes into the write-back buffer (R114). -/
def ItemRun.put (r : ItemRun) (off : Nat) (bs : List Byte) : ItemRun :=
  { r with buffer := ((List.range bs.length).zip bs).foldl (fun b c => (off + c.1, c.2) :: b) r.buffer }

/-- Store a sample, saturating with stage SAMPLE. -/
def ItemRun.putSample (r : ItemRun) (off : Nat) (v : Int) : ItemRun :=
  let w := satInt 32 v
  if w = v then
    let got := w + r.errAt 2
    (r.check (decide (residue got = residue v))).put off (intBytes got 4)
  else ((r.check (decide (r.errAt 3 = 0))).saturate 0).put off (intBytes w 4)

/-- Store a state word, saturating with stage STATE. -/
def ItemRun.putState (r : ItemRun) (off : Nat) (v : Int) : ItemRun :=
  let w := satInt 64 v
  if w = v then
    let got := w + r.errAt 2
    (r.check (decide (residue got = residue v))).put off (intBytes got 8)
  else ((r.check (decide (r.errAt 3 = 0))).saturate 1).put off (intBytes w 8)

/-- A result of the datapath at a stage, as it is found, with its residue checked (R113). -/
def ItemRun.found (r : ItemRun) (stage : Nat) (v : Int) : Int × ItemRun :=
  let got := v + r.errAt stage
  (got, r.check (decide (residue got = residue v)))

/-- Store the accumulator whole, with its residue (R125). -/
def ItemRun.putPartial (r : ItemRun) (off : Nat) : ItemRun :=
  let (v, r) := r.found 2 r.acc
  r.put off (intBytes v 9 ++ [BitVec.ofInt 8 (v % 3), 0, 0])

/-- Unity in 2^-62. -/
def unity62 : Int := 2 ^ 62

namespace Node

/-- The die and the Fen offset that an item of die `d` names (`crossAt`). -/
def homeOf (d off : Nat) : Nat × Nat := if off < 2 ^ 24 then (d, off) else (off / 2 ^ 24 - 1, off % 2 ^ 24)

/-- Read `k` bytes for a work item: what the item itself wrote, else Fen; a poisoned word aborts the item (R120). -/
def itemRead (n : Node) (d : Nat) (r : ItemRun) (off k : Nat) : List Byte × ItemRun :=
  let mine := fun (a : Nat) => (r.buffer.find? (fun e => decide (e.1 = a))).map (·.2)
  let offs := (List.range k).map (off + ·)
  let bad := offs.any (fun a => (mine a).isNone && n.fenPoisoned (homeOf d a).1 (homeOf d a).2 1)
  (offs.map (fun a => (mine a).getD (n.rdByte (fenAddr (homeOf d a).1 (homeOf d a).2))), { r with poisoned := r.poisoned || bad })

/-- A word, and a wider number, in two's complement. -/
def itemInt (n : Node) (d : Nat) (r : ItemRun) (off : Nat) (k : Nat := 4) : Int × ItemRun :=
  let (bs, r) := n.itemRead d r off k
  (bytesInt bs, r)

/-- Gain of a Shutter at sample `t` of the casement in progress (R94): control gain times protect factor. -/
def gainAt (n : Node) (sh : ShutterId) (t : Nat) : Word := gainOf (n.shut sh) t

/-- A second-order section (R128, R132). -/
def runBiquad (n : Node) (d : Nat) (r : ItemRun) (x rec st : Nat) : ItemRun :=
  let (xn, r) := n.itemInt d r x
  let (b0, r) := n.itemInt d r rec
  let (b1, r) := n.itemInt d r (rec + 4)
  let (b2, r) := n.itemInt d r (rec + 8)
  let (a1, r) := n.itemInt d r (rec + 12)
  let (a2, r) := n.itemInt d r (rec + 16)
  let (flags, r) := n.itemInt d r (rec + 20)
  let (x1, r) := n.itemInt d r st 8
  let (x2, r) := n.itemInt d r (st + 8) 8
  let (y1, r) := n.itemInt d r (st + 16) 8
  let (y2, r) := n.itemInt d r (st + 24) 8
  let r := { r with acc := 0 }
  let r := if flags % 2 = 1 then r.sum (xn * 2 ^ 31)
    else
      let r := r.addMul b0 xn 2
      let r := r.addMul b1 (x1 / 2 ^ 31) 2
      let r := r.addMul b2 (x2 / 2 ^ 31) 2
      let r := r.addMul (-a1) (roundFeedback y1) 2
      r.addMul (-a2) (roundFeedback y2) 2
  let y := r.acc
  let r := (r.putState (st + 8) x1).putState st (xn * 2 ^ 31)
  let r := (r.putState (st + 24) y1).putState (st + 16) y
  r.putSample x (roundSample y)

/-- TRIM of the sample at `x` (R131). -/
def runTrim (n : Node) (d : Nat) (r : ItemRun) (x rec : Nat) : ItemRun :=
  let (xn, r) := n.itemInt d r x
  let (g, r) := n.itemInt d r rec
  let (flags, r) := n.itemInt d r (rec + 20)
  let r := ({ r with acc := 0 }).addMul xn (if flags / 2 % 2 = 1 then -g else g) 2
  r.putSample x (roundSample r.acc)

/-- `count` taps of a FIR from tap `start`, against the history ring (R140, R141). -/
def runFir (n : Node) (d : Nat) (r : ItemRun) (taps hist ring pos start count : Nat) : ItemRun :=
  (List.range count).foldl (fun r j =>
    let k := start + j
    let (h, r) := n.itemInt d r (taps + 4 * k)
    let (x, r) := n.itemInt d r (hist + 4 * ((pos + ring * (k + 1) - k) % ring))
    r.addMul h x 1) r

/-- The peak limiter on the sample at `x` (R143). RELEASE codes from 4,001 to 4,095 act as written (DESIGN CHOICE,
notes/assumptions/166.md). -/
def runLimiter (n : Node) (d : Nat) (r : ItemRun) (x rec st hold strip : Nat) : ItemRun :=
  let (xn, r) := n.itemInt d r x
  let (thresh, r) := n.itemInt d r rec
  let (timing, r) := n.itemInt d r (rec + 4)
  let (flags, r) := n.itemInt d r (rec + 20)
  let (g, r) := n.itemInt d r st 8
  let (h, r) := n.itemInt d r hold
  let th : Int := if thresh ≤ 0 then 1 else thresh
  let tm := (BitVec.ofInt 32 timing).toNat
  let attack := tm / 2 ^ 24 % 8
  let rel := Nat.max 1 (tm / 4096 % 4096)
  let fs := rateHz n.rate
  if flags % 2 = 1 then { r.putState st unity62 with gains := r.gains ++ [(strip, unity62)] }
  else
    let p : Int := xn.natAbs
    let gt := if p ≤ th then unity62 else limiterRatio th p
    let (g, h) :=
      if gt < g then
        ((if attack = 0 then gt else limiterFall g gt attack), (halfMsSamples (Nat.min (tm % 256) 200) fs : Int))
      else if 0 < h then (g, h - 1)
      else (min gt (if g = unity62 then g else limiterRise g (halfMsSamples rel fs)), h)
    let (y, r) := r.found 0 (if g = unity62 then xn else limiterOut xn g)
    let z := max (-th) (min th y)
    let (h, r) := r.found 2 h
    let r := (r.putState st g).put hold (intBytes h 4)
    let r := { r with clips := r.clips + (if z = y then 0 else 1), gains := r.gains ++ [(strip, g)] }
    r.putSample x z

/-- The fractional interpolator (R147): `frac` is δ in 1/256 sample. -/
def runInterp (n : Node) (d : Nat) (r : ItemRun) (a1 a0 frac out st : Nat) : ItemRun :=
  let (x1, r) := n.itemInt d r a1
  let (x0, r) := n.itemInt d r a0
  let (y1, r) := n.itemInt d r st 8
  let a := (interpCoeff frac).toInt
  let r := ({ r with acc := 0 }).addMul a x0 1
  let r := r.sum (r.acc + x1 * 2 ^ 31)
  let r := r.addMul (-a) (roundFeedback y1) 2
  let y := r.acc
  (r.putState st y).putSample out (roundSample y)

/-- One operation of a work item. -/
def runOp (n : Node) (d : Nat) (r : ItemRun) (op : EngineOp) : ItemRun :=
  match op with
  | .clear => { r with acc := 0 }
  | .addPartial off =>
    let (bs, r) := n.itemRead d r off 9
    r.sum (r.acc + bytesInt bs)
  | .mac x c shift =>
    let (a, r) := n.itemInt d r x
    let (b, r) := n.itemInt d r c
    r.addMul a b shift
  | .gain x sh t =>
    let (a, r) := n.itemInt d r x
    r.addMul a (n.gainAt sh t).toInt 2
  | .scale x factor =>
    let (a, r) := n.itemInt d { r with acc := 0 } x
    let r := r.addMul a factor.toInt 2
    r.putSample x (roundSample r.acc)
  | .storeSample off => r.putSample off (roundSample r.acc)
  | .storeState off => r.putState off r.acc
  | .storePartial off => r.putPartial off
  | .biquad x rec st => n.runBiquad d r x rec st
  | .trim x rec => n.runTrim d r x rec
  | .fir taps hist ring pos start count => n.runFir d r taps hist ring pos start count
  | .limiter x rec st hold strip => n.runLimiter d r x rec st hold strip
  | .interp x1 x0 frac out st => n.runInterp d r x1 x0 frac out st
  | .seed x st =>
    let (v, r) := n.itemInt d r x
    r.putState st (v * 2 ^ 31)
  | .mix a b out t len =>
    let (av, r) := n.itemRead d r a 4
    let (bv, r) := n.itemRead d r b 4
    let w (bs : List Byte) : Word := BitVec.ofNat 32 (leNat bs)
    let (v, r) := r.found 0 (if len ≤ t then w bv else crossMix t len (w av) (w bv)).toInt
    let (v, r) := r.found 2 v
    r.put out (intBytes v 4)
  | .copy src dst =>
    let (bs, r) := n.itemRead d r src 4
    r.put dst bs

/-- A whole item, from the state of Fen when it starts (DESIGN CHOICE, notes/assumptions/68.md). -/
def runItem (n : Node) (d : Nat) (ops : List EngineOp) (flaw : Option (Nat × Nat × Int) := none) : ItemRun :=
  ops.foldl (fun r op => n.runOp d r op) { flaw := flaw }

/-- The physical engine that serves a logical slot (R110, R117), if one does. -/
def engineOf (n : Node) (d slot : Nat) : Option Nat :=
  if (n.engine d slot).state = .active then some slot
  else if (n.die d).spareFor = some slot ∧ (n.engine d 8).state = .standingIn then some 8
  else none

/-- An item of the casement that was aborted by a poisoned word or a bad partial sum: it does not run again in it. -/
def itemAborted (n : Node) (d slot item : Nat) : Bool :=
  n.cas.aborted.any (fun u => decide (u.1 = slot ∧ u.2.die.val = d ∧ u.2.item = item))

/-- An item is aborted on an engine: it is unfinished (R120). -/
def abortItem (n : Node) (d k slot item : Nat) : Node :=
  let n := n.modEngine d k (fun e => { e with item := none, ops := [], buffer := [], past := 0, ran := {}, recompute := false })
  match (if h : d < 6 then some (⟨d, h⟩ : Die) else none) with
  | some die => { n with cas := { n.cas with aborted := n.cas.aborted ++ [(slot, ⟨die, k, item, false⟩)] } }
  | none => n

/-- A saturating item (R112): sticky flag, count, first capture and PG_IRQ bit 2. -/
def noteSaturation (n : Node) (d k item stage : Nat) : Node :=
  let p := penPage d
  let n := (n.setReg p 0x050 (n.reg p 0x050 ||| (1#32 <<< k))).bump p Fld.penSatCount
  let n := if n.flag p Fld.penSatcapValid then n
    else n.setReg p 0x054 (BitVec.ofNat 32 (2 ^ 31 + k % 16 * 2 ^ 24 + stage % 4 * 2 ^ 20 + item % 2 ^ 16))
  n.irq p 2

/-- Tag of the limiter of an old instance: BQD.LIM shows the strip in force (R144). -/
def oldStrip : Nat := 4096

/-- BQD.LIM follows the limiters of an item's run (R144). -/
def noteGains (n : Node) (d : Nat) (gains : List (Nat × Int)) : Node :=
  (gains.filter (fun g => decide (g.1 < oldStrip))).foldl (fun m g =>
    let gr := if g.2 = unity62 then 0 else gainReduction g.2
    (m.setFld (bqdPage d) Fld.bqdLimGrNow (Nat.min gr 65535) g.1).peak (bqdPage d) Fld.bqdLimGrPeak gr g.1) n

/-- Run an item in an engine's write-back buffer. A poisoned word aborts it: it is unfinished (R120)
(DESIGN CHOICE, notes/assumptions/70.md). -/
def startItem (n : Node) (d k slot item : Nat) (ops : List EngineOp) (again : Bool) : Node :=
  let r := n.runItem d ops
  let n := n.modEngine d k (fun e => { e with past := 0, ran := {} })
  if r.poisoned then n.abortItem d k slot item
  else
    let n := n.modEngine d k (fun e => { e with item := some item, slot := slot, ops := ops, buffer := r.buffer, recompute := again })
    if again then n
    else
      let n := match r.sat with | some stage => n.noteSaturation d k item stage | none => n
      let n := if r.clips = 0 then n else n.bump (bqdPage d) Fld.bqdLimclipCount r.clips
      n.noteGains d r.gains

/-- A write under the items that run on a die (R134), or a word found poisoned there (R120): each has completed some of its
operations, a free number of them, on Fen as it stood in `before`, and the rest run on Fen as it now is. What it counts follows. -/
def rerunItems (n before : Node) (d : Nat) : Node :=
  (List.range 9).foldl (fun m k =>
    let e := m.engine d k
    match e.item with
    | none => m
    | some item =>
      if e.late then m
      else
        let (w, m) := m.fresh
        let more := w.toNat % (e.ops.length + 1 - e.past)
        let r := ((e.ops.drop e.past).take more).foldl (fun r op => before.runOp d r op) e.ran
        let was := (e.ops.drop e.past).foldl (fun r op => before.runOp d r op) e.ran
        let fin := (e.ops.drop (e.past + more)).foldl (fun r op => m.runOp d r op) r
        if fin.poisoned then m.abortItem d k e.slot item
        else
          let m := m.modEngine d k (fun e => { e with past := e.past + more, ran := r, buffer := fin.buffer })
          if e.recompute then m
          else
            let m := if was.clips = fin.clips then m
              else m.setFld (bqdPage d) Fld.bqdLimclipCount (m.fld (bqdPage d) Fld.bqdLimclipCount + fin.clips - was.clips)
            let m := if was.gains = fin.gains then m else m.noteGains d fin.gains
            match fin.sat, was.sat with
            | some stage, none => m.noteSaturation d k item stage
            | _, _ => m) n

/-- Sinks fed by the items of a logical slot. -/
def slotSinks (n : Node) (d slot : Nat) : List SinkId :=
  (n.rt.cfg.items.filter (fun i => decide (i.die = d ∧ i.slot = slot))).flatMap (Graph.itemSinks n.rt.cfg)

/-- A logical slot is lost (R61): its items are not run, nor ends the one that runs, its sinks are held by cause 2, and
re-admission is due. -/
def loseSlot (n : Node) (d slot : Nat) : Node :=
  if n.rt.lostSlots.contains (d * 8 + slot) then n
  else
    let n := { n with rt := { n.rt with lostSlots := n.rt.lostSlots ++ [d * 8 + slot] } }
    let n := match n.engineOf d slot with
      | some k => n.modEngine d k (fun e => { e with item := none, ops := [], buffer := [], past := 0, ran := {}, recompute := false, late := false })
      | none => n
    (n.emergencySinks (n.slotSinks d slot)).capacityLost

/-- An engine is retired (R117): it stops at once, and the spare is told to load its schedule; with no spare its slot is
lost (R118). It is no longer suspect (DESIGN CHOICE, notes/assumptions/162.md), and code 0x02 is raised also where no spare
stands in (DESIGN CHOICE, notes/assumptions/163.md). -/
def retireEngine (n : Node) (d k : Nat) (detail : Word) : Node :=
  let e := n.engine d k
  let n := n.modEngine d k (fun e => { e with
    state := .retired, suspect := false, item := none, ops := [], buffer := [], past := 0, ran := {}, recompute := false, testAsked := true })
  let n := (n.raiseFault (penPage d) 2 detail k).irq (penPage d) 1
  if e.state = .active ∧ (n.engine d 8).state = .spare ∧ (n.die d).spareFor = none ∧ k ≠ 8 then
    n.modDie d (fun s => { s with spareFor := some k, rerun := if e.late then none else e.item.map (fun i => (i, e.ops)) })
  else
    let slot := if k = 8 then (n.die d).spareFor else some k
    let n := if k = 8 then n.modDie d (fun s => { s with spareFor := none, rerun := none }) else n
    match slot with
    | some x => n.loseSlot d x
    | none => n

/-- A residue mismatch (R115): the item is aborted; a suspect engine is retired, and another recomputes it from its start. -/
def mismatch (n : Node) (d k lane stage : Nat) : Node :=
  let e := n.engine d k
  match e.item with
  | none => n
  | some item =>
    let p := penPage d
    let w : Word := BitVec.ofNat 32 (2 ^ 31 + k % 16 * 2 ^ 24 + lane % 4 * 2 ^ 22 + stage % 4 * 2 ^ 20 + item % 2 ^ 16)
    let n := (n.bump p Fld.penCheckMismatch).irq p 0
    let n := if n.flag p Fld.penMmcapValid then n else n.setReg p 0x04C w
    if e.suspect then n.retireEngine d k w
    else
      let n := n.modEngine d k (fun e => { e with suspect := true, testAsked := true, mismatch := w })
      let n := { n with cas := { n.cas with recomputed := (d, k) :: n.cas.recomputed } }
      n.startItem d k e.slot item e.ops true

/-- One injected mismatch (PEN.INJECT), whose lane and stage the spec leaves open. -/
def injected (n : Node) (d k : Nat) : Node :=
  let (w, n) := n.fresh
  let n := n.modEngine d k (fun e => { e with inject := e.inject - 1 })
  n.mismatch d k (w.toNat % 4) (w.toNat / 4 % 4)

/-- Read-only registers of PEN: MAP and SUSPECT. Until its takeover engine 8 shows as SPARE, and SPARE_FOR as 0xF (DESIGN CHOICE,
notes/assumptions/164.md). -/
def penView (n : Node) (d off : Nat) : Word :=
  let es := n.die d
  let idxs := List.range 9
  if off = 0x040 then
    let code := fun (k : Nat) => match (n.engine d k).state with
      | .active => 0 | .spare => 1 | .standingIn => 2 | .retired => 3
    let map := (idxs.map (fun k => code k * 4 ^ k)).sum
    let stand := if (n.engine d 8).state = .standingIn then es.spareFor.getD 15 else 15
    BitVec.ofNat 32 (stand % 16 * 2 ^ 20 + map)
  else if off = 0x044 then
    BitVec.ofNat 32 ((idxs.map (fun k => if (n.engine d k).suspect then 2 ^ k else 0)).sum)
  else 0

/-- KiB of a die's Fen that the compiler may allocate: banks 2 to 23 that are not retired (R119, R120). -/
def fenKibFree (n : Node) (d : Nat) : Nat :=
  512 * ((List.range 22).filter (fun b => !(n.die d).retiredBanks.getLsbD (b + 2))).length

/-- Read-only registers of FEN: RETIRED and USE (R119, R120). -/
def fenView (n : Node) (d off : Nat) : Word :=
  let st := n.die d
  if off = 0x048 then st.retiredBanks.setWidth 32
  else if off = 0x04C then
    if !n.rt.inForce then 0
    else
      let used := Graph.fenKibOf n.rt.cfg d
      BitVec.ofNat 32 ((n.fenKibFree d - used) % 2 ^ 14 * 2 ^ 16 + (1024 + used) % 2 ^ 14)
  else 0

/-- Links of a Lintel node: 0 to 5 the engine dies, 6 the drive die. -/
def link (n : Node) (node l : Nat) : Link := ((n.die node).links[l]?).getD {}
def modLink (n : Node) (node l : Nat) (f : Link → Link) : Node :=
  n.modDie node (fun s => { s with links := s.links.modify l f })

/-- Status of a link as LNK.STAT and SNS.LNK code it. -/
def linkCode (l : Link) : Nat :=
  (if l.trained && !l.down && !l.training then 1 else 0) + (if l.narrow then 2 else 0) + (if l.training then 4 else 0)
  + (if l.down then 8 else 0)

/-- Read-only registers of LNK: STAT, LANES0 and LANES1. -/
def lnkView (n : Node) (d off : Nat) : Word :=
  if off = 0x040 then BitVec.ofNat 32 (linkCode (n.link d 1) * 256 + linkCode (n.link d 0))
  else if off = 0x04C then (n.link d 0).lanes
  else if off = 0x050 then (n.link d 1).lanes
  else 0

/-- SNS.LNK. -/
def snsLinkView (n : Node) : Word := BitVec.ofNat 32 (linkCode (n.link 6 1) * 256 + linkCode (n.link 6 0))

/-- The page that reports a Lintel node's links (R122 to R124). -/
def linkPage (node : Nat) : Page := if node < 6 then lnkPage node else ⟨.sns, 0⟩

end Node

namespace Node

/-- The next item of a slot's schedule (R110): the first that is neither complete nor aborted. -/
def nextItem (n : Node) (d slot : Nat) : Option Sched :=
  (n.schedule d slot).find? (fun x => !n.cas.done.contains (d, slot, x.num) && !n.itemAborted d slot x.num)

/-- Bytes of a DRAM-class ring (R145). -/
def dramRing : Nat := 263168

/-- The new block of a long delay line goes to its DRAM ring after its item (R146). A burst whose last byte is written holds
fresh data (R157) (DEDUCED, notes/assumptions/173.md). -/
def ringBlock (n : Node) (s : Sys2Proof.StripCfg) : Node :=
  (List.range n.s).foldl (fun m t =>
    let pos := s.ring + 4 * (m.mediaSample t % dramRing)
    let w := m.rdBytes (fenAddr s.die (s.fenRing + 4 * (m.mediaSample t % 64))) 4
    let m := m.wrBytes (dramBase + pos) w
    if pos % 64 = 60 then { m with dram := { m.dram with poisoned := m.dram.poisoned.filter (fun b => decide (b ≠ (dramBase + pos) / 64)) } } else m) n

/-- Likewise for the DRAM-class strips of an item. -/
def ringBlocks (n : Node) (d slot item : Nat) : Node :=
  match (n.schedule d slot).find? (fun x => decide (x.num = item)) with
  | none => n
  | some x => x.item.outs.foldl (fun m k => match Graph.stripAt x.cfg k with
      | some s => if s.dram then m.ringBlock s else m
      | none => m) n

/-- Sample number `m` of the media grid as the DRAM ring of a strip holds it, and whether its word is poisoned. -/
def ringSample (n : Node) (s : Sys2Proof.StripCfg) (m : Int) : Word × Bool :=
  let a := dramBase + s.ring + 4 * (m % (dramRing : Nat)).toNat
  (n.rdWord a, n.dram.poisoned.contains (a / 64))

/-- `k` samples of a read window from sample `m` on, the first at Fen offset `off`; the strip reads the samples `reads` of it. One from a
poisoned word is replaced by the last good one read before it, held (R157). The answer names the samples read that were poisoned. -/
def fetchWindow (n : Node) (kind : Nat) (s : Sys2Proof.StripCfg) (reads : List Int) (off : Nat) (m : Int) : Nat → Node × List Int
  | 0 => (n, [])
  | k + 1 =>
    let (w, bad) := n.ringSample s m
    let v := if bad then (n.strip kind s.num).lastRead else w
    let n := if reads.contains m && !bad then n.modStrip kind s.num (fun st => { st with lastRead := w }) else n
    let (n, more) := (n.fenWrite s.die off (leBytes v.toNat 4)).fetchWindow kind s reads (off + 4) (m + 1) k
    (n, if reads.contains m && bad then m :: more else more)

/-- A strip has read poisoned words at these samples of the casement. -/
def muteReads (n : Node) (kind : Nat) (s : Sys2Proof.StripCfg) (ts : List Nat) : Node :=
  match ts with
  | [] => n
  | t :: ts => n.poisonMute s.die kind s.num (ts.foldl Nat.min t) (ts.foldl Nat.max t)

/-- The samples of the casement at which a strip reads words of a burst. -/
def burstReads (n : Node) (s : Sys2Proof.StripCfg) (a : Nat) : List Nat :=
  ((n.windowReads s (n.strip 3 s.num)).filter (fun r =>
    decide ((dramBase + s.ring + 4 * (r.2.2 % ((dramRing : Nat) : Int)).toNat) / 64 = a / 64))).map (·.1)

/-- The read window of a strip, S + 8 samples of its DRAM ring, arrives in Fen, and with it the window of the new position of a
jump (R146). Poisoned words that the strip reads mute it from the first such sample on (R157). -/
def fetchStrip (n : Node) (kind : Nat) (s : Sys2Proof.StripCfg) : Node :=
  let st := n.strip kind s.num
  let b : Int := (n.mediaSample 0 : Nat)
  let all := n.windowReads s st
  let of := fun (jumpTo : Bool) => (all.filter (fun r => decide (r.2.1 = jumpTo))).map (·.2.2)
  let (n, bad) := n.fetchWindow kind s (of false) s.window (b - (n.windowAge st false : Nat)) (n.s + 8)
  let (n, bad2) := if st.mode = .jumping ∨ st.mode = .heldTarget then
      n.fetchWindow kind s (of true) s.window2 (b - (n.windowAge st true : Nat)) (n.s + 8)
    else (n, [])
  let n := { n with cas := { n.cas with fetched := n.cas.fetched ++ [if 4 < kind then 4096 + s.num else s.num] } }
  n.muteReads kind s ((all.filter (fun r => (if r.2.1 then bad2 else bad).contains r.2.2)).map (·.1))

end Node

/-- DELAY_PREFETCH_ARRIVAL (R146): for a strip of the die, and for its old instance in a transition. -/
def prefetchArrives (n : Node) (d idx : Nat) : Node :=
  if !n.running then n
  else
    let mine := fun (s : Option Sys2Proof.StripCfg) => s.filter (fun s => decide (s.die = d) && s.dram)
    let n := match mine (n.stripOf idx) with
      | some s => n.fetchStrip 3 s
      | none => n
    match mine (Graph.stripAt n.rt.old idx) with
    | some s => if n.oldRuns (2, idx) then n.fetchStrip 7 s else n
    | none => n

def execDelayPrefetchArrival (die : Die) (strip : Nat) (s : State) : Host.Outcome State Fault Refusal :=
  s.hub (fun n => prefetchArrives n die strip)

/-- WORK_ITEM_START (R52, R110, R114): the slot's engine runs the item, if it is the next of the slot's schedule and its inputs
are in Fen; an engine that waits for an input runs no later item meanwhile. Injected mismatches strike it (PEN.INJECT). -/
def workItemStart (n : Node) (d slot item : Nat) : Node :=
  match n.engineOf d slot, n.nextItem d slot with
  | some k, some x =>
    if !n.running || n.cas.deadlinePassed || (n.engine d k).item.isSome || n.rt.lostSlots.contains (d * 8 + slot)
        || !n.boot.engPresent.getLsbD d || decide (x.num ≠ item) || (n.firstUnmet x).isSome then n
    else
      let n := n.startItem d k slot item (n.itemOps x) false
      let c := (n.engine d k).inject
      let n := if c = 0 then n else n.injected d k
      if c ≤ 1 then n else n.injected d k
  | _, _ => n

def execWorkItemStart (die : Die) (slot : Fin 8) (item : Nat) (s : State) : Host.Outcome State Fault Refusal :=
  s.hub (fun n => workItemStart n.openWindow die slot item)

/-- WORK_ITEM_COMPLETE (R114, R115): the write-back buffer reaches Fen, and the new blocks of long delay lines go to DRAM (R146);
a clean recompute raises corrected code 0x01. An item that completes after the work deadline writes nothing. -/
def workItemComplete (n : Node) (d slot : Nat) : Node :=
  match n.engineOf d slot with
  | none => n
  | some k =>
    let e := n.engine d k
    let idle := fun (m : Node) => m.modEngine d k (fun e => { e with item := none, ops := [], buffer := [], past := 0, ran := {}, recompute := false, late := false })
    match e.item with
    | none => n
    | some item =>
      if e.late || n.cas.deadlinePassed then idle n
      else
      let n := e.buffer.reverse.foldl (fun m c => m.fenWrite d c.1 [c.2]) n
      let n := idle n
      let n := { n with cas := { n.cas with done := n.cas.done ++ [(d, slot, item)] } }
      let n := n.ringBlocks d slot item
      if e.recompute then (n.bump (penPage d) Fld.penCheckRecomputed).raiseFault (penPage d) 1 e.mismatch k else n

def execWorkItemComplete (die : Die) (slot : Fin 8) (s : State) : Host.Outcome State Fault Refusal :=
  s.hub (fun n => workItemComplete n die slot)

/-- RESIDUE_MISMATCH (R113, R115, R116): the datapath of the slot's engine is off by `err` in check number `op` of the item that
it runs, at a stage. The check unit sees it unless `err` is a multiple of 3; an error that it does not see, or an operation
that the item does not make, leaves the item to its results. -/
def residueMismatch (n : Node) (d slot lane stage op : Nat) (err : Int) : Node :=
  match n.engineOf d slot with
  | none => n
  | some k =>
    let e := n.engine d k
    if e.item.isNone then n
    else
      let r := (e.ops.drop e.past).foldl (fun r op => n.runOp d r op) { e.ran with flaw := some (op, stage, err) }
      if r.agree then n.modEngine d k (fun e => { e with buffer := if e.late then [] else r.buffer })
      else n.mismatch d k lane stage

def execResidueMismatch (die : Die) (slot : Fin 8) (lane : Fin 4) (stage : Fin 4) (op : Nat) (err : Int) (s : State) :
    Host.Outcome State Fault Refusal :=
  s.hub (fun n => residueMismatch n die slot lane stage op err)

/-- The idle spare is retired (R118): the die has no spare. -/
def Node.retireSpare (n : Node) (d : Nat) : Node :=
  let p := penPage d
  let n := n.modEngine d 8 (fun e => { e with state := .retired })
  let (w, n) := n.fresh
  n.raiseFault p 3 ((w &&& 0x00F0FFFF) ||| BitVec.ofNat 32 (2 ^ 31 + 8 * 2 ^ 24)) 8 true

/-- ENGINE_SELF_TEST_END (R116 to R118): the self-test slice does not run in a casement whose reserve a recompute has used (R55). A pass ends the suspicion; a failure retires the engine, or the idle spare. The lane,
stage and item of a fault that no mismatch caused are not stated. -/
def engineTestEnd (n : Node) (d k : Nat) (pass : Bool) : Node :=
  let p := penPage d
  let e := n.engine d k
  if n.running ∧ (d, k) ∈ n.cas.recomputed then n
  else
  let n := n.modEngine d k (fun e => { e with testAsked := false })
  let lf := n.fld p Fld.penStestLastFail
  if pass then
    let n := n.setFld p Fld.penStestLastFail (lf &&& (511 - 2 ^ k))
    (n.modEngine d k (fun e => { e with suspect := false })).testResult p k 2
  else
    let n := (n.setFld p Fld.penStestLastFail (lf ||| 2 ^ k)).irq p 3
    let n := n.testResult p k 3
    if e.state = .active ∨ e.state = .standingIn then
      let (w, n) := n.fresh
      n.retireEngine d k ((w &&& 0x00F0FFFF) ||| BitVec.ofNat 32 (2 ^ 31 + k * 2 ^ 24))
    else if e.state = .spare ∧ (n.die d).spareFor = none then n.retireSpare d
    else n

def execEngineSelfTestEnd (die : Die) (engine : Fin 9) (pass : Bool) (s : State) : Host.Outcome State Fault Refusal :=
  s.hub (fun n => engineTestEnd n die engine pass)

/-- SPARE_TAKEOVER (R117): the spare has loaded the schedule and reruns the interrupted item. What the rerun saturates or clips
counts again, unlike in a recompute (DESIGN CHOICE, notes/assumptions/188.md). -/
def spareTakeover (n : Node) (d : Nat) : Node :=
  match (n.die d).spareFor with
  | none => n
  | some slot =>
    if (n.engine d 8).state = .spare then
      let rerun := (n.die d).rerun
      let n := n.modEngine d 8 (fun e => { e with state := .standingIn })
      let n := n.modDie d (fun s => { s with rerun := none })
      match rerun with
      | some (item, ops) => if n.running && !n.cas.deadlinePassed then n.startItem d 8 slot item ops false else n
      | none => n
    else n

def execSpareTakeover (die : Die) (s : State) : Host.Outcome State Fault Refusal :=
  s.hub (fun n => spareTakeover n.openWindow die)

/-- SPARE_VECTOR_FAIL (R118): the idle spare is retired, and the die has no spare. -/
def spareVectorFail (n : Node) (d : Nat) : Node :=
  if (n.engine d 8).state = .spare ∧ (n.die d).spareFor = none then
    let p := penPage d
    ((n.setFld p Fld.penStestLastFail (n.fld p Fld.penStestLastFail ||| 256)).irq p 3).retireSpare d
  else n

def execSpareVectorFail (die : Die) (s : State) : Host.Outcome State Fault Refusal :=
  s.hub (fun n => spareVectorFail n die)

/-- FEN_ECC_ERROR (R120): an item that has still to read the poisoned word aborts. -/
def fenEcc (n : Node) (d off : Nat) (bad : Bool) : Node :=
  let p := fenPage d
  let off := off / 8 * 8
  let bank := off / 0x80000
  if 24 ≤ bank ∨ !n.boot.engPresent.getLsbD d then n
  else
    let w : Word := BitVec.ofNat 32 (2 ^ 31 + (if bad then 2 ^ 30 else 0) + bank * 2 ^ 24 + off % 0x80000)
    let n := if n.flag p Fld.fenEcccapValid then n else n.setReg p 0x044 w
    let gone := (n.die d).retiredBanks.getLsbD bank
    if bad then
      let before := n
      let n := (n.bump p Fld.fenEccUncorrected).irq p 0
      let n := n.modDie d (fun s => { s with poisoned := if s.poisoned.contains off then s.poisoned else off :: s.poisoned })
      (n.raiseFault p 2 w bank gone).rerunItems before d
    else (n.bump p Fld.fenEccCorrected).raiseFault p 1 w bank gone

def execFenEccError (die : Die) (off : Nat) (uncorrectable : Bool) (s : State) : Host.Outcome State Fault Refusal :=
  s.hub (fun n => fenEcc n die off uncorrectable)

/-- The configuration's copy of a byte of Fen (R120): of the coefficients and taps that it gives, in both banks, if it holds
the byte. -/
def Node.fenCopy (n : Node) (d off : Nat) : Option Byte :=
  let from_ := fun (base : Nat) (ws : List Word) =>
    if base ≤ off then (ws.flatMap (fun (w : Word) => Node.leBytes w.toNat 4))[off - base]? else none
  let two := fun (b : Option BankCfg) (ws : List Word) => match b with
    | some b => if b.die = d then (from_ b.loc0 (ws.take (b.size / 4))).or (from_ b.loc1 (ws.take (b.size / 4))) else none
    | none => none
  (n.rt.cfg.coeffs.findSome? (fun e => two (n.block e.1 e.2.1) e.2.2)).or
    (n.rt.cfg.taps.findSome? (fun e => two (n.chain e.1) e.2))

/-- FEN_POISON_REWRITE (R120): while the management cores run, the compiler writes its copy of the word, or zero to one that the
configuration does not give. -/
def fenRewrite (n : Node) (d off : Nat) : Node :=
  let off := off / 8 * 8
  if n.mgmt.running ∧ (n.die d).poisoned.contains off then
    n.fenWrite d off ((List.range 8).map (fun k => (n.fenCopy d (off + k)).getD 0))
  else n

def execFenPoisonRewrite (die : Die) (off : Nat) (s : State) : Host.Outcome State Fault Refusal :=
  s.hub (fun n => fenRewrite n die off)

/-- FEN_BANK_MARCH_END (R120): a lasting result retires the bank, and the configuration is re-admitted without it. -/
def fenMarchEnd (n : Node) (d bank : Nat) (pass : Bool) : Node :=
  let p := fenPage d
  let n := n.testResult p bank (if pass then 2 else 3)
  if pass || (n.die d).retiredBanks.getLsbD bank then n
  else
    let n := (n.modDie d (fun s => { s with retiredBanks := s.retiredBanks ||| (1#24 <<< bank) })).irq p 1
    let (w, n) := n.fresh
    (n.raiseFault p 3 ((w &&& 0x4007FFF8) ||| BitVec.ofNat 32 (2 ^ 31 + bank * 2 ^ 24)) bank true).capacityLost

def execFenBankMarchEnd (die : Die) (bank : Fin 24) (pass : Bool) (s : State) : Host.Outcome State Fault Refusal :=
  s.hub (fun n => fenMarchEnd n die bank pass)

/-- LINK_CRC_ERROR (R123): one error, and the flits replayed, at most the 64 of the replay buffer. -/
def linkCrcError (n : Node) (node l flits : Nat) : Node :=
  let flits := Nat.min flits 64
  if node = 6 then
    let n := (n.bump ⟨.sns, 0⟩ Fld.snsLnkerrCrcerr).bump ⟨.sns, 0⟩ Fld.snsLnkerrReplay flits
    (n.modLink 6 l (fun k => { k with replaying := true })).raiseFault ⟨.sns, 0⟩ 1 0 l
  else
    let p := lnkPage node
    let n := n.bump p (if l = 0 then Fld.lnkCrcerrLink0 else Fld.lnkCrcerrLink1)
    let n := n.bump p (if l = 0 then Fld.lnkReplayLink0 else Fld.lnkReplayLink1) flits
    ((n.modLink node l (fun k => { k with replaying := true })).irq p 0).raiseFault p 1 0 l

def execLinkCrcError (node : Fin 7) (link : Fin 2) (flits : Nat) (s : State) : Host.Outcome State Fault Refusal :=
  s.hub (fun n => linkCrcError n node link flits)

/-- LINK_REPLAY_COMPLETE (R123). -/
def execLinkReplayComplete (node : Fin 7) (link : Fin 2) (s : State) : Host.Outcome State Fault Refusal :=
  s.hub (fun n => n.modLink node link (fun k => { k with replaying := false }))

/-- LINK_LANE_TEST_END (R123, R124): lanes that show errors have a lasting fault, and the link retrains. -/
def laneTestEnd (n : Node) (node l : Nat) (bad : Word) : Node :=
  let n := n.testResult (Node.linkPage node) l (if bad = 0 then 2 else 3)
  if bad = 0 then n
  else n.modLink node l (fun k => { k with lanes := k.lanes ||| bad, training := !k.down })

def execLinkLaneTestEnd (node : Fin 7) (link : Fin 2) (bad : Word) (s : State) : Host.Outcome State Fault Refusal :=
  s.hub (fun n => laneTestEnd n node link bad)

/-- LINK_RETRAIN_COMPLETE (R124): lanes that fail the training count as failed; the link runs on the half that has no failed
lane, or is down. With both links of an engine die down, every slot of the die is lost. -/
def linkRetrained (n : Node) (node l : Nat) (failed : Word) : Node :=
  let n := if (n.link node l).training then n.modLink node l (fun k => { k with lanes := k.lanes ||| failed, trained := true }) else n
  let k := n.link node l
  if !k.training then n
  else
    let p := Node.linkPage node
    let low := decide (k.lanes.toNat % 65536 ≠ 0)
    let high := decide (k.lanes.toNat / 65536 ≠ 0)
    if low && high then
      let n := (n.modLink node l (fun k => { k with training := false, replaying := false, narrow := false, down := true }))
      let n := (n.irq p (if node = 6 then 1 else 2)).raiseFault p 3 0 l true
      let n := n.capacityLost
      if node ≠ 6 ∧ (n.link node 0).down ∧ (n.link node 1).down then
        (List.range 8).foldl (fun m slot => m.loseSlot node slot) n
      else n
    else if low || high then
      let n := n.modLink node l (fun k => { k with training := false, replaying := false, narrow := true })
      ((n.irq p 1).raiseFault p 2 0 l).capacityLost
    else n.modLink node l (fun k => { k with training := false })

def execLinkRetrainComplete (node : Fin 7) (link : Fin 2) (failed : Word) (s : State) : Host.Outcome State Fault Refusal :=
  s.hub (fun n => linkRetrained n node link failed)

/-- The 12-byte words of a partial sum whose residue agrees (R125). -/
def psumOk : List Byte → Bool
  | a :: b :: c :: d :: e :: f :: g :: h :: i :: r :: _ :: _ :: rest =>
    decide ((bytesInt [a, b, c, d, e, f, g, h, i]) % 3 = r.toNat % 4) && psumOk rest
  | [] => true
  | _ => false

/-- A word of a partial sum as a link carries it (R125): the sum, its residue modulo 3, and zeros. -/
def psumWord (bs : List Byte) : List Byte :=
  bs.take 9 ++ [BitVec.ofInt 8 (bytesInt (bs.take 9) % 3), 0, 0]

/-- A flaw in a transferred partial sum: bits of word `w` come inverted. -/
def flawed (bs : List Byte) (flaw : Option (Nat × Nat)) : List Byte :=
  match flaw with
  | none => bs
  | some (w, x) => (bs.zipIdx).map (fun e => if 12 * w ≤ e.2 ∧ e.2 < 12 * w + 12 then e.1 ^^^ BitVec.ofNat 8 (x / 256 ^ (e.2 - 12 * w)) else e.1)

namespace Node

/-- What a transfer to a die carries, and where it goes in the die's Fen (R12, R52): the input block of a source, a block from
the die that holds its strip, or the partial sums that an item of another die has left. -/
def transferData (n : Node) (d : Nat) (lintel : Lintel) : Option (Nat × List Byte) :=
  let (old, what) := Graph.plainLintel lintel
  let c := if old then n.rt.old else n.rt.cfg
  match what with
  | .input k => match Graph.sourceAt c k with
    | some s => if s.die = d then
        some (Graph.blockAt c d 0 k, (Sparse.get (fun _ => []) n.io.inputs (if old then 4096 + k else k)).flatMap (fun (w : Word) => leBytes w.toNat 4))
      else none
    | none => none
  | .block kind num => match Graph.dieOf c (kind - 1, num) with
    | some h => if h = d then none
        else some (Graph.blockAt c d kind num, n.rdBytes (fenAddr h (Graph.blockAt c h kind num)) (4 * n.s))
    | none => none
  | .psum b src slot item =>
    let at_ := fun (x : Nat) => c.psums.find? (fun (p : PsumCfg) =>
      decide (p.bus = b ∧ p.src = src ∧ p.slot = slot ∧ p.item = item ∧ p.die = x))
    match at_ src, at_ d with
    | some p, some q => if src = d then none
        else some (q.off, (List.range n.s).flatMap (fun t => psumWord (n.rdBytes (fenAddr src (p.off + 12 * t)) 12)))
    | _, _ => none

/-- The link of a die on which a transfer arrives, as the compiler has placed it (R122). -/
def transferLink (n : Node) (d : Nat) (lintel : Lintel) : Nat :=
  let (old, what) := Graph.plainLintel lintel
  let c := if old then n.rt.old else n.rt.cfg
  let block := fun (kind num : Nat) =>
    ((c.blocks.find? (fun (b : BlockCfg) => decide (b.die = d ∧ b.kind = kind ∧ b.num = num))).map (·.link)).getD 0
  match what with
  | .input k => block 0 k
  | .block kind num => block kind num
  | .psum b src slot item => ((c.psums.find? (fun (p : PsumCfg) =>
      decide (p.bus = b ∧ p.src = src ∧ p.slot = slot ∧ p.item = item ∧ p.die = d))).map (·.link)).getD 0

/-- The item that computes what a transfer carries, by die, slot and number; an input block has none. -/
def sender (n : Node) (lintel : Lintel) : Option (Nat × Nat × Nat) :=
  let (old, what) := Graph.plainLintel lintel
  let num := fun (i : Nat) => if old then oldItems + i else i
  match what with
  | .input _ => none
  | .block kind b => (Graph.itemOf (if old then n.rt.old else n.rt.cfg) (kind - 1, b)).map (fun i => (i.die, i.slot, num i.item))
  | .psum _ src slot item => some (src, slot, num item)

/-- The sending die has what the transfer carries: the casement has computed it. -/
def transferReady (n : Node) (what : Lintel) : Bool :=
  match what, n.sender what with
  | .input _, _ => true
  | _, some x => n.cas.done.contains x
  | _, none => false

/-- The item that a partial sum of a bus goes into. -/
def busItem (n : Node) (b : Nat) : Option (Nat × Nat) :=
  (Graph.itemOf (if 1024 ≤ b then n.rt.old else n.rt.cfg) (1, b % 1024)).map (fun i => (i.slot, if 1024 ≤ b then oldItems + i.item else i.item))

end Node

/-- LINTEL_TRANSFER_ARRIVAL (R122, R125): a block or partial sum arrives in Fen, on the link that the compiler gave it, where that
is up, in flits of 240 bytes
(DESIGN CHOICE, notes/assumptions/179.md). A partial sum whose residue disagrees makes its bus item unfinished. -/
def transferArrives (n : Node) (die : Die) (l : Nat) (what : Lintel) (flaw : Option (Nat × Nat)) : Node :=
  if !n.running || !n.rt.inForce || (n.link die l).down || (n.link die l).training || decide (n.transferLink die what ≠ l) || !n.transferReady what || n.cas.arrived.contains (die.val, what) then n
  else match n.transferData die what with
    | none => n
    | some (off, bs) =>
      let psum := match what with | .psum _ _ _ _ => true | _ => false
      let bs := if psum then flawed bs flaw else bs
      let n := n.fenWrite die off bs
      let n := n.modLink die l (fun k => { k with seq := k.seq + BitVec.ofNat 12 ((bs.length + 239) / 240) })
      match what with
      | .psum b _ _ _ =>
        if psumOk bs then { n with cas := { n.cas with arrived := n.cas.arrived ++ [(die.val, what)] } }
        else
          let (slot, item) := (n.busItem b).getD (0, 0)
          let u : Unfinished := ⟨die, (n.engineOf die slot).getD slot, item, false⟩
          ({ n with cas := { n.cas with aborted := n.cas.aborted ++ [(slot, u)] } }).raiseFault (lnkPage die) 4 0 l
      | _ => { n with cas := { n.cas with arrived := n.cas.arrived ++ [(die.val, what)] } }

def execLintelTransferArrival (die : Die) (link : Fin 2) (what : Lintel) (flaw : Option (Nat × Nat)) (s : State) :
    Host.Outcome State Fault Refusal :=
  s.hub (fun n => transferArrives n die link what flaw)

end Sys2Proof.Machine
end

