-- ==== Sys2Proof/Machine/Streams.lean ====
section
/-! DEFINITION. Network streams and the Sluice (R185 to R204): subscriptions, the packets of each casement, arrival, slots
and their deadlines, and Sluice SRAM errors. -/

namespace Sys2Proof.Machine

open Sys2Proof (Word Byte Sparse Page Block Die Port Src InputId SinkId RxStreamCfg TxStreamCfg StreamPacket BoundaryIn)

def strPage : Page := ⟨.str, 0⟩
def sluPage : Page := ⟨.slu, 0⟩
def macPage (k : Nat) : Page := ⟨.mac, k⟩

/-- First address of Sluice SRAM (R26). -/
def sluiceBase : Nat := 0x20000000

/-- Ports of a stream, first port first (R187). -/
def streamPorts (dual : Bool) (port : Nat) : List Nat := if dual then [port / 2 * 2, port / 2 * 2 + 1] else [port]

/-- Bit `i` of a mask is set. -/
def lowMask (lo k : Nat) : Nat := (2 ^ k - 1) * 2 ^ lo

namespace Node

/-- A MAC beside its registers. -/
def mac (n : Node) (k : Nat) : MacSt := Sparse.get (fun _ => {}) n.macs k
def setMac (n : Node) (k : Nat) (m : MacSt) : Node := { n with macs := Sparse.set (fun _ => {}) n.macs k m }
def modMac (n : Node) (k : Nat) (f : MacSt → MacSt) : Node := n.setMac k (f (n.mac k))

/-- The stream engine may use a port: the MAC is Active, and its link is up (R194, R220)
(DEDUCED, notes/assumptions/85.md). -/
def portSends (n : Node) (k : Nat) : Bool :=
  (n.hdr (macPage k)).active && (n.mac k).link && !(n.mac k).retired && !(n.mac k).idle

/-- A receive stream of the configuration in force, and a transmit stream. -/
def rxCfg (n : Node) (k : Nat) : Option RxStreamCfg :=
  if n.rt.inForce then n.rt.cfg.rx.find? (fun r => decide (r.num = k)) else none
def txCfg (n : Node) (k : Nat) : Option TxStreamCfg :=
  if n.rt.inForce then n.rt.cfg.tx.find? (fun r => decide (r.num = k)) else none

def rxs (n : Node) (k : Nat) : RxStream := Sparse.get (fun _ => {}) n.str.rx k
def setRx (n : Node) (k : Nat) (r : RxStream) : Node :=
  { n with str := { n.str with rx := Sparse.set (fun _ => {}) n.str.rx k r } }
def modRx (n : Node) (k : Nat) (f : RxStream → RxStream) : Node := n.setRx k (f (n.rxs k))
def txs (n : Node) (k : Nat) : TxStream := Sparse.get (fun _ => {}) n.str.tx k
def setTx (n : Node) (k : Nat) (t : TxStream) : Node :=
  { n with str := { n.str with tx := Sparse.set (fun _ => {}) n.str.tx k t } }

/-- Samples per casement of a stream before any rate conversion (R197). -/
def streamS (n : Node) (r : RxStreamCfg) : Nat := if r.interop then 6 else n.s

/-- A receive stream starts in WAITING with its slots empty and its sources at silence (R202). -/
def startStream (n : Node) (k : Nat) : Node :=
  (n.modRx k (fun r => { r with state := if r.state = .incompatible then .incompatible else .waiting, slots := [], healthy := 0 })).holdInput ⟨0, k⟩

/-- Every receive stream after a re-index (R202). -/
def restartStreams (n : Node) : Node := n.rt.cfg.rx.foldl (fun m r => m.startStream r.num) n

/-- The highest version common to every current subscriber (R190); the version in force where there is none
(DEDUCED, notes/assumptions/86.md). -/
def commonVersion (t : TxStream) : Nat :=
  if t.subscribers.isEmpty then t.version
  else if t.subscribers.all (fun e => decide (e.2.1 ≤ 2 ∧ 2 ≤ e.2.2)) then 2
  else if t.subscribers.all (fun e => decide (e.2.1 ≤ 1 ∧ 1 ≤ e.2.2)) then 1
  else t.version

/-- A number of samples of silence. -/
def silence (k : Nat) : List Word := List.replicate k 0

/-- Key of a sink's blocks. -/
def sinkKey (s : SinkId) : Nat := s.kind * 16384 + s.num

/-- Sample `i` of the block that a transmit channel's sink plays out in this casement (R186); silence where there is none. -/
def outSample (n : Node) (ch i : Nat) : Word :=
  mulGain ((Sparse.get (fun _ => []) n.io.outs (sinkKey ⟨0, ch⟩)).getD i 0) (gainOf (n.shut (sinkShut ⟨0, ch⟩)) i)

/-- The block of a transmit channel of an interop stream at 48 kHz: the sink's own block, or what the decimator makes of it,
whose results the spec does not state (R192). -/
def wireBlock (n : Node) (ch : Nat) : List Word × Node :=
  if n.s = 6 then ((List.range 6).map (n.outSample ch), n)
  else (List.range 6).foldl (fun a _ => let (w, m) := a.2.fresh; (a.1 ++ [w], m)) ([], n)

/-- Q1.31 converted to L24 with the rounding and saturation of R112 (R191). -/
def toL24 (w : Word) : Nat := (BitVec.ofInt 24 (min (2 ^ 23 - 1) ((w.toInt + 128) / 256))).toNat

/-- A number as `k` bytes, most significant first. -/
def beBytes (v k : Nat) : List Byte := (List.range k).map (fun i => BitVec.ofNat 8 (v / 256 ^ (k - 1 - i)))

/-- Header and samples of a Ranori packet of casement `t` (R188). -/
def ranoriPayload (n : Node) (c : TxStreamCfg) (version seq t : Nat) : List Byte :=
  let body := (List.range n.s).flatMap (fun i => (List.range c.channels).flatMap (fun k => beBytes (n.outSample (c.first + k) i).toNat 4))
  beBytes (version * 2 ^ 28 + n.rate % 8 * 2 ^ 16 + c.channels % 256) 4 ++ beBytes (c.eid % 2 ^ 24) 4 ++ beBytes seq 4 ++
  beBytes (t / 2 ^ 32) 4 ++ beBytes t 4 ++
  (if version = 2 then beBytes (n.cfg.eid % 2 ^ 24) 4 ++ beBytes (crc32c body) 4 ++ beBytes 0 4 else []) ++ body

/-- Header and samples of an RTP packet whose first sample is media sample `m` (R191, R192); `blocks` are the 48 kHz samples of
each channel. Its 16-bit sequence number rises by one for every packet (DEDUCED, notes/assumptions/174.md). -/
def rtpPayload (c : TxStreamCfg) (seq m : Nat) (blocks : List (List Word)) : List Byte :=
  [0x80, BitVec.ofNat 8 (c.pt % 128)] ++ beBytes seq 2 ++ beBytes (m + c.rtpOffset) 4 ++ beBytes c.ssrc 4 ++
  (List.range (if c.ptime = 1 then 48 else 6)).flatMap (fun i => blocks.flatMap (fun b => beBytes (toL24 (b.getD i 0)) 3))

/-- CRC-32 of IEEE 802.3 over address bytes, for the hash filter (R209). -/
def hashBit (a : List Byte) : Nat := crc32 a % 256

/-- The station address that frames to a multicast group carry: those that IPv4 and IPv6 give their groups
(PRESUMED, notes/assumptions/180.md). -/
def groupAddr (dst : Nat) : Option (List Byte) :=
  if dst / 2 ^ 28 = 14 then some ([0x01, 0x00, 0x5E] ++ beBytes (dst % 2 ^ 23) 3)
  else if dst / 2 ^ 120 = 255 then some ([0x33, 0x33] ++ beBytes (dst % 2 ^ 32) 4)
  else none

/-- The compiler sets the hash bit of a receive stream's multicast group on the ports that the stream uses (R209). -/
def setHash (n : Node) (r : RxStreamCfg) : Node :=
  match groupAddr r.dstAddr with
  | none => n
  | some a =>
    let h := hashBit a
    (streamPorts r.dual r.port).foldl (fun m k =>
      m.setReg (macPage k) (0x050 + 4 * (h / 32)) (m.reg (macPage k) (0x050 + 4 * (h / 32)) ||| (1#32 <<< (h % 32)))) n

/-- The ones' complement of a sum modulo `m`, with the all-ones form of 0. -/
def onesComplement (m s : Nat) : Nat := if s % m = 0 then m else m - s % m

/-- The UDP checksum over the pseudo-header, the UDP header and the payload (R189); a sum of 0 is sent as 0xFFFF. -/
def udpChecksum (ipv6 : Bool) (src dst sport dport : Nat) (payload : List Byte) : Nat :=
  let a := if ipv6 then 16 else 4
  let len := payload.length + 8
  let bytes := beBytes src a ++ beBytes dst a ++ beBytes len 4 ++ beBytes 17 4 ++ beBytes sport 2 ++ beBytes dport 2 ++ beBytes len 2 ++ beBytes 0 2 ++ payload
  onesComplement 65535 ((bytes.zipIdx).map (fun e => e.1.toNat * (if e.2 % 2 = 0 then 256 else 1))).sum

/-- SEQ of a Ranori stream's packet for casement `t` (R333), and of an RTP packet. -/
def streamSeq (n : Node) (t : Nat) (c : TxStreamCfg) : Nat :=
  if c.interop then (n.txs c.num).seq % 65536 else (t + (n.reg ⟨.hng, 0⟩ 0x074).toNat + c.soff) % 4294967296

/-- The samples of a channel that a 1 ms packet holds before those of casement `t`: the casements before it in the packet, and silence
for one of which the channel has no block (R192) (DESIGN CHOICE, notes/assumptions/199.md). -/
def heldBefore (n : Node) (t ch : Nat) : List Word :=
  let e := Sparse.get (fun _ => ((0, []) : Nat × List Word)) n.str.held ch
  let was := if e.1 + 1 = t then e.2 else []
  silence (t % 8 * 6 - was.length) ++ was.drop (was.length - t % 8 * 6)

/-- The payload of a stream's packet of casement `t`. A 1 ms packet also carries the seven casements before it. -/
def streamPayload (n : Node) (t : Nat) (c : TxStreamCfg) : List Byte × Node :=
  if !c.interop then (n.ranoriPayload c (n.txs c.num).version (n.streamSeq t c) t, n)
  else
    let (blocks, n) := (List.range c.channels).foldl (fun (a : List (List Word) × Node) k =>
      let (b, m) := a.2.wireBlock (c.first + k)
      (a.1 ++ [(if c.ptime = 1 then m.heldBefore t (c.first + k) else []) ++ b], m)) ([], n)
    (rtpPayload c (n.streamSeq t c) ((if c.ptime = 1 then t - 7 else t) * 6) blocks, n)

/-- A 1 ms stream between its packets keeps the casement's blocks (R192). -/
def holdBlocks (n : Node) (t : Nat) (c : TxStreamCfg) : Node :=
  (List.range c.channels).foldl (fun m k =>
    let (b, m) := m.wireBlock (c.first + k)
    { m with str := { m.str with held := Sparse.set (fun _ => (0, [])) m.str.held (c.first + k) (t, m.heldBefore t (c.first + k) ++ b) } }) n

/-- The CRC-32C of the samples of a stream's packet goes into the digests of its casement, with bit 31 for now as the mark that
there is a packet (R334). -/
def noteDigest (n : Node) (k : Nat) (samples : List Byte) : Node :=
  { n with hng := { n.hng with coming := n.hng.coming.map (fun d =>
    { d with streams := d.streams.set k (BitVec.ofNat 32 (crc32c samples) ||| 0x80000000) }) } }

/-- Length of a stream packet's frame with its FCS: Ethernet header, IP, UDP and payload, padded to 64 bytes (R189, R211). -/
def frameLen (ipv6 : Bool) (payload : List Byte) : Nat := Nat.max 64 (18 + (if ipv6 then 40 else 20) + 8 + payload.length)

/-- The stream engine hands an audio-class frame of a length to a port: it goes on the wire when that is free, and otherwise waits in
the audio-class buffer (R193, R210, R213). -/
def handFrame (n : Node) (p len : Nat) : Node :=
  n.modMac p (fun m => { m with audio := m.audio ++ [len], audioOn := m.audioOn || m.sending.isNone })

/-- The packet of a stream for casement `t` (R188 to R194), to the ports that can send, and withheld on the others. A suspect
junior withholds the stream (R335), and a node that resynchronises withholds every stream (R343). -/
def launchStream (n : Node) (t : Nat) (c : TxStreamCfg) : Node :=
  if c.interop ∧ c.ptime = 1 ∧ t % 8 ≠ 7 then n.holdBlocks t c
  else
  let (payload, n) := n.streamPayload t c
  let n := n.noteDigest c.num (payload.drop (if c.interop then 12 else if (n.txs c.num).version = 2 then 32 else 20))
  if n.hng.withheld.contains c.num || n.flag hngPage Fld.hngStatResync then n
  else
    let ports := streamPorts c.dual c.port
    let ok := ports.filter n.portSends
    let n : Node := match ports with
      | p :: rest =>
        let n := if ok.contains p then n else n.bump strPage Fld.strWithheldFirst 1 c.num
        rest.foldl (fun m q => if ok.contains q then m else m.bump strPage Fld.strWithheldSecond 1 c.num) n
      | [] => n
    let seq := n.streamSeq t c
    let n := n.setTx c.num { n.txs c.num with seq := (seq + 1) % 4294967296 }
    if ok.isEmpty then n
    else
      let n := ok.foldl (fun m p => m.handFrame p (frameLen c.ipv6 payload)) (n.bump strPage Fld.strPktsCount 1 c.num)
      let from_ := fun (p : Nat) => c.srcs.getD p 0
      { n with str := { n.str with sent := n.str.sent ++ [{
          stream := c.num, seq := seq, stamp := t, ports := ok.foldl (fun a p => a + 2 ^ p) 0, ipv6 := c.ipv6, dscp := c.dscp,
          ttl := c.ttl, df := !c.ipv6, dst := c.dst, udpSrc := c.udpSrc, udpDst := c.udpDst, payload := payload,
          copies := ok.map (fun p => (p, from_ p, udpChecksum c.ipv6 (from_ p) c.dst c.udpSrc c.udpDst payload)) }] } }

/-- The stream engine at boundary `t`: packets of the last casement that were not handed over are late, versions that
subscriptions changed take effect, and the packets of casement `t` are handed over in ascending stream number. The sinks of 1 ms
streams play on while STR is disabled. -/
def launchStreams (n : Node) (t : Nat) (ev : BoundaryIn) : Node :=
  let on := (n.hdr strPage).active
  let late := on && !ev.lateStreams.isEmpty
  let n := if late then (n.raiseFault strPage 1).irq strPage 1 else n
  let n := { n with hng := { n.hng with coming := some ⟨t, List.replicate 256 0, List.replicate 64 0⟩ } }
  let n := { n with str := { n.str with sent := [], tx := n.str.tx.map (fun (e : Nat × TxStream) =>
    (e.1, { e.2 with version := commonVersion e.2 })) } }
  if !on then (n.rt.cfg.tx.filter (fun c => c.interop && decide (c.ptime = 1 ∧ t % 8 ≠ 7))).foldl (fun m c => m.holdBlocks t c) n
  else
    let n := (List.range 256).foldl (fun m k => (m.rt.cfg.tx.filter (fun c => decide (c.num = k))).foldl (fun m c => m.launchStream t c) m) n
    if n.str.sent.isEmpty then n
    else
      let v := Nat.min (ev.launchNs / 10) 65535
      (n.setFld strPage Fld.strLaunchLast v).peak strPage Fld.strLaunchPeak v

/-- The media sample of an interop packet's first sample (R192): the value nearest to the node's own media count that
agrees with the RTP timestamp. -/
def rtpSample (n : Node) (r : RxStreamCfg) (stamp : Nat) : Nat :=
  let own := n.clk.index * 6
  let res := (stamp + 4294967296 - r.rtpOffset % 4294967296) % 4294967296
  let base := own / 4294967296 * 4294967296 + res
  let dist := fun (m : Nat) => if own ≤ m then m - own else own - m
  let lower := if 4294967296 ≤ base then base - 4294967296 else base
  let best := if dist lower < dist base then lower else base
  if dist (base + 4294967296) < dist best then base + 4294967296 else best

/-- A slot of a stream's ring. -/
def ringSlotOf (r : RxStream) (t : Nat) : Slot := (r.slots.find? (fun s => decide (s.t = t))).getD { t := t }

/-- Change a slot, which exists from then on. -/
def modRingSlot (r : RxStream) (t : Nat) (f : Slot → Slot) : RxStream :=
  { r with slots := f (ringSlotOf r t) :: r.slots.filter (fun s => decide (s.t ≠ t)) }

/-- The samples of a slot that have been written. -/
def slotMask (s : Slot) : Nat := s.wrote.foldl (fun a e => a ||| e.2) 0

/-- Byte offset of a slot in Sluice SRAM (DESIGN CHOICE, notes/assumptions/89.md). -/
def slotOff (n : Node) (r : RxStreamCfg) (t : Nat) : Nat :=
  r.ringBase + t % (r.depth + 2) * (r.channels * n.streamS r * 4)

/-- Write bytes to Sluice SRAM; a 64-bit word written whole is no longer poisoned. -/
def sluiceWrite (n : Node) (off : Nat) (bs : List Byte) : Node :=
  let n := n.wrBytes (sluiceBase + off) bs
  if n.str.poisoned.isEmpty then n
  else { n with str := { n.str with poisoned := n.str.poisoned.filter (fun w => !decide (off ≤ w ∧ w + 8 ≤ off + bs.length)) } }

/-- The result of the checks of R196, in order: 0 good, 1 INVALID, 2 CORRUPT. -/
def packetCheck (n : Node) (r : RxStreamCfg) (p : StreamPacket) : Nat :=
  let place := (streamPorts r.dual r.port).findIdx? (fun q => decide (q = p.port.val))
  match place with
  | none => 1
  | some k =>
    let src := r.srcs.getD k none = some p.src ∨ (r.partner ∧ r.srcs.getD (k + 2) none = some p.src)
    let fmt := if r.interop then
        p.rtp ∧ p.pt = r.pt ∧ (r.ssrc = 0 ∨ p.ssrc = r.ssrc) ∧ p.odd = 0 ∧
          p.samples.length = r.channels * (if r.ptime = 1 then 48 else 6)
      else
        !p.rtp ∧ (p.version = 1 ∨ p.version = 2) ∧ p.rate = n.rate ∧ p.channels = r.channels ∧ p.eid = r.eid ∧
          (p.version = 1 ∨ p.sender = r.senderEid ∨ (r.partner ∧ p.sender = r.partnerEid))
    let crcOk := r.interop ∨ p.version ≠ 2 ∨ p.crc.toNat = crc32c (p.samples.flatMap (fun (w : Word) => beBytes w.toNat 4))
    if ¬src ∨ ¬fmt then 1 else if p.checksOk ∧ crcOk then 0 else 2

/-- An on-time packet meets its slots (R199, R200): a copy with the same SEQ is a DUPLICATE, one that meets samples of
another SEQ is INVALID, and any other is written (DEDUCED, notes/assumptions/88.md). -/
def packetWrite (n : Node) (r : RxStreamCfg) (p : StreamPacket) (m count : Nat) : Node :=
  let s := n.streamS r
  let first := m / s
  let pieces := (List.range ((m + count - 1) / s - first + 1)).map (fun j =>
    let t := first + j
    let lo := if j = 0 then m % s else 0
    let hi := Nat.min s (m + count - t * s)
    (t, lo, hi - lo, t * s + lo - m))
  let st := n.rxs r.num
  let clash := pieces.flatMap (fun e => ((ringSlotOf st e.1).wrote.filter (fun w => decide (w.2 &&& lowMask e.2.1 e.2.2.1 ≠ 0))).map (·.1))
  if clash.any (fun q => decide (q ≠ p.seq)) then
    let n := (n.bump sluPage Fld.sluBog1Invalid 1 r.num).irq sluPage 1
    pieces.foldl (fun m e => m.modRx r.num (fun x => modRingSlot x e.1 (fun z => { z with
      arrived := true, invalid := z.invalid || decide (e.1 + r.depth = m.clk.index + 1) }))) n
  else if !clash.isEmpty then n.bump sluPage Fld.sluBog0Duplicate 1 r.num
  else
    let place := if (streamPorts r.dual r.port).head? = some p.port.val then 0 else 1
    let shift := if r.interop then 256 else 1
    let n := pieces.foldl (fun m e =>
      let words := (p.samples.drop (e.2.2.2 * r.channels)).take (e.2.2.1 * r.channels)
      let m := m.sluiceWrite (m.slotOff r e.1 + e.2.1 * r.channels * 4) (words.flatMap (fun w => leBytes (w.toNat * shift % 4294967296) 4))
      m.modRx r.num (fun x => modRingSlot x e.1 (fun z => { z with
        wrote := (p.seq, lowMask e.2.1 e.2.2.1) :: z.wrote, arrived := true }))) n
    let n := n.modRx r.num (fun x => { x with
      pathsNow := x.pathsNow ||| 2 ^ place, version := if r.interop then x.version else p.version })
    let n := n.bump sluPage (if place = 0 then Fld.sluPathFirst else Fld.sluPathSecond) pieces.length r.num
    if pieces.any (fun e => decide (slotMask (ringSlotOf (n.rxs r.num) e.1) = lowMask 0 s)) then
      let v := Nat.min p.marginUs 65535
      (n.setFld sluPage Fld.sluMarginLastUs v r.num).setFld sluPage Fld.sluMarginMinUs
        (Nat.min v (n.fld sluPage Fld.sluMarginMinUs r.num)) r.num
    else n

/-- A packet that belongs to a stream is checked and sorted by the arrival window (R196, R198)
(DEDUCED, notes/assumptions/87.md). -/
def packetSort (n : Node) (r : RxStreamCfg) (p : StreamPacket) : Node :=
  let s := n.streamS r
  let c := n.clk.index
  let m := if r.interop then n.rtpSample r p.stamp else p.stamp * s
  let count := if r.channels = 0 then 0 else p.samples.length / r.channels
  let t := m / s
  let ts := (List.range ((m + count - 1) / s - t + 1)).map (t + ·)
  let passed := fun (u : Nat) => decide (u + r.depth ≤ c ∨ (u + r.depth = c + 1 ∧ p.afterDeadline))
  let live := fun (u : Nat) => decide (c < u + r.depth + 2)
  let mark := fun (k : Node) (f : Slot → Slot) =>
    (ts.filter live).foldl (fun k u => k.modRx r.num (fun x => modRingSlot x u (fun z => { f z with arrived := true }))) k
  match n.packetCheck r p with
  | 1 =>
    let n := (n.bump sluPage Fld.sluBog1Invalid 1 r.num).irq sluPage 1
    mark n (fun z => if z.t + r.depth = c + 1 ∧ !passed z.t then { z with invalid := true } else z)
  | 2 => mark (n.bump sluPage Fld.sluBog2Corrupt 1 r.num) id
  | _ =>
    if c + 1 < t then mark (n.bump sluPage Fld.sluBog1Early 1 r.num) (fun z => { z with early := true })
    else if passed t then mark (n.bump sluPage Fld.sluBog0Late 1 r.num) id
    else if count = 0 then n
    else n.packetWrite r p m count

/-- A UDP destination port lies in the audio-class range of a MAC (R208). -/
def audioPort (n : Node) (k udp : Nat) : Bool :=
  decide (n.act (macPage k) Fld.macRxclassUdpLo ≤ udp ∧ udp ≤ n.act (macPage k) Fld.macRxclassUdpHi)

/-- A MAC receives frames: it is Active, in service and not stopped for good (R23, R220, R221). -/
def receives (n : Node) (k : Nat) : Bool := (n.hdr (macPage k)).active && !(n.mac k).retired && !(n.mac k).idle

/-- Count an unmatched packet for its port (R189). -/
def unmatched (n : Node) (port : Nat) : Node :=
  n.bump sluPage (match port with
    | 0 => Fld.sluUnmatchedEth0 | 1 => Fld.sluUnmatchedEth1 | 2 => Fld.sluUnmatchedEth2 | _ => Fld.sluUnmatchedEth3)

end Node

/-- STREAM_PACKET_RECEIVED (R189, R196): streams are received whenever casements run (DEDUCED, notes/assumptions/71.md), from a port
that receives, and in its audio class only (R208, R220). -/
def streamPacket (n : Node) (p : StreamPacket) : Node :=
  if !n.running || !n.receives p.port || !n.audioPort p.port p.udpDst then n
  else
    let fits := fun (r : RxStreamCfg) => decide (n.rt.inForce ∧ r.dstAddr = p.dst ∧ r.udpDst = p.udpDst)
    let onPort := fun (r : RxStreamCfg) => (streamPorts r.dual r.port).contains p.port.val
    if p.excluded then n.unmatched p.port
    else match n.rt.cfg.rx.find? (fun r => fits r && onPort r), n.rt.cfg.rx.find? fits with
      | some r, _ => if (n.rxs r.num).unplaced then n else n.packetSort r p
      | none, some r => if (n.rxs r.num).unplaced then n else n.packetSort r p
      | none, none => n.unmatched p.port

def execStreamPacketReceived (p : StreamPacket) (s : State) : Host.Outcome State Fault Refusal :=
  s.hub (fun n => streamPacket n p)

/-- SLOT_DEADLINE (R201, R202): the slot whose deadline lies in the current casement is judged. -/
def slotDeadline (n : Node) (k : Nat) : Node :=
  match n.rxCfg k with
  | none => n
  | some r =>
    let c := n.clk.index
    if !n.running ∨ c + 1 < r.depth ∨ (n.rxs k).unplaced then n
    else
      let t := c + 1 - r.depth
      let st := n.rxs k
      let z := Node.ringSlotOf st t
      let whole := decide (Node.slotMask z = lowMask 0 (n.streamS r)) && !z.poisoned
      if st.state = .waiting ∨ st.state = .incompatible then
        let h := if whole then Nat.min 255 (st.healthy + 1) else 0
        let n := n.modRx k (fun x => { x with healthy := h })
        if st.state = .waiting ∧ 2 ≤ h then (n.modRx k (fun x => { x with state := .healthy })).openInput ⟨0, k⟩ else n
      else if whole then
        n.modRx k (fun x => { x with state := .healthy, healthy := Nat.min 255 (x.healthy + 1) })
      else
        let j : RxState := if z.poisoned then .underrun else if z.invalid then .invalid else if z.early then .overrun else .underrun
        let n := n.modRx k (fun x => { Node.modRingSlot x t (fun z => { z with missing := true }) with state := j, healthy := 0 })
        let n := n.bump sluPage (if j = .overrun then Fld.sluMissingOverrun else Fld.sluMissingUnderrun) 1 k
        (n.irq sluPage (if j = .invalid then 1 else 0)).inputFails ⟨0, k⟩ (decide (j = .invalid)) false

def execSlotDeadline (stream : Nat) (s : State) : Host.Outcome State Fault Refusal := s.hub (fun n => slotDeadline n stream)

namespace Node

/-- The Sluice at boundary `c` (R201): ring positions two casements after their release are reused, and missing slots of
which no copy ever arrived count as lost. -/
def runSluice (n : Node) (c : Nat) : Node :=
  n.rt.cfg.rx.foldl (fun m r =>
    let x := m.rxs r.num
    let old := x.slots.filter (fun z => decide (z.t + r.depth + 2 ≤ c))
    let lost := (old.filter (fun z => z.missing && !z.arrived)).length
    let m := m.setRx r.num { x with
      slots := x.slots.filter (fun z => decide (c < z.t + r.depth + 2)), pathsLast := x.pathsNow, pathsNow := 0 }
    if lost = 0 then m else m.bump sluPage Fld.sluBog2Lost lost r.num) n

end Node

/-- STREAM_SUBSCRIBE (R190): a subscriber joins or leaves a transmit stream, or is refused where it shares no version
with 1 to 2. A subscription of the node itself is to its receive stream of that number, with the sender's range
(DEDUCED, notes/assumptions/90.md). -/
def streamSubscribe (n : Node) (k sub : Nat) (join : Bool) (lo hi : Nat) : Node :=
  let shares := decide (lo ≤ hi ∧ lo ≤ 2 ∧ 1 ≤ hi)
  if sub = n.cfg.eid then
    match n.rxCfg k with
    | none => n
    | some _ =>
      if !join then n
      else if shares then n.modRx k (fun r => if r.state = .incompatible then { r with state := .waiting, healthy := 0 } else r)
      else ((n.modRx k (fun r => { r with state := .incompatible, healthy := 0 })).holdInput ⟨0, k⟩).irq sluPage 2
  else match n.txCfg k with
    | none => n
    | some c =>
      if c.interop then n
      else
        let t := n.txs k
        let others := t.subscribers.filter (fun e => decide (e.1 ≠ sub))
        if !join then n.setTx k { t with subscribers := others }
        else if shares then n.setTx k { t with subscribers := others ++ [(sub, lo, hi)] }
        else (n.bump strPage Fld.strVersionIncompat).irq strPage 0

def execStreamSubscribe (stream subscriber : Nat) (join : Bool) (lowest highest : Nat) (s : State) :
    Host.Outcome State Fault Refusal :=
  s.hub (fun n => streamSubscribe n stream subscriber join lowest highest)

namespace Node

/-- Slots that a word of Sluice SRAM lies in are judged incomplete (R203), and not a later one that will lie there. -/
def poisonSlots (n : Node) (off : Nat) : Node :=
  n.rt.cfg.rx.foldl (fun m r =>
    let len := r.channels * m.streamS r * 4
    if len ≠ 0 ∧ r.ringBase ≤ off ∧ off < r.ringBase + len * (r.depth + 2) then
      let pos := (off - r.ringBase) / len
      m.modRx r.num (fun x => { x with slots := x.slots.map (fun z => if z.t % (r.depth + 2) = pos ∧ z.t ≤ m.clk.index + 1 then { z with poisoned := true } else z) })
    else m) n

end Node

/-- SLUICE_ECC_ERROR (R203). -/
def sluiceEccError (n : Node) (off : Nat) (uncorr : Bool) : Node :=
  let bank := off / 0x40000 % 8
  let gone := n.str.retired.getLsbD bank
  if uncorr then
    let n := (n.bump sluPage Fld.sluEccUncorrected).irq sluPage 3
    let w := off / 8 * 8
    let n := { n with str := { n.str with poisoned := if n.str.poisoned.contains w then n.str.poisoned else w :: n.str.poisoned } }
    (n.poisonSlots off).raiseFault sluPage 2 0 bank gone
  else (n.bump sluPage Fld.sluEccCorrected).raiseFault sluPage 1 0 bank gone

def execSluiceEccError (addr : Nat) (uncorrectable : Bool) (s : State) : Host.Outcome State Fault Refusal :=
  s.hub (fun n => sluiceEccError n addr uncorrectable)

/-- A receive stream's ring has no place: the stream stays WAITING (R203). -/
def Node.unplace (n : Node) (k : Nat) : Node := (n.startStream k).modRx k (fun x => { x with unplaced := true })

/-- Bytes of a receive stream's ring (R197). -/
def Node.ringLen (n : Node) (r : RxStreamCfg) : Nat := r.channels * n.streamS r * 4 * (r.depth + 2)

/-- A place for a ring of `len` bytes apart from the retired banks and the rings placed: the lowest from which one can start. -/
def Node.ringPlace (n : Node) (rings : List (Nat × Nat)) (len : Nat) : Option Nat :=
  let starts := (0 :: (List.range 8).map (fun b => (b + 1) * 0x40000)) ++ rings.map (fun x => x.1 + x.2)
  let fits := fun (a : Nat) => decide (a + len ≤ 0x200000) &&
    (List.range 8).all (fun b => !n.str.retired.getLsbD b || decide (a + len ≤ b * 0x40000 ∨ (b + 1) * 0x40000 ≤ a)) &&
    rings.all (fun x => decide (a + len ≤ x.1 ∨ x.1 + x.2 ≤ a))
  (starts.filter fits).foldl (fun best a => some (match best with | none => a | some b => Nat.min a b)) none

/-- The rings that lay in a retired bank are placed anew in the order of the configuration, where they still fit; the other rings stay
(R203) (DEDUCED, notes/assumptions/175.md). -/
def Node.placeRings (n : Node) : Node :=
  let stay := (n.rt.cfg.rx.filter (fun r => !(n.rxs r.num).unplaced)).map (fun r => (r.ringBase, n.ringLen r))
  ((n.rt.cfg.rx.filter (fun r => (n.rxs r.num).unplaced)).foldl (fun (a : List (Nat × Nat) × Node) r =>
    match a.2.ringPlace a.1 (a.2.ringLen r) with
    | none => a
    | some base =>
      let m := a.2.modRx r.num (fun x => { x with unplaced := false })
      ((base, m.ringLen r) :: a.1, { m with rt := { m.rt with cfg := { m.rt.cfg with
        rx := m.rt.cfg.rx.map (fun x => if x.num = r.num then { x with ringBase := base } else x) } } })) (stay, n)).2

/-- SLUICE_BANK_MARCH_END (R203): a lasting fault retires the bank, and the compiler re-places the rings. -/
def sluiceBankMarchEnd (n : Node) (bank : Nat) (pass : Bool) : Node :=
  let n := n.testResult sluPage bank (if pass then 2 else 3)
  if pass ∨ n.str.retired.getLsbD bank then n
  else
    let r := n.str.retired ||| (1#8 <<< bank)
    let n := { n with str := { n.str with retired := r } }.setFld sluPage Fld.sluEccRetired r.toNat
    let n := (n.raiseFault sluPage 3 0 bank true).capacityLost
    n.rt.cfg.rx.foldl (fun m x =>
      if x.ringBase < (bank + 1) * 0x40000 ∧ bank * 0x40000 < x.ringBase + m.ringLen x then m.unplace x.num else m) n

def execSluiceBankMarchEnd (bank : Fin 8) (pass : Bool) (s : State) : Host.Outcome State Fault Refusal :=
  s.hub (fun n => sluiceBankMarchEnd n bank pass)

namespace Node

/-- CONV of a stream's descriptor: the ratio between 48 kHz and the node rate (R192). -/
def convCode (interop : Bool) (rate : Nat) : Nat := if !interop then 0 else if rateS rate = 12 then 1 else if rateS rate = 24 then 2 else 0

/-- The words of STR.DESC0 to DESC3 for the selected stream. -/
def strDesc (n : Node) : List Word :=
  let k := n.fld strPage Fld.strSelStream
  match n.txCfg k with
  | none => [0, 0, 0, 0]
  | some c =>
    let t := n.txs k
    [BitVec.ofNat 32 (2 ^ 31 + (if c.interop then 2 ^ 30 else 0) + (if c.dual then 2 ^ 29 else 0) + c.port % 4 * 2 ^ 27 + c.eid % 2 ^ 24),
     BitVec.ofNat 32 ((if c.interop then 0 else t.version) * 2 ^ 28 + Nat.min t.subscribers.length 255 * 2 ^ 16 + c.channels % 256),
     BitVec.ofNat 32 (c.first % 4096 * 2 ^ 16 + c.dscp % 64 * 256 + c.ptime % 16 * 16 + convCode c.interop n.rate),
     BitVec.ofNat 32 (c.udpDst % 65536 * 65536 + c.pt % 256 * 256)]

/-- The words of SLU.DESC0 to DESC3 for the selected stream. -/
def sluDesc (n : Node) : List Word :=
  let k := n.fld sluPage Fld.sluSelStream
  match n.rxCfg k with
  | none => [0, 0, 0, 0]
  | some c =>
    [BitVec.ofNat 32 (2 ^ 31 + (if c.interop then 2 ^ 30 else 0) + (if c.dual then 2 ^ 29 else 0) + c.port % 4 * 2 ^ 27
       + (if c.partner then 2 ^ 26 else 0) + c.eid % 2 ^ 24),
     BitVec.ofNat 32 ((n.rxs k).version % 16 * 2 ^ 28 + c.bundle % 256 * 2 ^ 16 + c.depth % 256 * 256 + c.channels % 256),
     BitVec.ofNat 32 (c.first % 4096 * 2 ^ 16 + c.ptime % 16 * 16 + convCode c.interop n.rate),
     BitVec.ofNat 32 (c.udpDst % 65536 * 65536 + c.pt % 256 * 256)]

/-- A read of DESC0 latches DESC1 to DESC3 from the same casement (R204). -/
def latchStrDesc (n : Node) : Node := n.setRegs strPage 0x048 (n.strDesc.drop 1)
def latchSluDesc (n : Node) : Node := n.setRegs sluPage 0x048 (n.sluDesc.drop 1)

/-- What STR.DESC0 reads as. -/
def strView (n : Node) (off : Nat) : Option Word := if off = 0x044 then n.strDesc.head? else none

/-- SLU.STATE codes. -/
def rxCode : RxState → Nat
  | .waiting => 1 | .healthy => 2 | .underrun => 3 | .overrun => 4 | .invalid => 5 | .incompatible => 6

/-- KiB of rings allocated. -/
def sluiceUsed (n : Node) : Nat :=
  if n.rt.inForce then ceilDiv (n.rt.cfg.rx.foldl (fun a r => a + r.channels * n.streamS r * 4 * (r.depth + 2)) 0) 1024 else 0

/-- What SLU's read-only registers read as. -/
def sluView (n : Node) (off : Nat) : Option Word :=
  match off with
  | 0x044 => n.sluDesc.head?
  | 0x054 =>
    let k := n.fld sluPage Fld.sluSelStream
    match n.rxCfg k with
    | none => some 0
    | some _ =>
      let r := n.rxs k
      some (BitVec.ofNat 32 (Nat.min r.healthy 255 * 256 + r.pathsLast % 4 * 16 + rxCode r.state))
  | 0x074 =>
    let live := 2048 - 256 * ((List.range 8).filter (fun b => n.str.retired.getLsbD b)).length
    some (BitVec.ofNat 32 ((live - n.sluiceUsed) * 65536 + n.sluiceUsed))
  | _ => none

end Node

end Sys2Proof.Machine
end

