-- ==== Sys2Proof/Machine/Blocks.lean ====
section
/-! DEFINITION. Sample blocks at the casement boundary (R52, R83, R101, R186, R197): what becomes a casement's inputs, and what
the sinks play out of the results of the casement before. -/

namespace Sys2Proof.Machine

open Sys2Proof (StripCfg Word Byte Sparse SourceCfg SinkCfg SinkId RxStreamCfg ReedCfg Cfg BoundaryIn)

namespace Node

/-! Sinks. -/

/-- No block reaches the drive die from the hub: both of its links are down (R299). -/
def driveCut (n : Node) : Bool := n.boot.drvPresent && (n.link 6 0).down && (n.link 6 1).down

/-- A casement has passed with or without a block. -/
def driveMissing (n : Node) : Node :=
  { n with drive := { n.drive with missing := if n.driveCut then n.drive.missing + 1 else 0 } }

/-- Sinks that cause 2 holds without a fault: those of lost slots (R61), of Reed slots STOPPED in the casement that ends or
restarted in it (R165), and of retired cores (R183), and drive sinks that no block reaches (R299). -/
def heldSinks (n : Node) : List SinkId :=
  n.rt.lostSlots.flatMap (fun x => n.slotSinks (x / 8) (x % 8)) ++
  (n.rt.cfg.reeds.filter (fun (g : ReedCfg) =>
    let r := n.reed ⟨Fin.ofNat 6 g.die, Fin.ofNat 4 g.core⟩
    r.retired || r.stopped.getLsbD g.slot || r.restarted.getLsbD g.slot)).flatMap (Graph.reedSinks n.rt.cfg) ++
  (if n.driveCut then (n.rt.cfg.sinks.map (·.id)).filter (fun s => decide (s.kind = 3)) else [])

/-- The block that an object has left in Fen, for a sink that it feeds; a sink without a feed plays silence (R71). -/
def feedBlock (n : Node) (c : Cfg) (kind num : Nat) : List Word :=
  match (if kind < 3 then Graph.dieOf c (kind, num) else none) with
  | some d => (List.range n.s).map (fun t => n.rdWord (fenAddr d (Graph.blockAt c d (kind + 1) num + 4 * t)))
  | none => List.replicate n.s 0

/-- Where an old route's feed has left its block: the old instance, or an object that runs for both routes. -/
def oldFeed (n : Node) (a : SinkCfg) : List Word :=
  n.feedBlock (if n.oldRuns (a.feedKind, a.feed) then n.rt.old else n.rt.cfg) a.feedKind a.feed

/-- The block of a sink before its Shutter, with the crossfade of its span (R83, R85). -/
def sinkBlock (n : Node) (id : SinkId) : List Word :=
  match Graph.sinkAt n.rt.cfg id, n.rt.spans.find? (fun (x : Span) => decide (x.sink = id)), Graph.sinkAt n.rt.old id with
  | some b, some x, some a =>
    let new := n.feedBlock n.rt.cfg b.feedKind b.feed
    let old := n.oldFeed a
    (List.range n.s).map (fun t =>
      let j := x.done + t
      let o := old.getD t 0
      let w := new.getD t 0
      if j < x.wait then o
      else if x.closed ∨ x.fade ≤ j - x.wait then w
      else crossMix (j - x.wait) x.fade o w)
  | some b, _, _ => n.feedBlock n.rt.cfg b.feedKind b.feed
  | none, _, some a => n.oldFeed a
  | none, _, none => []

/-- The sinks that play: those of the configuration in force, and removed ones that still close. -/
def playing (n : Node) : List SinkId :=
  n.rt.cfg.sinks.map (·.id) ++
  ((n.rt.old.sinks.map (·.id)).filter (fun s => (Graph.sinkAt n.rt.cfg s).isNone && (n.shut (sinkShut s)).present))

/-- The results of the casement that ends, as the sinks play them from now on before their Shutters (R52). A sink whose path has
unfinished work, or is held for it, has its last good sample in place of the missing block (R62, R101). Free values are set
apart for what the decimators of local ports make of them (`portSamples`). -/
def takeResults (n : Node) : Node :=
  let bad := n.sht.failed ++ n.heldSinks
  let outs := n.playing.map (fun s =>
    let k := sinkKey s
    (k, if bad.contains s then List.replicate n.s (Sparse.get (fun _ => 0) n.io.lastOut k) else n.sinkBlock s))
  { n with
    free := n.free + 2 ^ 22
    io := { n.io with
      salt := n.free
      outs := outs.foldl (fun a e => Sparse.set (fun _ => []) a e.1 e.2) []
      lastOut := outs.foldl (fun a e => Sparse.set (fun _ => 0) a e.1 (e.2.getLastD 0)) [] } }

/-- The block that a sink's feed has left under the configuration that a transition replaces, where that feed has not changed
(R83). -/
def priorFeed (n : Node) (b : SinkCfg) : Option (List Word) :=
  if (Graph.above n.rt.cfg 4 (b.feedKind, b.feed)).any (fun o => Graph.changed n.rt.old n.rt.cfg o || !(Graph.objs n.rt.old).contains o)
  then none else some (n.feedBlock n.rt.old b.feedKind b.feed)

/-- The sinks of a transition without a refill wait begin their crossfade with the block that they play from its boundary on. A
new route that the casement before did not compute joins one casement later (R83) (DEDUCED, notes/assumptions/44.md). -/
def startSpans (n : Node) : Node :=
  n.rt.spans.foldl (fun m (x : Span) =>
    if x.done ≠ 0 ∨ x.wait ≠ 0 then m
    else match (Graph.sinkAt m.rt.cfg x.sink).bind m.priorFeed with
      | none => m
      | some new =>
        let k := sinkKey x.sink
        let old := Sparse.get (fun _ => []) m.io.outs k
        let mix := (List.range m.s).map (fun t =>
          if x.closed ∨ x.fade ≤ t then new.getD t 0 else crossMix t x.fade (old.getD t 0) (new.getD t 0))
        { m with io := { m.io with
          outs := Sparse.set (fun _ => []) m.io.outs k mix
          lastOut := Sparse.set (fun _ => 0) m.io.lastOut k (mix.getLastD 0) } }) n

/-- A sample rounded and saturated to `bits` bits, left-aligned (R112, R261, R264). -/
def toBits (bits : Nat) (w : Word) : Word :=
  if 32 ≤ bits then w else BitVec.ofInt 32 (satInt bits ((w.toInt + 2 ^ (31 - bits)) / 2 ^ (32 - bits)) * 2 ^ (32 - bits))

/-- The frames of a casement that a local port sends of a sink's samples: one for each DIV samples. With DIV 2 or 4 they are what
its decimator makes of them, whose results the spec does not state (R192, R256): free values set apart at the boundary. -/
def divide (n : Node) (id : SinkId) (div : Nat) (ws : List Word) : List Word :=
  if div = 1 then ws
  else (List.range (n.s / div)).map (fun t => Config.freeWord (n.io.salt + (sinkKey id % 65536) * 64 + t))

/-- Bits of a TDM port's slots (R264). -/
def tdmBits (n : Node) (p : Nat) : Nat := match n.act (tdmPage p) Fld.tdmCfgWidth with | 0 => 16 | 1 => 24 | _ => 32

/-- What a local port sends of a sink (R261 to R268): an AES3 transmitter sends zero samples while it stops, and a TDM port the
samples of the slots that its mask enables, times their fade factors. -/
def portSamples (n : Node) (id : SinkId) (ws : List Word) : List Word :=
  let k := id.num / 2
  let p := id.num / 32
  if id.kind = 1 then
    let on := n.flag (aesPage k) Fld.aesTxStatRunning && !(n.aes k).txStops
    (n.divide id (divOf (n.act (aesPage k) Fld.aesCfgTxDiv)) ws).map (fun w => if on then toBits 24 w else 0)
  else if id.kind = 2 then
    let div := divOf (n.act (tdmPage p) Fld.tdmCfgDiv)
    (n.divide id div ws).zipIdx.map (fun e => toBits (n.tdmBits p) (mulGain e.1 (n.tdmFactor p true (id.num % 32) (n.tdmFrame p e.2))))
  else ws

/-- What a sink plays in the casement that runs: its block times the gains of its Shutter, sample by sample (R94), in the form that
its port gives it. -/
def sinkOut (n : Node) (id : SinkId) : List Word :=
  let sh := n.shut (sinkShut id)
  n.portSamples id (((Sparse.get (fun _ => []) n.io.outs (sinkKey id)).zipIdx).map (fun e => mulGain e.1 (gainOf sh e.2)))

/-- The validity bit that a transmitter sends in a subframe (R262). -/
def aesValid (n : Node) (k sub : Nat) : Bool :=
  let sh := n.shut (sinkShut ⟨1, 2 * k + sub⟩)
  match n.fld (aesPage k) Fld.aesCfgTxVset with
  | 1 => decide (sh.causes ≠ 0 ∧ sh.pstate = .faded)
  | 2 => true
  | _ => false

/-! Digests of the casement that begins (R334). -/

/-- A protect stage or a hold of the Shutter acts on its samples. -/
def shutActs (sh : Shutter) : Bool := decide (sh.pstate ≠ .clear) || sh.held || sh.inHold || sh.waits

/-- The Shutters that act so. -/
def touching (n : Node) : List ShutterId := (n.sht.shutters.filter (fun e => shutActs e.2)).map (fun e => keyShutter e.1)

/-- A sample of the sink's block was touched: by its own Shutter, which acts as the block plays, or by one upstream, which acted
one casement before (DEDUCED, notes/assumptions/184.md). -/
def sinkTouched (n : Node) (was : List ShutterId) (id : SinkId) : Bool :=
  match Graph.sinkAt n.rt.cfg id with
  | some s => shutActs (n.shut (sinkShut id)) || (Graph.above n.rt.cfg 4 (s.feedKind, s.feed)).any (fun o => was.contains ⟨o.1 + 1, 0, o.2⟩)
  | none => false

/-- A digest word: bit 31 is VALID. -/
def digestWord (crc : Word) (valid : Bool) : Word := (crc &&& 0x7FFFFFFF) ||| (if valid then 0x80000000 else 0)

/-- The digests of the casement that begins: those of the packets as they are launched, those of the release groups over
the blocks of their channels, and VALID of each; `was` lists the Shutters that acted in the casement that ends
(DESIGN CHOICE, notes/assumptions/184.md). -/
def finishDigests (n : Node) (was : List ShutterId) : Node :=
  match n.hng.coming with
  | none => n
  | some d =>
    let clean := fun (ids : List SinkId) => ids.all (fun i => !n.sinkTouched was i)
    let streams := (d.streams.zipIdx).map (fun e =>
      digestWord e.1 (e.1.getLsbD 31 && (n.rt.cfg.tx.filter (fun c => decide (c.num = e.2))).all (fun c =>
        clean ((List.range c.channels).map (fun k => ⟨0, c.first + k⟩)))))
    let chans := (List.range 192).filter (fun c => n.rt.inForce && (Graph.sinkAt n.rt.cfg ⟨3, c⟩).isSome)
    let groups := (List.range 64).map (fun g =>
      let mine := chans.filter (fun c => decide (n.chGroup c = g))
      if mine.isEmpty then 0
      else
        let bytes := mine.flatMap (fun c => (n.sinkOut ⟨3, c⟩).flatMap (fun w => beBytes w.toNat 4))
        digestWord (BitVec.ofNat 32 (crc32c bytes)) (clean (mine.map (fun c => ⟨3, c⟩))))
    { n with hng := { n.hng with coming := some { d with streams := streams, groups := groups } } }

/-! Rail demand (R297, R298): magnitudes are in 2^-31. -/

/-- The largest magnitude of some samples. -/
def largest (ws : List Word) : Nat := ws.foldl (fun a w => Nat.max a w.toInt.natAbs) 0

/-- The channels of a rail group that RELEASE, RUN or STOP. -/
def railChans (n : Node) (g : Nat) : List Nat := ([0, 1, 2, 3].map (fun j => 4 * g + j)).filter n.chPlays

/-- The largest sample that a rail group's channels play in the casement that begins, after their sink Shutters (R297). -/
def railPeak (n : Node) (g : Nat) : Nat :=
  largest ((n.railChans g).flatMap (fun c => n.sinkOut ⟨3, c⟩))

/-- The sample of age `a` at sample `t` in an output strip's ring. -/
def ringAge (n : Node) (s : StripCfg) (t a : Nat) : Word :=
  let m : Int := (n.mediaSample t : Int) - a
  if s.dram then (n.ringSample s m).1
  else n.rdWord (fenAddr s.die (s.fenRing + 4 * (m % (fenRingLen (if s.fenClass then 1 else 0) true : Nat)).toNat))

/-- The larger of the control gains in force and targeted of a Shutter, in 2^-29. -/
def lookGain (sh : Shutter) : Nat := Nat.max (gainNow sh).toInt.natAbs (shutAim sh sh.cfg).toInt.natAbs

/-- The output strip that feeds a drive channel's sink. -/
def driveStrip (n : Node) (c : Nat) : Option StripCfg :=
  match Graph.sinkAt n.rt.cfg ⟨3, c⟩ with
  | some k => if k.feedKind = 2 then n.stripOf k.feed else none
  | none => none

/-- The bound that a strip sends on the samples that a channel plays in the next casement, none where its integer delay is less
than S + 1 samples (R298). It is rounded up (DEDUCED, notes/assumptions/110.md). -/
def lookBound (n : Node) (c : Nat) : Option Nat :=
  match n.driveStrip c with
  | none => none
  | some s =>
    let st := n.strip 3 s.num
    if (st.delayAt s.frac 0) / 256 ≤ n.s then none
    else
      let top := largest ((List.range n.s).flatMap (fun t => (readAges s st t).map (fun e => n.ringAge s t e.2)))
      let gain := lookGain (n.shut (stripSite 3 s.num)) * lookGain (n.shut (drvSink c))
      let x := ceilDiv (top * 9 * gain) (8 * 2 ^ 58)
      let rec_ := fenAddr s.die ((if st.bank then s.loc1 else s.loc0) + 32 * s.sections)
      let thresh := (n.rdWord rec_).toInt
      some (if (n.rdWord (rec_ + 20)).toNat % 2 = 1 then x else Nat.min x (if thresh ≤ 0 then 1 else thresh.toNat))

/-- The bounds of a rail group, and whether a strip of it lacks the delay for them. -/
def lookPeak (n : Node) (g : Nat) : Nat := ((n.railChans g).filterMap n.lookBound).foldl Nat.max 0
def lookShort (n : Node) (g : Nat) : Bool := (n.railChans g).any (fun c => (n.driveStrip c).isSome && (n.lookBound c).isNone)

/-! Inputs. -/

/-- A sample of a Sluice slot: channel `ch` of media sample `i` of the slot, unless it is missing or poisoned (R201, R203). -/
def slotSample (n : Node) (r : RxStreamCfg) (t ch i : Nat) : Option Word :=
  let off := n.slotOff r t + 4 * (i * r.channels + ch)
  if (slotMask (ringSlotOf (n.rxs r.num) t)).testBit i && !n.str.poisoned.contains (off / 8 * 8)
  then some (n.rdWord (sluiceBase + off)) else none

/-- Samples with each missing one replaced by the last good one before it, held (R101, R201). -/
def holdLast : Word → List (Option Word) → List Word
  | _, [] => []
  | last, none :: rest => last :: holdLast last rest
  | _, some w :: rest => w :: holdLast w rest

/-- The block that the Sluice releases to a source at boundary `b` (R186, R197): slot b − D of its stream. A stream with rate
conversion brings what the interpolator makes of the slot, whose results the spec does not state (R192). -/
def netBlock (n : Node) (c : Cfg) (s : SourceCfg) (b : Nat) (last : Word) : List Word × Node :=
  match Graph.rxAt c s.origin with
  | none => (List.replicate n.s 0, n)
  | some r =>
    if !n.rt.cfg.rx.contains r || decide (b < r.depth) then (List.replicate n.s 0, n)
    else if r.interop ∧ n.s ≠ 6 then
      (List.range n.s).foldl (fun a _ => let (w, m) := a.2.fresh; (a.1 ++ [w], m)) ([], n)
    else (holdLast last ((List.range n.s).map (fun i => n.slotSample r (b - r.depth) (s.origin - r.first) i)), n)

/-- The block of a Reed output port (R158, R159): what its program's run has left, or the last good sample held. -/
def reedBlock (n : Node) (c : Cfg) (s : SourceCfg) (last : Word) : List Word :=
  let d := s.origin / 256
  let core := s.origin / 64 % 4
  let port := s.origin % 64
  match c.reeds.find? (fun (g : ReedCfg) => !g.hook && decide (g.die = d ∧ g.core = core ∧ g.outFirst ≤ port ∧ port < g.outFirst + g.nout)) with
  | some g =>
    if n.cas.hooks.contains (d, core, g.slot) then
      (List.range n.s).map (fun t => n.rdWord (fenAddr d (g.outOffs.getD (port - g.outFirst) 0 + 4 * t)))
    else List.replicate n.s last
  | none => List.replicate n.s 0

/-- A receiver in SYNC mode delivers what its elastic buffer holds (R258). -/
def aesBuffers (n : Node) (k : Nat) : Bool := decide (n.aesState k = 4 ∧ n.act (aesPage k) Fld.aesCfgRxSync ≠ 0)

/-- The oldest frames of that buffer, for a subframe. -/
def aesBlock (n : Node) (k sub : Nat) (last : Word) : List Word :=
  (List.range n.s).map (fun t => match (n.aes k).block[t]? with
    | some f => if sub = 0 then f.1 else f.2
    | none => last)

/-- What the buffers of the receivers keep: 4 frames, the centre, before LOCKED and in ASRC mode. -/
def aesTake (n : Node) : Node :=
  n.loc.aes.foldl (fun m e => m.modAes e.1 (fun a =>
    { a with block := a.block.drop (if m.aesBuffers e.1 then m.s else a.block.length - 4) })) n

/-- A decimator's output (R272): it fades over 32 samples before a change, and is suppressed while it settles, from the sample
of the swap on. -/
def decBlock (n : Node) (k : Nat) (ws : List Word) : List Word :=
  let fade := fun (i : Nat) (w : Word) => if 32 ≤ i then 0 else mulGain w (fadeFactor 0x20000000 32 i)
  match (n.dec k).cut with
  | some (ran, late) => ws.zipIdx.map (fun e => if e.2 < late then fade (ran + e.2) e.1 else 0)
  | none =>
    if n.flag decPage Fld.decStatSettling k then ws.map (fun _ => 0)
    else if (n.dec k).changing then
      ws.zipIdx.map (fun e => if (n.dec k).ran + e.2 < n.s then e.1 else fade ((n.dec k).ran + e.2 - n.s) e.1)
    else ws

/-- The input block of a source at boundary `b`, under its key (R52, R69). -/
def sourceBlock (n : Node) (c : Cfg) (s : SourceCfg) (key b : Nat) (gathered : List (Nat × List Word)) : Node :=
  let last := Sparse.get (fun _ => 0) n.io.good key
  let given := match gathered.find? (fun (e : Nat × List Word) => decide (e.1 = key)) with
    | some e => (List.range n.s).map (fun t => e.2.getD t last)
    | none => List.replicate n.s last
  let (ws, n) := match s.kind with
    | 0 => n.netBlock c s b last
    | 4 => (n.reedBlock c s last, n)
    | 1 => if n.aesBuffers (s.origin / 2) then (n.aesBlock (s.origin / 2) (s.origin % 2) last, n) else (given, n)
    | 2 =>
      let low := 2 ^ (32 - n.tdmBits (s.origin / 32))
      (given.map (fun (w : Word) => BitVec.ofNat 32 (w.toNat / low * low)), n)
    | 3 => (n.decBlock s.origin given, n)
    | _ => (given, n)
  { n with io := { n.io with
    inputs := Sparse.set (fun _ => []) n.io.inputs key ws, good := Sparse.set (fun _ => 0) n.io.good key (ws.getLastD last) } }

/-- Everything that becomes an input of casement `b` (R52): of the sources in force, and of old instances. -/
def gatherInputs (n : Node) (b : Nat) (gathered : List (Nat × List Word)) : Node :=
  let n := { n with io := { n.io with inputs := [] } }
  let n := n.rt.cfg.sources.foldl (fun m (s : SourceCfg) => m.sourceBlock m.rt.cfg s s.num b gathered) n
  (n.rt.old.sources.filter (fun (s : SourceCfg) => n.oldRuns (0, s.num))).foldl (fun m (s : SourceCfg) =>
    m.sourceBlock m.rt.old s (4096 + s.num) b gathered) n |>.aesTake

/-- A casement begins with nothing of the one before it complete or arrived (R52). -/
def clearProgress (n : Node) : Node :=
  { n with cas := { n.cas with
    unfinished := false, aborted := [], windowOpen := false, deadlinePassed := false,
    done := [], recomputed := [], arrived := [], fetched := [], hooks := [] } }

end Node

end Sys2Proof.Machine
end

