-- ==== Sys2Proof/Machine/Modulator.lean ====
section
/-! DEFINITION. The modulators of the drive die (R275, R276, R281, R285, R286): the sense streams, the loop, and the pulses of each carrier
period, casement by casement. -/

namespace Sys2Proof.Machine

open Sys2Proof (Word SenseCell SenseIn)

/-- Pairs of a voltage and a current bit of a sense stream (R285): even bits are voltage and odd ones current, and a marker repeats the
pair before it. -/
def sensePairs : Bool × Bool → List SenseCell → List (Bool × Bool)
  | last, .marker :: r => last :: sensePairs last r
  | _, .bit v :: .bit i :: r => (v, i) :: sensePairs (v, i) r
  | last, .bit _ :: .marker :: r => last :: sensePairs last r
  | _, [.bit _] => []
  | _, [] => []

/-- Loop ticks and timing steps up to the start of casement `c` (R276). -/
def loopTicks (cr c : Nat) : Nat := c * 768000 / cr
def timingSteps (cr c : Nat) : Nat := c * timingHz / cr

/-- One tick of the closed loop (R281): the error enters Σe, and the correction is limited to CORR_MAX ÷ 256, with the integrator held at
the limit. BW 0 opens the loop. -/
def loopTick (bw most : Nat) (e integ : Int) : Int × Int :=
  if bw = 0 then (0, 0)
  else
    let k := Config.loopGains bw
    let sum := integ + e
    let c := Curve.roundRatio (k.1 * e + k.2 * sum) 65536
    let lim : Int := Int.ofNat most * 2 ^ 23
    if lim < c then (lim, integ) else if c < -lim then (-lim, integ) else (c, sum)

/-- The correction at each tick, from the errors, and Σe after them. -/
def loopRun (bw most : Nat) : List Int → Int → List Int × Int
  | [], integ => ([], integ)
  | e :: es, integ =>
    let (c, i) := loopTick bw most e integ
    let (cs, i) := loopRun bw most es i
    (c :: cs, i)

/-- Starts of the carrier periods of a casement of `steps` timing steps, the first of them at `at_` and, where it is marked, 64 steps longer
(R286), with their lengths; and the steps of the next casement before its first period. -/
def carrierStarts (p steps : Nat) : Nat → Nat → Bool → List (Nat × Nat) × Nat
  | 0, at_, _ => ([], at_ - steps)
  | fuel + 1, at_, mark =>
    if steps ≤ at_ then ([], at_ - steps)
    else
      let q := if mark then p + 64 else p
      let (ps, rest) := carrierStarts p steps fuel (at_ + q) false
      ((at_, q) :: ps, rest)

namespace Node

/-- The channel reads the sense stream (R282, R299) (DEDUCED, notes/assumptions/205.md). -/
def readsSense (n : Node) (c : Nat) : Bool :=
  let st := n.chState c
  decide (st = stRun ∨ st = stStopping ∨ st = stFencing ∨ (st = stReleasing ∧ n.chFld c Fld.modChstatFollowed = 1))

/-- What a drive channel plays in the casement that ends: its sink's samples, and in FENCING times the factors of the fade over 2 × S
samples (R296). -/
def driveBlock (n : Node) (c : Nat) : List Word :=
  let ws := n.sinkOut ⟨3, c⟩
  if n.chState c = stFencing then
    ws.zipIdx.map (fun e =>
      let t := (n.drv c).fadeAt + e.2
      if t < 2 * n.s then mulGain e.1 (fadeFactor unity (2 * n.s) t) else 0)
  else ws

/-- The voltage and the current of a channel at each loop tick of the casement that ends, by a free value of it (R285). -/
def senseTicks (n : Node) (sense : List SenseIn) (c ticks : Nat) : (List Int × List Int) × Node :=
  let (w, n) := n.fresh
  let pairs := sensePairs (false, false) (((sense.find? (fun e => decide (e.ch = c))).map (·.cells)).getD [])
  (((List.range ticks).map (Config.senseDecimate w (pairs.map (·.1))), (List.range ticks).map (Config.senseDecimate w (pairs.map (·.2)))), n)

/-- The modulation index at each loop tick (R281), in 2^-45 ÷ 50 and before its limit, with the channel's loop after them. -/
def loopIndices (n : Node) (c ticks : Nat) (volts : List Int) : List Int × Node :=
  let (w, n) := n.fresh
  let d := n.drv c
  let xs := (List.range ticks).map (Config.driveInterp w (n.driveBlock c))
  let past := d.samples ++ xs
  let errs := (volts.zipIdx).map (fun e => past.getD (d.samples.length + e.2 - Config.senseDelay) 0 - e.1)
  let (cs, integ) := if d.loop then loopRun (n.chFld c Fld.modLoopBw) (n.chFld c Fld.modLoopCorrMax) errs d.integ
    else (List.replicate ticks 0, 0)
  let gain := Int.ofNat (n.chFld c Fld.modLoopFfGain)
  ((xs.zip cs).map (fun e => 50 * (gain * e.1 + e.2 * 2 ^ 14)), n.modDrv c (fun d => { d with integ := integ, samples := xs }))

/-- High times of the pins in the channel's period `k` of `q` steps, at an index (R275, R288, R290, R292). -/
def periodWidths (n : Node) (c k q : Nat) (m : Int) : Nat × Nat :=
  let d := n.drv c
  let last := rampPeriods d.period
  if d.pins = .mod then modWidths q m
  else if d.stop = .ending then
    if k < 64 then modWidths q 0
    else if d.stepRelease ∨ last ≤ k - 64 then (0, 0)
    else let w := rampWidth d.period q (last - 1 - (k - 64)); (w, w)
  else if n.chFld c Fld.modChstatRamped = 1 ∧ k < last then let w := rampWidth d.period q k; (w, w)
  else modWidths q 0

/-- One channel over the casement that ends: its sense stream and meters, its loop, and the pulses of its carrier periods, of which the
limited ones count (R275, R285) (DESIGN CHOICE, notes/assumptions/205.md). -/
def modulate (n : Node) (sense : List SenseIn) (c : Nat) : Node :=
  if (n.drv c).pins ≠ .half ∧ (n.drv c).pins ≠ .mod then n
  else
    let cr := rateCr n.rate
    let i := n.clk.index
    let ticks := loopTicks cr (i + 1) - loopTicks cr i
    let steps := timingSteps cr (i + 1) - timingSteps cr i
    let since := timingSteps cr i - loopTicks cr i * 1024
    let ((volts, amps), n) := n.senseTicks sense c ticks
    let peak := fun (vs : List Int) => Nat.min 65535 ((vs.map Int.natAbs).foldl Nat.max 0 / 2 ^ 15)
    let n := if n.readsSense c ∧ sense.any (fun e => decide (e.ch = c)) then
        (n.peak snsPage Fld.snsMeterIPeak (peak amps) c).peak snsPage Fld.snsMeterVPeak (peak volts) c
      else n
    let (ms, n) := n.loopIndices c ticks volts
    let d := n.drv c
    let (starts, rest) := carrierStarts d.period steps (steps / 600 + 2) d.lead d.marks
    let index := fun (at_ : Nat) => ms.getD ((at_ + since) / 1024) 0
    let widths := (starts.zipIdx).map (fun e => n.periodWidths c (d.periods + e.2) e.1.2 (index e.1.1))
    let limited := if d.pins = .mod then (starts.filter (fun e => decide (modLimit < index e.1 ∨ index e.1 < -modLimit))).length else 0
    let n := if limited = 0 then n else n.bump (modPage (c / 8)) (Fld.modClipClip (c % 8)) limited
    let s := n.s
    n.modDrv c (fun d => { d with
      lead := rest, periods := d.periods + starts.length, widths := widths, fadeAt := if n.chState c = stFencing then d.fadeAt + s else d.fadeAt })

/-- The drive channels over the casement that ends; their sense cells come with the boundary command (DESIGN CHOICE,
notes/assumptions/183.md). -/
def runModulators (n : Node) (sense : List SenseIn) : Node :=
  ((n.drive.ch.map (·.1)).filter (fun c => decide (c < 192))).foldl (fun m c => m.modulate sense c) n

end Node

end Sys2Proof.Machine
end

