-- ==== Sys2Proof/Machine/Mem.lean ====
section
/-! DEFINITION. The address map (R26, R27): what an address decodes to, decode errors, and reads and writes of working SRAM
and DRAM by the node's own masters. -/

namespace Sys2Proof.Machine

open Sys2Proof (Word Byte Sparse Page Block Die Port Src)

def mtxPage : Page := ⟨.mtx, 0⟩

/-- What an address of the 40-bit space decodes to (R26). -/
inductive Target
  | rom (off : Nat) | work (off : Nat) | sluice (off : Nat) | page (p : Page) (off : Nat) | xpt (off : Nat)
  | fen (d off : Nat) | flash (off : Nat) | dram (addr : Nat) | outbound (addr : Nat) | absent | none
deriving DecidableEq, Repr

/-- Where working SRAM lies in the memory store, whatever MTX.REMAP is. -/
def workBase : Nat := 0x10000000

namespace Node

/-- MTX.REMAP is 1 (R28). -/
def remapped (n : Node) : Bool := n.flag mtxPage Fld.mtxRemapRemap

/-- MTX.REMAP is set (R28): transactions to the boot ROM and working SRAM, targets 0 and 1, complete first
(DESIGN CHOICE, notes/assumptions/30.md). -/
def remap (n : Node) : Node :=
  let n := { n with mtx := { n.mtx with outstanding := n.mtx.outstanding.filter (fun (r : Sys2Proof.MatrixReq) => decide (2 ≤ r.target)) } }
  n.setFld mtxPage Fld.mtxRemapRemap 1

/-- A page of a region, or nothing where no page lies at the index; an absent die (R4, R27). -/
def pageTarget (n : Node) (r : Region) (die off : Nat) : Target :=
  match pageAt r die (off / 4096) with
  | none => .none
  | some p => if n.pagePresent p then .page p (off % 4096) else .absent

/-- Decode an address (R26). -/
def decode (n : Node) (a : Nat) : Target :=
  if a < 0x40000 then (if n.remapped then .work a else .rom a)
  else if a < 0x800000 then (if n.remapped then .work a else .none)
  else if 0x10000000 ≤ a ∧ a < 0x10800000 then
    if !n.remapped then .work (a - 0x10000000)
    else if a < 0x10040000 then .rom (a - 0x10000000) else .none
  else if 0x20000000 ≤ a ∧ a < 0x20200000 then .sluice (a - 0x20000000)
  else if 0x40000000 ≤ a ∧ a < 0x40040000 then n.pageTarget .hub 0 (a - 0x40000000)
  else if 0x48000000 ≤ a ∧ a < 0x48080000 then .xpt (a - 0x48000000)
  else if 0x50000000 ≤ a ∧ a < 0x56000000 then
    let d := (a - 0x50000000) / 0x1000000
    let off := (a - 0x50000000) % 0x1000000
    if !n.boot.engPresent.getLsbD d then (if off < 0xC0C000 then .absent else .none)
    else if off < 0xC00000 then .fen d off
    else if off < 0xC0C000 then n.pageTarget .engine d (off - 0xC00000) else .none
  else if 0x60000000 ≤ a ∧ a < 0x6001C000 then
    if !n.boot.drvPresent then .absent else n.pageTarget .drive 0 (a - 0x60000000)
  else if 0x80000000 ≤ a ∧ a < 0x90000000 then .flash (a - 0x80000000)
  else if 0x100000000 ≤ a ∧ a < 0x900000000 then (if n.dramOn ∧ a < n.dramTop then .dram a else .none)
  else if 0x4000000000 ≤ a ∧ a < 0x10000000000 then .outbound a
  else .none

/-- Master number of an access as MTX.ERRINFO shows it. -/
def masterNum (src : Src) : Nat := match src.port with | .core => src.master | p => 9 + p.code

/-- A decode error of a master is counted, and the first captured (R27). -/
def countDecode (n : Node) (master a : Nat) : Node :=
  let n := n.bump mtxPage Fld.mtxDecerrDecode
  if n.flag mtxPage Fld.mtxErrinfoValid then n
  else (n.setReg mtxPage 0x048 (BitVec.ofNat 32 a)).setReg mtxPage 0x04C
    (BitVec.ofNat 32 (2 ^ 16 + master % 32 * 256 + a / 2 ^ 32 % 256))

/-- A decode error (R4, R27): an error response with data 0, counted, the first captured. -/
def decodeError (n : Node) (src : Src) (a : Nat) : Node := (n.countDecode (masterNum src) a).respond false 0

/-- No region decodes the address, or it lies in an absent die; a write to the boot ROM or the flash window is a decode
error as well (R4, R27). -/
def undecoded (n : Node) (write : Bool) (a : Nat) : Bool :=
  match n.decode a with
  | .none | .absent => true
  | .rom _ | .flash _ => write
  | _ => false

/-- An access of a master of the node that is a decode error counts as one. -/
def dmaMiss (n : Node) (master : Nat) (write : Bool) (a : Nat) : Node :=
  if n.undecoded write a then n.countDecode master a else n

/-- Where `k` bytes at an address lie in the memory store, if they lie in working SRAM or in the in-service DRAM (R215). -/
def dmaAddr (n : Node) (a k : Nat) : Option Nat :=
  match n.decode a, n.decode (a + k - 1) with
  | .work x, .work y => if y = x + (k - 1) then some (workBase + x) else none
  | .dram x, .dram _ => some x
  | _, _ => none

/-- Read by a master of the node; bytes that lie elsewhere read 0 (DEDUCED, notes/assumptions/93.md). -/
def dmaRead (n : Node) (a k : Nat) : List Byte :=
  match n.dmaAddr a k with
  | some x => n.rdBytes x k
  | none => List.replicate k 0

/-- Write by the stream engine, master 4; bytes that lie elsewhere are discarded, and counted where nothing decodes their
address (R27). -/
def dmaWrite (n : Node) (a : Nat) (bs : List Byte) : Node :=
  match n.dmaAddr a bs.length with
  | some x => (n.wrBytes x bs).unpoison x bs.length
  | none => n.dmaMiss 4 true a

/-- A 32-bit word by the same paths. -/
def dmaWord (n : Node) (a : Nat) : Word := BitVec.ofNat 32 (leNat (n.dmaRead a 4))
def dmaWrWord (n : Node) (a : Nat) (w : Word) : Node := n.dmaWrite a (leBytes w.toNat 4)

end Node

end Sys2Proof.Machine
end

