-- ==== Sys2Proof/Machine/ReedIsa.lean ====
section
/-! DEFINITION. Operands, flags and addressing of the Reed instructions (R165 to R173, R179, R181). -/

namespace Sys2Proof.Machine

open Sys2Proof (Word Byte Sparse CoreId Opnd ReedAddr ReedTarget RepCount Cond MacLoad PairLoad Special)

/-- A data register. -/
def xr (r : ReedCore) (i : Fin 16) : Word := r.x.getD i.val 0

/-- Write a data register. -/
def setX (r : ReedCore) (i : Nat) (w : Word) : ReedCore := { r with x := r.x.set i w }

/-- An accumulator. -/
def acc (r : ReedCore) (i : Nat) : BitVec 80 := r.ac.getD i 0
def setAcc (r : ReedCore) (i : Nat) (v : BitVec 80) : ReedCore := { r with ac := r.ac.set i v }

/-- The value of an operand: a register, an immediate or an extension word (R178, R179). -/
def opnd (r : ReedCore) : Opnd → Word
  | .reg i => xr r i
  | .imm v => v
  | .ext v => v

/-- Program words of an instruction with this operand. -/
def opndLen : Opnd → Nat
  | .ext _ => 2
  | _ => 1

/-- Put flags of ST. -/
def setFlag (r : ReedCore) (i : Nat) (b : Bool) : ReedCore := { r with st := putBit r.st i b }

/-- Z and N of a result. -/
def flagsZN (w : Word) (r : ReedCore) : ReedCore := setFlag (setFlag r stZ (decide (w = 0))) stN w.msb

/-- The sum and its V and C. -/
def addWord (a b : Word) : Word × Bool × Bool :=
  (a + b, decide (a.toInt + b.toInt ≠ (a + b).toInt), decide (2 ^ 32 ≤ a.toNat + b.toNat))

/-- The difference and its V and C. Whether C is the borrow or its complement is not stated; it is a free choice of the
implementation. -/
def subWord (a b : Word) : Word × Bool × Bool :=
  (a - b, decide (a.toInt - b.toInt ≠ (a - b).toInt), Config.subCarryIsBorrow == decide (a.toNat < b.toNat))

/-- Z, N, V and C of an ALU result. -/
def flagsZNVC (res : Word × Bool × Bool) (r : ReedCore) : ReedCore :=
  setFlag (setFlag (flagsZN res.1 r) stV res.2.1) stC res.2.2

/-- An integer saturated to the signed 32-bit range, and whether it saturated. -/
def sat32 (v : Int) : Word × Bool :=
  if v < -2147483648 then (0x80000000, true)
  else if 2147483647 < v then (0x7FFFFFFF, true)
  else (BitVec.ofInt 32 v, false)

/-- An integer saturated to the accumulator's signed 80-bit range, and whether it saturated. -/
def sat80 (v : Int) : BitVec 80 × Bool :=
  if v < -(2 ^ 79) then (BitVec.ofInt 80 (-(2 ^ 79)), true)
  else if 2 ^ 79 - 1 < v then (BitVec.ofInt 80 (2 ^ 79 - 1), true)
  else (BitVec.ofInt 80 v, false)

/-- Put a sum into an accumulator, saturating and setting SAT_ACC (R166). -/
def putAcc (r : ReedCore) (i : Nat) (v : Int) : ReedCore :=
  let res := sat80 v
  let r := setAcc r i res.1
  if res.2 then setFlag r stSatAcc true else r

/-- Left shift that aligns a product or a value of format F (R166). -/
def alignF (f : Fin 4) : Nat := if f.val = 1 then 1 else if f.val = 2 then 2 else 0

/-- The product of two words, aligned by F. -/
def product (a b : Word) (f : Fin 4) : Int := a.toInt * b.toInt * 2 ^ alignF f

/-- Round to nearest with ties toward plus infinity, dropping `k` bits (R112). -/
def roundBits (v : Int) (k : Nat) : Int := (v + 2 ^ (k - 1)) / 2 ^ k

/-- An accumulator stored in format F, and whether it saturated (R166). -/
def storeAcc (a : BitVec 80) (f : Fin 4) : Word × Bool :=
  match f.val with
  | 0 => sat32 (roundBits a.toInt 31)
  | 1 => sat32 (roundBits a.toInt 32)
  | 2 => sat32 (roundBits a.toInt 33)
  | _ => sat32 a.toInt

/-- The number of bits above the fraction at which LDA places a value of format F. -/
def loadShift (f : Fin 4) : Nat :=
  match f.val with
  | 0 => 31
  | 1 => 32
  | 2 => 33
  | _ => 0

/-- Leading bits of an accumulator equal to bit 79, counting down from bit `i` (R181). -/
def leadBits (a : BitVec 80) : Nat → Nat
  | 0 => 0
  | i + 1 => if a.getLsbD i = a.msb then 1 + leadBits a i else 0

/-- EXP's exponent e (R181). -/
def expOf (a : BitVec 80) : Int := (leadBits a 80 : Int) - 18

/-- An accumulator shifted arithmetically: left if `k` is positive, right with the result rounded down if negative. -/
def ashInt (a : BitVec 80) (k : Int) : Int :=
  if 0 ≤ k then a.toInt * 2 ^ k.toNat else a.toInt / 2 ^ (-k).toNat

/-- A pointer register. -/
def ptr (r : ReedCore) (i : Nat) : Nat := (r.p.getD i 0).toNat

/-- The length that acts: values above 32,768 act as 32,768 (R170). -/
def lenOf (r : ReedCore) (i : Nat) : Nat := Nat.min (r.l.getD i 0).toNat 32768

/-- The address at a displacement from a pointer, linear or circular (R170) (DEDUCED, notes/assumptions/78.md). -/
def ptrAt (r : ReedCore) (i : Nat) (d : Int) : Nat :=
  let len := lenOf r i
  if len = 0 then (((ptr r i : Int) + d) % 65536).toNat
  else
    let b : Int := (r.b.getD i 0).toNat
    ((b + (((ptr r i : Int) - b + d) % (len : Int))) % 65536).toNat

/-- The modification of a mode AM (R169). -/
def amDelta (r : ReedCore) (i : Nat) (am : Fin 4) : Int :=
  match am.val with
  | 0 => 0
  | 1 => 1
  | 2 => -1
  | _ => (r.m.getD i 0).toInt

/-- A pointer after a modification. -/
def modPtr (r : ReedCore) (i : Nat) (d : Int) : ReedCore := { r with p := r.p.set i (BitVec.ofNat 16 (ptrAt r i d)) }

/-- Addresses of an access and the core after its post-modification, applied once (R169, R170). -/
def access (r : ReedCore) (pair : Bool) (a : ReedAddr) : List Nat × ReedCore :=
  match a with
  | .ext w => (if pair then [w.toNat, w.toNat + 1] else [w.toNat], r)
  | .ptr p am =>
    let as := if pair then [ptrAt r p.val 0, ptrAt r p.val 1] else [ptrAt r p.val 0]
    (as, if am.val = 0 then r else modPtr r p.val (amDelta r p.val am))

/-- Program words of an instruction with this address. -/
def addrLen : ReedAddr → Nat
  | .ext _ => 2
  | .ptr _ _ => 1

/-- Why a data access may not be performed: a program's stop, or a handler's access at 0x8000 or above (R168). -/
inductive AccessCheck
  | good | bad | handlerBad
deriving DecidableEq, Repr

namespace Node

/-- Check the addresses of an access before anything is read or written (R168). -/
def checkAccess (n : Node) (c : CoreId) (as : List Nat) : AccessCheck :=
  if as.all (n.locAllowed c) then .good
  else if (n.reed c).mode = .handler then .handlerBad else .bad

/-- A word of the access is poisoned. -/
def poisonedAccess (n : Node) (c : CoreId) (as : List Nat) : Bool := as.any (fun a => (n.reed c).poisonedData.contains a)

/-- Load the words at addresses into registers, in order: a handler's word at 0x8000 or above reads 0. -/
def loadWords (n : Node) (c : CoreId) : List (Nat × Nat) → Node × List (Nat × Word)
  | [] => (n, [])
  | (i, a) :: es =>
    let (w, n) := if 0x8000 ≤ a then ((0 : Word), n) else n.locLoad c a
    let (n, ls) := n.loadWords c es
    (n, (i, w) :: ls)

/-- Store registers at addresses: a handler's store at 0x8000 or above is discarded. -/
def storeWords (n : Node) (c : CoreId) : List (Nat × Word) → Node
  | [] => n
  | (a, w) :: es => (if 0x8000 ≤ a then n else n.locStore c a w).storeWords c es

/-- Every load of an instruction with the core after it: the checks first (R168, R183), then the loads. Each entry gives a
register and an address. -/
def doLoads (n : Node) (c : CoreId) (es : List (Nat × Nat)) (r : ReedCore) : ReedRes :=
  let as := es.map (·.2)
  match n.checkAccess c as with
  | .bad => .stop .address
  | chk =>
    if n.poisonedAccess c as then .stop .memory
    else
      let n := if chk = .handlerBad then n.reedCapture c 4 true else n
      let (n, ls) := n.loadWords c es
      .ok n { r with poisonedData := (n.reed c).poisonedData } ls

/-- Every store of an instruction. -/
def doStores (n : Node) (c : CoreId) (es : List (Nat × Word)) (r : ReedCore) : ReedRes :=
  match n.checkAccess c (es.map (·.1)) with
  | .bad => .stop .address
  | chk =>
    let n := if chk = .handlerBad then n.reedCapture c 4 true else n
    let n := n.storeWords c es
    .ok n { r with poisonedData := (n.reed c).poisonedData } []

/-- An instruction that changes the core alone. -/
def reedPlain (n : Node) (c : CoreId) (len : Nat) (f : ReedCore → ReedCore) : Node :=
  n.reedIssue c len (fun n r => .ok n (f r) [])

/-- An instruction of two operands, with the flags that `fl` gives. -/
def reedAlu (n : Node) (c : CoreId) (d a : Fin 16) (b : Opnd) (op : Word → Word → Word)
    (fl : Word → ReedCore → ReedCore) : Node :=
  n.reedPlain c (opndLen b) (fun r =>
    let w := op (xr r a) (opnd r b)
    fl w (setX r d.val w))

/-- ADD, SUB and their kin, which set Z, N, V and C. -/
def reedArith (n : Node) (c : CoreId) (d a : Fin 16) (b : Opnd) (op : Word → Word → Word × Bool × Bool) : Node :=
  n.reedPlain c (opndLen b) (fun r =>
    let res := op (xr r a) (opnd r b)
    flagsZNVC res (setX r d.val res.1))

/-- ADDS and SUBS: saturating, setting Z and N, V by the saturation, and SAT_ALU on saturation (R166)
(DEDUCED, notes/assumptions/73.md). -/
def reedSat (n : Node) (c : CoreId) (d a : Fin 16) (b : Opnd) (op : Int → Int → Int) : Node :=
  n.reedPlain c (opndLen b) (fun r =>
    let res := sat32 (op (xr r a).toInt (opnd r b).toInt)
    let r := setFlag (flagsZN res.1 (setX r d.val res.1)) stV res.2
    if res.2 then setFlag r stSatAlu true else r)

/-- An instruction without an operand that its extension word replaces, of the length that its E bit gives (R178). -/
def reedBare (n : Node) (c : CoreId) (f : ReedCore → ReedCore) : Node :=
  n.reedPlain c (n.instrLen c (n.reed c).pc) f

/-- ABS and NEG: the most negative value gives 2^31 − 1 and sets V (R179). -/
def reedNegate (n : Node) (c : CoreId) (d a : Fin 16) (op : Int → Int) : Node :=
  n.reedBare c (fun r =>
    let res := sat32 (op (xr r a).toInt)
    let r := setX r d.val res.1
    if res.2 then setFlag r stV true else r)

/-- A multiply of the MAC class with its load (R166, R179). -/
def reedMul (n : Node) (c : CoreId) (ac : Fin 4) (xa xb : Fin 16) (f : Fin 4) (ld : Option MacLoad)
    (op : Int → Int → Int) : Node :=
  n.reedIssue c 1 (fun n r =>
    let r' := putAcc r ac.val (op (acc r ac.val).toInt (product (xr r xa) (xr r xb) f))
    match ld with
    | none => .ok n r' []
    | some l =>
      let (as, r'') := access r' false (.ptr l.p l.am)
      n.doLoads c (as.map (fun a => (l.x.val, a))) r'')

/-- Addresses and registers of a pair load of a DMAC, and the core after its post-modification (R178). -/
def pairLoad (r : ReedCore) (second : Bool) (l : Option PairLoad) : List (Nat × Nat) × ReedCore :=
  match l with
  | none => ([], r)
  | some l =>
    let base := (if second then 8 else 0) + 2 * l.pair.val
    let p : Fin 8 := ⟨(if second then 4 else 0) + l.p.val, by split <;> omega⟩
    let (as, r) := access r true (.ptr p l.am)
    ([(base, as.getD 0 0), (base + 1, as.getD 1 0)], r)

/-- A DMAC instruction: the sums, then its pair loads (R179) (DEDUCED, notes/assumptions/76.md). -/
def reedDual (n : Node) (c : CoreId) (l1 l2 : Option PairLoad) (f : ReedCore → ReedCore) : Node :=
  n.reedIssue c 1 (fun n r =>
    let (e1, r1) := pairLoad (f r) false l1
    let (e2, r2) := pairLoad r1 true l2
    if (e1 ++ e2).isEmpty then .ok n r2 [] else n.doLoads c (e1 ++ e2) r2)

/-- The two words of a register pair. -/
def pairX (r : ReedCore) (p : Fin 8) : Word × Word := (r.x.getD (2 * p.val) 0, r.x.getD (2 * p.val + 1) 0)

/-- A control transfer after two delay slots (R172). -/
def reedJumpTo (r : ReedCore) (j : ReedJump) : ReedCore := { r with jump := some (2, j) }

/-- A branch target: an offset from the instruction, whose PC is `pc`, or an absolute address (R178). -/
def targetOf (pc : Nat) : ReedTarget → Nat
  | .off o => (((pc : Int) + o) % 16384).toNat
  | .ext a => a.toNat

def targetLen : ReedTarget → Nat
  | .off _ => 1
  | .ext _ => 2

/-- A branch condition (R179), read from ST. -/
def condHolds (st : Word) : Cond → Bool
  | .al => true
  | .eq => st.getLsbD stZ
  | .ne => !st.getLsbD stZ
  | .lt => st.getLsbD stN != st.getLsbD stV
  | .ge => st.getLsbD stN == st.getLsbD stV
  | .le => st.getLsbD stZ || (st.getLsbD stN != st.getLsbD stV)
  | .gt => !st.getLsbD stZ && (st.getLsbD stN == st.getLsbD stV)
  | .vs => st.getLsbD stV
  | .vc => !st.getLsbD stV

/-- An XRD or XWR (R177): the checks first, then the transfer on a free channel; on a busy one the core stalls. -/
def reedXfer (n : Node) (c : CoreId) (write : Bool) (ch : Fin 4) (a : Opnd) (p : Fin 8) (len : Nat) : Node :=
  n.reedIssue c (opndLen a) (fun n r =>
    let x : ReedXfer := { write := write, fen := (opnd r a).toNat, loc := ptr r p.val, len := len }
    let locOk := (List.range len).all (fun k => n.locAllowed c (x.loc + k))
    let fenOk := decide (x.fen % 4 = 0) && n.fenAllowed c x.fen (4 * len)
    if !(locOk && fenOk) then
      (if r.mode = .handler then .ok (n.reedCapture c 5 true) r [] else .stop .fenRange)
    else if write && n.poisonedAccess c ((List.range len).map (fun k => x.loc + k)) then .stop .memory
    else if (r.chans.getD ch.val []).isEmpty then
      let (n, r) := reedStartXfer r n c ch.val x
      .ok n r []
    else .stalls (.xfer ch.val x))

/-- Read a special register (R165). -/
def getSpecial (n : Node) (c : CoreId) (r : ReedCore) : Special → Word
  | .st => r.st
  | .lr => r.lr
  | .cyc => BitVec.ofNat 32 r.cyc
  | .caslo => BitVec.ofNat 32 n.clk.index
  | .prg => BitVec.ofNat 32 r.slot
  | .ipc => r.ipc
  | .ist => r.ist
  | .imask => r.imask.setWidth 32
  | .ipend => r.ipend.setWidth 32
  | .evthit => r.evthit.setWidth 32
  | .cbase => BitVec.ofNat 32 (((n.reedImage c).map (·.cbase)).getD 0)

/-- Write a special register; a read-only one ignores it (DEDUCED, notes/assumptions/77.md). -/
def setSpecial (r : ReedCore) (w : Word) : Special → ReedCore
  | .st => { r with st := w &&& stMask }
  | .lr => { r with lr := w }
  | .ipc => { r with ipc := w }
  | .ist => { r with ist := w &&& stMask }
  | .imask => { r with imask := w.setWidth 3 }
  | .cyc | .caslo | .prg | .ipend | .evthit | .cbase => r

end Node

end Sys2Proof.Machine
end

