-- ==== Sys2Proof/Machine/ReedDecode.lean ====
section
/-! DEFINITION. Reed instruction words (R178 to R180), and the checks that the route compiler makes on every core image and
program (R182). -/

namespace Sys2Proof.Machine

open Sys2Proof (Word Byte Sparse Page Block Die Port Src CoreId Opnd ReedAddr ReedTarget RepCount Cond MacLoad PairLoad
  Special Instr ReedCfg ReedImageCfg)

/-- Bits `hi` down to `lo` of a word. -/
def wbits (w : Word) (hi lo : Nat) : Nat := w.toNat / 2 ^ lo % 2 ^ (hi + 1 - lo)

/-- A field of `k` bits as a signed number. -/
def sfield (v k : Nat) : Int := if v < 2 ^ (k - 1) then v else (v : Int) - 2 ^ k

/-- A signed immediate of `k` bits as the word that takes the operand's place. -/
def immWord (v k : Nat) : Word := BitVec.ofInt 32 (sfield v k)

def f16 (n : Nat) : Fin 16 := Fin.ofNat 16 n
def f8 (n : Nat) : Fin 8 := Fin.ofNat 8 n
def f4 (n : Nat) : Fin 4 := Fin.ofNat 4 n

/-- The conditions by their code (R179). -/
def condOf : Nat → Option Cond
  | 0 => some .al | 1 => some .eq | 2 => some .ne | 3 => some .lt | 4 => some .ge | 5 => some .le | 6 => some .gt
  | 7 => some .vs | 8 => some .vc | _ => none

/-- The special registers by their number (R165). -/
def specialOf : Nat → Option Special
  | 0 => some .st | 1 => some .lr | 2 => some .cyc | 3 => some .caslo | 4 => some .prg | 5 => some .ipc | 6 => some .ist
  | 7 => some .imask | 8 => some .ipend | 9 => some .evthit | 10 => some .cbase | _ => none

/-- An operand of the classes ACC, PTR and XFER. With E, the extension word takes its place (DEDUCED for an E without I,
notes/assumptions/74.md). -/
def pickOpnd (e imm : Bool) (ext iw : Word) (r : Nat) : Opnd :=
  if e then .ext ext else if imm then .imm iw else .reg (f16 r)

/-- Class CTRL. -/
def decodeCtrl (c : CoreId) (w ext : Word) : Option Instr :=
  let opc := wbits w 26 22
  let e := w.getLsbD 27
  let target : ReedTarget := if e then .ext (ext.setWidth 14) else .off (sfield (wbits w 17 0) 18)
  if e && (!decide (opc = 2 ∨ opc = 3) || decide (wbits w 17 0 ≠ 0)) then none
  else match opc with
    | 0 => some (.reedNop c)
    | 1 => some (.reedEnd c)
    | 2 => (condOf (wbits w 21 18)).map (fun k => .reedB c k target)
    | 3 => some (.reedCall c target)
    | 4 => some (.reedRet c)
    | 5 => some (.reedDbnz c (f16 (wbits w 21 18)) (sfield (wbits w 17 0) 18))
    | 6 =>
      if wbits w 10 8 ≠ 0 then none
      else some (.reedRep c (Fin.ofNat 64 (wbits w 16 11))
        (if w.getLsbD 17 then .reg (f16 (wbits w 21 18)) else .imm (Fin.ofNat 256 (wbits w 7 0))))
    | 7 => some (.reedReti c)
    | _ => none

/-- The operations of ALU and ALUI (R179). -/
def decodeAlu (c : CoreId) (opc d a : Nat) (b : Opnd) : Option Instr :=
  let d' := f16 d
  let a' := f16 a
  match opc with
  | 0x00 => some (.reedAdd c d' a' b)
  | 0x01 => some (.reedSub c d' a' b)
  | 0x02 => some (.reedAnd c d' a' b)
  | 0x03 => some (.reedOr c d' a' b)
  | 0x04 => some (.reedXor c d' a' b)
  | 0x05 => some (.reedShl c d' a' b)
  | 0x06 => some (.reedShr c d' a' b)
  | 0x07 => some (.reedAsr c d' a' b)
  | 0x08 => some (.reedMin c d' a' b)
  | 0x09 => some (.reedMax c d' a' b)
  | 0x0A => some (.reedAdds c d' a' b)
  | 0x0B => some (.reedSubs c d' a' b)
  | 0x0C => some (.reedMull c d' a' b)
  | 0x0D => if d ≠ 0 then none else some (.reedCmp c a' b)
  | 0x0E => some (.reedMov c d' b)
  | 0x0F => some (.reedAbs c d' a')
  | 0x10 => some (.reedNeg c d' a')
  | _ => none

/-- Class LDST. -/
def decodeLdst (c : CoreId) (w ext : Word) : Option Instr :=
  let e := w.getLsbD 27
  let x := wbits w 19 16
  let addr : ReedAddr := if e then .ext (ext.setWidth 15) else .ptr (f8 (wbits w 22 20)) (f4 (wbits w 24 23))
  if wbits w 15 0 ≠ 0 then none
  else if e ∧ wbits w 24 20 ≠ 0 then none
  else match w.getLsbD 26, w.getLsbD 25 with
    | false, false => some (.reedLd c (f16 x) addr)
    | true, false => some (.reedSt c (f16 x) addr)
    | st, true =>
      if x % 2 = 1 then none
      else if st then some (.reedSt2 c (f8 (x / 2)) addr)
      else some (.reedLd2 c (f8 (x / 2)) addr)

/-- Class MAC. -/
def decodeMac (c : CoreId) (w : Word) : Option Instr :=
  let ac := f4 (wbits w 23 22)
  let xa := f16 (wbits w 21 18)
  let xb := f16 (wbits w 17 14)
  let f := f4 (wbits w 13 12)
  let ld : Option MacLoad :=
    if w.getLsbD 11 then some ⟨f16 (wbits w 10 7), f8 (wbits w 6 4), f4 (wbits w 3 2)⟩ else none
  if w.getLsbD 27 ∨ wbits w 1 0 ≠ 0 then none
  else match wbits w 26 24 with
    | 0 => some (.reedMac c ac xa xb f ld)
    | 1 => some (.reedMsu c ac xa xb f ld)
    | 2 => some (.reedMpy c ac xa xb f ld)
    | 3 => some (.reedMpyn c ac xa xb f ld)
    | _ => none

/-- Class DMAC. -/
def decodeDmac (c : CoreId) (w : Word) : Option Instr :=
  let sub := w.getLsbD 26
  let ac := wbits w 25 24
  let pa := f8 (wbits w 23 21)
  let pb := f8 (wbits w 20 18)
  let f := f4 (wbits w 17 16)
  let l1 : Option PairLoad :=
    if w.getLsbD 15 then some ⟨f4 (wbits w 14 13), f4 (wbits w 12 11), f4 (wbits w 10 9)⟩ else none
  let l2 : Option PairLoad :=
    if w.getLsbD 8 then some ⟨f4 (wbits w 7 6), f4 (wbits w 5 4), f4 (wbits w 3 2)⟩ else none
  if wbits w 1 0 ≠ 0 then none
  else if w.getLsbD 27 then
    if ac % 2 = 1 then none else some (.reedDmacp c sub (Fin.ofNat 2 (ac / 2)) pa pb f l1 l2)
  else some (.reedDmacs c sub (f4 ac) pa pb f l1 l2)

/-- Class ACC. -/
def decodeAcc (c : CoreId) (w : Word) : Option Instr :=
  let d := f16 (wbits w 21 18)
  let a := wbits w 17 14
  let n := f4 (wbits w 13 12)
  let m := f4 (wbits w 11 10)
  let f := f4 (wbits w 9 8)
  let b := pickOpnd false (w.getLsbD 7) 0 (immWord (wbits w 6 0) 7) a
  if w.getLsbD 27 then none
  else match wbits w 26 22 with
    | 0x00 => some (.reedClr c n)
    | 0x01 => some (.reedStq c d n f)
    | 0x02 => some (.reedRdg c d n)
    | 0x03 => some (.reedRdh c d n)
    | 0x04 => some (.reedRdl c d n)
    | 0x05 => some (.reedLda c n b f)
    | 0x06 => some (.reedWrl c n b)
    | 0x07 => some (.reedAdda c n m)
    | 0x08 => some (.reedSuba c n m)
    | 0x09 => some (.reedAsh c n b)
    | 0x0A => some (.reedExp c d n)
    | 0x0B => some (.reedNorm c d n)
    | 0x0C => some (.reedAbsa c n)
    | 0x0D => some (.reedNega c n)
    | 0x0E => some (.reedMova c n m)
    | _ => none

/-- Class PTR. -/
def decodePtr (c : CoreId) (w ext : Word) : Option Instr :=
  let e := w.getLsbD 27
  let d := f16 (wbits w 21 18)
  let n := f8 (wbits w 13 11)
  let a := pickOpnd e (w.getLsbD 10) ext (immWord (wbits w 9 0) 10) (wbits w 17 14)
  if e ∧ wbits w 9 0 ≠ 0 then none
  else match wbits w 26 22 with
    | 0x00 => some (.reedSetp c n a)
    | 0x01 => some (.reedSetm c n a)
    | 0x02 => some (.reedSetb c n a)
    | 0x03 => some (.reedSetl c n a)
    | 0x04 => some (.reedGetp c d n)
    | 0x05 => some (.reedGetm c d n)
    | 0x06 => some (.reedGetb c d n)
    | 0x07 => some (.reedGetl c d n)
    | 0x08 => some (.reedAddp c n a)
    | _ => none

/-- Class XFER. -/
def decodeXfer (c : CoreId) (w ext : Word) : Option Instr :=
  let e := w.getLsbD 27
  let ch := f4 (wbits w 21 20)
  let a := pickOpnd e false ext 0 (wbits w 19 16)
  let p := f8 (wbits w 15 13)
  let len := BitVec.ofNat 13 (wbits w 12 0)
  if e ∧ wbits w 19 16 ≠ 0 then none
  else match wbits w 26 22 with
    | 0x00 => some (.reedXrd c ch a p len)
    | 0x01 => some (.reedXwr c ch a p len)
    | 0x02 => if e ∨ wbits w 21 4 ≠ 0 then none else some (.reedWaitx c (BitVec.ofNat 4 (wbits w 3 0)))
    | 0x03 => some (.reedXst c (f16 (wbits w 19 16)))
    | _ => none

/-- Class SYS. A special register or a mailbox word that does not exist is illegal (DEDUCED,
notes/assumptions/75.md). -/
def decodeSys (c : CoreId) (w : Word) : Option Instr :=
  let d := f16 (wbits w 21 18)
  let a := f16 (wbits w 17 14)
  let imm := wbits w 9 0
  if w.getLsbD 27 then none
  else match wbits w 26 22 with
    | 0x00 => (specialOf (wbits w 13 10)).map (fun r => .reedGets c d r)
    | 0x01 => (specialOf (wbits w 13 10)).map (fun r => .reedSets c r a)
    | 0x02 => some (.reedEi c)
    | 0x03 => some (.reedDi c)
    | 0x04 => if 3 < imm then none else some (.reedMbxr c d (f4 imm))
    | 0x05 => if 3 < imm then none else some (.reedMbxw c (f4 imm) a)
    | 0x06 => some (.reedMbxdone c)
    | 0x07 => some (.reedEvt c (BitVec.ofNat 10 imm))
    | 0x08 => some (.reedSatclr c)
    | _ => none

/-- The instruction that a program word spells, with the extension word that follows it (R178 to R180); none where it is
illegal (DESIGN CHOICE, notes/assumptions/83.md). -/
def reedDecode (c : CoreId) (w ext : Word) : Option Instr :=
  let opc := wbits w 26 22
  match wbits w 31 28 with
  | 0 => decodeCtrl c w ext
  | 1 => if w.getLsbD 27 ∨ wbits w 9 0 ≠ 0 then none
      else decodeAlu c opc (wbits w 21 18) (wbits w 17 14) (.reg (f16 (wbits w 13 10)))
  | 2 => if w.getLsbD 27 ∧ wbits w 13 0 ≠ 0 then none
      else decodeAlu c opc (wbits w 21 18) (wbits w 17 14)
        (if w.getLsbD 27 then .ext ext else .imm (immWord (wbits w 13 0) 14))
  | 3 => decodeLdst c w ext
  | 4 => decodeMac c w
  | 5 => decodeDmac c w
  | 6 => decodeAcc c w
  | 7 => decodePtr c w ext
  | 8 => decodeXfer c w ext
  | 9 => decodeSys c w
  | _ => none

/-- One decoded instruction of a program: its address, its length in words, its class and itself. -/
structure ReedLine where
  addr : Nat
  len : Nat
  cls : Nat
  ins : Option Instr

/-- Decode the words from address `a` on. An instruction whose extension word would lie past the end has no
instruction. -/
def reedLines (c : CoreId) (a : Nat) : List Word → List ReedLine
  | [] => []
  | w :: ws =>
    if hasExt w then
      match ws with
      | [] => [⟨a, 2, wbits w 31 28, none⟩]
      | e :: rest => ⟨a, 2, wbits w 31 28, reedDecode c w e⟩ :: reedLines c (a + 2) rest
    else ⟨a, 1, wbits w 31 28, reedDecode c w 0⟩ :: reedLines c (a + 1) ws

/-- The instruction moves control after two delay slots (R172). -/
def isTransfer : Option Instr → Bool
  | some (.reedEnd _) | some (.reedB _ _ _) | some (.reedCall _ _) | some (.reedRet _) | some (.reedDbnz _ _ _)
  | some (.reedReti _) => true
  | _ => false

/-- A REP's body length and count, where the count is an immediate. -/
def repOf : Option Instr → Option (Nat × Option Nat)
  | some (.reedRep _ len (.imm k)) => some (len.val + 1, some (k.val + 1))
  | some (.reedRep _ len (.reg _)) => some (len.val + 1, none)
  | _ => none

/-- The instruction has a load delay slot (R171). -/
def isLoad : Option Instr → Bool
  | some (.reedLd _ _ _) | some (.reedLd2 _ _ _) => true
  | some (.reedMac _ _ _ _ _ l) | some (.reedMsu _ _ _ _ _ l) | some (.reedMpy _ _ _ _ _ l)
  | some (.reedMpyn _ _ _ _ _ l) => l.isSome
  | some (.reedDmacs _ _ _ _ _ _ a b) | some (.reedDmacp _ _ _ _ _ _ a b) => a.isSome || b.isSome
  | _ => false

/-- Branch target of the instruction at `pc`. -/
def branchTarget (pc : Nat) : Option Instr → Option Int
  | some (.reedB _ _ (.off o)) | some (.reedCall _ (.off o)) | some (.reedDbnz _ _ o) => some ((pc : Int) + o)
  | some (.reedB _ _ (.ext a)) | some (.reedCall _ (.ext a)) => some (a.toNat : Int)
  | _ => none

/-- Walk a REP body of `k` instructions from line `i` (R173): the line after it and its cycles; none where the body breaks
the rules. `depth` levels may still be opened inside it. The first number is fuel. -/
def repBody (ls : List ReedLine) : Nat → Nat → Nat → Nat → Option (Nat × Nat)
  | 0, _, _, _ => none
  | _ + 1, _, 0, i => some (i, 0)
  | fuel + 1, depth, k + 1, i =>
    match ls[i]? with
    | none => none
    | some l =>
      match repOf l.ins with
      | some (len, cnt) =>
        match depth, cnt, k with
        | d + 1, some c, k' + 1 =>
          match repBody ls fuel d len (i + 1) with
          | none => none
          | some (j, cyc) => (repBody ls fuel depth k' j).map (fun r => (r.1, 1 + cyc * c + r.2))
        | _, _, _ => none
      | none =>
        if 1 ≤ l.cls ∧ l.cls ≤ 7 then (repBody ls fuel depth k (i + 1)).map (fun r => (r.1, 1 + r.2)) else none

/-- The whole of an outermost REP at line `i`: the line after its body and the cycles that its iterations take; a register
count is clamped to 256 ÷ LEN (R173). -/
def repWhole (ls : List ReedLine) (i len : Nat) (cnt : Option Nat) : Option (Nat × Nat) :=
  (repBody ls (ls.length + 2) (match cnt with | some _ => 2 | none => 0) len (i + 1)).map
    (fun r => (r.1, r.2 * cnt.getD (256 / len)))

/-- Lines that lie inside the body of a REP that begins at an earlier line are part of it; the outermost REPs and the rest
in order, as (first line, line after, cycles after the first instruction). The first number is fuel. -/
def repUnits (ls : List ReedLine) : Nat → Nat → List (Option (Nat × Nat × Nat))
  | 0, _ => []
  | fuel + 1, i =>
    match ls[i]? with
    | none => []
    | some l =>
      match repOf l.ins with
      | none => some (i, i + 1, 0) :: repUnits ls fuel (i + 1)
      | some (len, cnt) =>
        match repWhole ls i len cnt with
        | none => [none]
        | some (j, cyc) => some (i, j, cyc) :: repUnits ls fuel j

/-- Instruction boundaries held off in a row, following each path of control (R174): the places that a stretch of `k` held
boundaries can reach, as unit, boundaries still covered, and a transfer's target with the slots left. -/
structure HoldAt where
  line : Nat
  cover : Nat
  jump : Option (Nat × List Nat)
deriving DecidableEq

/-- Lines at which a RET may resume: behind the second delay slot of each CALL. -/
def returnLines (ls : List ReedLine) : List Nat :=
  ((List.range ls.length).zip ls).filterMap (fun e => match e.2.ins with | some (.reedCall _ _) => some (e.1 + 3) | _ => none)

/-- Lines that follow a transfer at line `i`. -/
def afterTransfer (ls : List ReedLine) (i : Nat) (l : ReedLine) : List Nat :=
  let at_ := match branchTarget l.addr l.ins with
    | some t => ((List.range ls.length).zip ls).filterMap (fun e => if (e.2.addr : Int) = t then some e.1 else none)
    | none => []
  match l.ins with
  | some (.reedB _ .al _) | some (.reedCall _ _) => at_
  | some (.reedRet _) => returnLines ls
  | some (.reedB _ _ _) | some (.reedDbnz _ _ _) => (i + 3) :: at_
  | _ => []

/-- One unit executes at a place: the held boundaries it passes and the places after it where the last boundary is
held. -/
def holdStep (ls : List ReedLine) (us : List (Nat × Nat × Nat)) (p : HoldAt) : List (Nat × HoldAt) :=
  match ls[p.line]?, us.find? (fun u => decide (u.1 = p.line)) with
  | some l, some (_, next, cyc) =>
    let last := (ls[next - 1]?).elim none (·.ins)
    let own := if isTransfer l.ins then 2 else if isLoad last then 1 else 0
    let cover := Nat.max own (p.cover - 1)
    let jump := match p.jump with
      | some (k, ts) => some (k - 1, ts)
      | none => if isTransfer l.ins then some (2, afterTransfer ls p.line l) else none
    let nexts := match jump with
      | some (0, ts) => ts.map (fun t => (t, (none : Option (Nat × List Nat))))
      | j => [(next, j)]
    if cover = 0 then (if cyc = 0 then [] else [(cyc, ⟨ls.length, 0, none⟩)])
    else nexts.map (fun e => (cyc + 1, ⟨e.1, cover, e.2⟩))
  | _, _ => []

/-- A stretch of held boundaries that has lasted `run` at a place can exceed 256. The first number is fuel: a stretch
that goes on that long has exceeded it. -/
def holdTooLong (ls : List ReedLine) (us : List (Nat × Nat × Nat)) : Nat → List (Nat × HoldAt) → Bool
  | 0, ps => !ps.isEmpty
  | fuel + 1, ps =>
    ps.any (fun p => decide (256 < p.1)) ||
      holdTooLong ls us fuel ((ps.flatMap (fun p => (holdStep ls us p.2).map (fun e => (p.1 + e.1, e.2)))).eraseDups)

/-- The words of a program or core image from address `base` break a rule of R182: an illegal instruction, a delay slot,
a REP body, a hold-off, a target outside, or an instruction past the end. -/
def codeBad (c : CoreId) (base : Nat) (ws : List Word) : Bool :=
  let ls := reedLines c base ws
  let us := repUnits ls (ls.length + 1) 0
  let good := us.filterMap id
  let outside := fun (t : Int) => !ls.any (fun l => decide ((l.addr : Int) = t))
  ls.any (fun l => l.ins.isNone) ||
  ((List.range ls.length).zip ls).any (fun e => isTransfer e.2.ins &&
    [1, 2].any (fun k => match ls[e.1 + k]? with
      | none => true
      | some d => isTransfer d.ins || (repOf d.ins).isSome)) ||
  us.any (·.isNone) || good.any (fun u => decide (256 < u.2.2)) ||
  holdTooLong ls good 258 (good.map (fun u => (0, ⟨u.1, 0, none⟩))) ||
  ls.any (fun l => match branchTarget l.addr l.ins with | some t => outside t | none => false)

/-- Two ranges of lengths `la` and `lb` share a place. -/
def rangesMeet (a la b lb : Nat) : Bool := decide (a < b + lb ∧ b < a + la ∧ 0 < la ∧ 0 < lb)

/-- Two programs of one core share a port, a local word or a Fen byte (R158, R182). -/
def programsClash (a b : ReedCfg) : Bool :=
  rangesMeet a.inFirst a.nin b.inFirst b.nin || rangesMeet a.outFirst a.nout b.outFirst b.nout ||
  rangesMeet a.regionBase a.regionLen b.regionBase b.regionLen ||
  a.windows.any (fun u => b.windows.any (fun v => rangesMeet u.1 u.2 v.1 v.2)) ||
  rangesMeet a.progBase a.program.length b.progBase b.program.length

/-- A program breaks a rule of R158, R160 or R182. -/
def programBad (c : CoreId) (g : ReedCfg) : Bool :=
  codeBad c g.progBase g.program ||
  !(reedLines c g.progBase g.program).any (fun l => decide (l.addr = g.entry)) ||
  decide (64 < g.inFirst + g.nin ∨ 64 < g.outFirst + g.nout ∨ 7 < g.slot) ||
  decide (4 < g.windows.length) || g.windows.any (fun v => decide (v.2 % 8 ≠ 0)) ||
  (g.hook && decide (g.nin ≠ 1 ∨ g.nout ≠ 1))

/-- The first core, if any, whose image or programs the compiler refuses (R182), as die × 4 + core. -/
def reedBad (reeds : List ReedCfg) (images : List ReedImageCfg) : Option Nat :=
  (List.range 24).find? (fun k =>
    let c : CoreId := ⟨Fin.ofNat 6 (k / 4), f4 k⟩
    let ps := reeds.filter (fun (g : ReedCfg) => decide (g.die = k / 4 ∧ g.core = k % 4))
    ps.any (programBad c) ||
    ((List.range ps.length).zip ps).any (fun e => (ps.drop (e.1 + 1)).any (programsClash e.2)) ||
    images.any (fun (g : ReedImageCfg) => decide (g.die = k / 4 ∧ g.core = k % 4) && codeBad c g.progBase g.code))

end Sys2Proof.Machine
end

