-- ==== Sys2Proof/Machine/Admit.lean ====
section
/-! DEFINITION. Admission control (R53 to R59, R68 to R72, R82 to R84): object limits, budgets and loads of a configuration,
the transition from the one in force, and the latency of its paths (R66). -/

namespace Sys2Proof.Machine

open Sys2Proof (Word Byte Sparse Page Block Die Port Src ShutterId SinkId SourceCfg BusCfg XpCfg StripCfg SinkCfg ItemCfg
  LinkCfg TargetCfg ReedCfg ReedImageCfg RxStreamCfg TxStreamCfg BundleCfg Cfg BlockCfg PsumCfg PartCfg)

/-- Capacities of R53 for a rate: 48 kHz family, then 44.1 kHz family. -/
def familyOf (rate a b : Nat) : Nat := if rate % 2 = 1 then a else b
def capEngine (rate : Nat) : Nat := familyOf rate 484000 528216
def capReed (rate : Nat) : Nat := familyOf rate 121000 132054
def capLink (rate : Nat) : Nat := familyOf rate 3750000 4081632
def capTarget (rate : Nat) : Nat := familyOf rate 100000 108843
def capDram (rate : Nat) : Nat := familyOf rate 25000 27210

/-- The usable share of a capacity, 88 % rounded down (R53). -/
def usableShare (cap : Nat) : Nat := cap * 88 / 100

/-- The reservation for the rings' DMA (R217): beats at the working SRAM, and bursts at each DRAM channel. -/
def ringBeats (rate : Nat) : Nat := familyOf rate 8000 8708
def ringBursts : Nat := 1000

/-- Bursts of a long delay line in a casement (R54). -/
def longBursts (s : Nat) : Nat := (ceilDiv (4 * s) 64 + 1) + (ceilDiv (4 * s + 32) 64 + 1)

/-- Reasons of R59. -/
def engineLoad : Nat := 1
def reedLoad : Nat := 2
def lintelLoad : Nat := 3
def matrixLoad : Nat := 4
def dramLoad : Nat := 5
def reedImageBad : Nat := 6
def itemTooLarge : Nat := 7
def objectLimit : Nat := 8
def fenSpace : Nat := 9
def firPool : Nat := 10
def busGraph : Nat := 11
def staleReason : Nat := 12
def dieAbsent : Nat := 13
def stagedReason : Nat := 14

/-- DETAIL of a refusal (R59), as the 24 bits of a response's DETAIL. -/
def detailOf (pct reason budget : Nat) : Nat := Nat.min pct 255 * 65536 + reason % 256 * 256 + budget % 256

/-- One budget of R53: its number, the load and the capacity in the steady state, the largest load of a transition casement,
and the reason that its failure gives. -/
structure Budget where
  num : Nat
  cap : Nat
  steady : Nat
  trans : Nat
  reason : Nat
deriving DecidableEq, Repr

namespace Graph

/-! The transition between two configurations (R82 to R84). -/

/-- New samples that one new object adds to F (R91): its integer delay, 1 for a fraction, and its taps less one. -/
def refillOf (c : Cfg) (o : Obj) : Nat :=
  match o.1 with
  | 0 => ((sourceAt c o.2).map (fun (s : SourceCfg) => s.delay)).getD 0
  | 1 => 0
  | _ => match stripAt c o.2 with
    | some s => s.delayQ8 / 256 + (if s.frac ∧ s.delayQ8 % 256 ≠ 0 then 1 else 0) + (if s.segments = 0 then 0 else s.segments * 64 - 1)
    | none => 0

/-- F of a path, 0 where it holds nothing new (R91). -/
def refillWay (old c : Cfg) (s : Nat) (w : List Obj) : Nat :=
  let new := w.filter (newInstance old c)
  if new.isEmpty then 0 else (new.map (refillOf c)).sum + s

/-- The paths of the new configuration that matter to its refill holds: those of every sink, and those that end at a new
object that no sink hears. -/
def allWays (old c : Cfg) : List (List Obj) :=
  let ws := c.sinks.flatMap (sinkWays c)
  let objs := c.sources.map (fun s => ((0, s.num) : Obj)) ++ c.buses.map (fun b => (1, b.num)) ++ c.strips.map (fun s => (2, s.num))
  let lone := objs.filter (fun o => newInstance old c o && !ws.any (fun w => w.contains o))
  ws ++ lone.flatMap (fun o => if o.1 = 0 then [[o]] else ways c 4 o ++ [[o]])

/-- The new strips that lie last on a path, with the F that each is held for (R91): the largest of its paths, and also where no
sink hears the strip (DESIGN CHOICE, notes/assumptions/161.md). -/
def holds (old c : Cfg) (s : Nat) : List (Obj × Nat) :=
  let hs := (allWays old c).filterMap (fun w => (w.find? (newInstance old c)).map (fun o => (o, refillWay old c s w)))
  let os := (hs.map (·.1)).eraseDups
  os.map (fun o => (o, ((hs.filter (fun h => decide (h.1 = o))).map (·.2)).foldl Nat.max 0))

/-- An affected sink (R83): the sink in the new configuration, k, the casements of its crossfade, and T in samples. -/
structure Affected where
  sink : SinkCfg
  k : Nat
  cas : Nat
  len : Nat

/-- The path of a sink passes through a changed object in either configuration, or its feed changes (R82). -/
def isAffected (old c : Cfg) (a b : SinkCfg) : Bool :=
  decide (a.feedKind ≠ b.feedKind ∨ a.feed ≠ b.feed) ||
  (above old 4 (a.feedKind, a.feed)).any (changed old c) || (above c 4 (b.feedKind, b.feed)).any (changed old c)

def affected (old c : Cfg) : List Affected :=
  let s := rateS c.rate
  c.sinks.filterMap (fun (b : SinkCfg) =>
    match sinkAt old b.id with
    | none => none
    | some a =>
      if isAffected old c a b then
        let f := ((sinkWays c b).map (refillWay old c s)).foldl Nat.max 0
        let t := halfMsSamples (rampUnits b.sh.ramp) (rateHz c.rate)
        some ⟨b, ceilDiv f s, ceilDiv t s, t⟩
      else none)

/-- Sinks that the new configuration drops, with the casements over which they close (R85). -/
def dropped (old c : Cfg) : List (SinkCfg × Nat) :=
  (old.sinks.filter (fun (a : SinkCfg) => (sinkAt c a.id).isNone)).map (fun a =>
    (a, ceilDiv (halfMsSamples (rampUnits a.sh.ramp) (rateHz c.rate)) (rateS c.rate)))

/-- Casements over which a removed crosspoint fades (R76). -/
def xpFade (c : Cfg) (x : XpCfg) : Nat := ceilDiv (halfMsSamples (rampUnits x.ramp) (rateHz c.rate)) (rateS c.rate)

/-- Casements for which each old object runs on for an affected or dropped sink, or for a removed crosspoint, from n (R76, R83 to
R85): one that is changed or gone, and one that such an object feeds. -/
def oldUntil (old c : Cfg) : List (Obj × Nat) :=
  let gone := fun (o : Obj) => (above old 4 o).any (lostObj old c)
  (affected old c).flatMap (fun x =>
    match sinkAt old x.sink.id with
    | some a => ((above old 4 (a.feedKind, a.feed)).filter gone).map (fun o => (o, x.k + x.cas))
    | none => [])
  ++ (dropped old c).flatMap (fun x => ((above old 4 (x.1.feedKind, x.1.feed)).filter gone).map (fun o => (o, x.2)))
  ++ (removedXps old c).flatMap (fun (x : XpCfg) => ((above old 4 (Node.xpFeed x)).filter gone).map (fun o => (o, xpFade c x)))

/-- A crosspoint of the old configuration that the new one removes or replaces, with the casements of its fade (R76). -/
def oldXps (old c : Cfg) : List (Nat × Nat) := (removedXps old c).map (fun x => (x.entry, xpFade c x))

/-! Loads (R54). -/

/-- Lane-cycles per sample of an object's fixed work and sections. -/
def objCost (c : Cfg) (o : Obj) : Nat :=
  match o.1 with
  | 0 => 12 + 5 * ((sourceAt c o.2).map (fun (s : SourceCfg) => s.sections)).getD 0
  | 1 => 4 + 5 * ((busAt c o.2).map (fun (s : BusCfg) => s.sections)).getD 0
  | _ => 24 + 5 * ((stripAt c o.2).map (fun (s : StripCfg) => s.sections)).getD 0

/-- Lane-cycles of a work item over the objects and crosspoints that `po` and `px` pick, without its overhead. -/
def itemWork (c : Cfg) (i : ItemCfg) (po : Obj → Bool) (px : Nat → Bool) : Nat :=
  let s := rateS c.rate
  let objs := (i.ins.map (fun k => ((0, k) : Obj)) ++ i.buses.map (fun k => (1, k)) ++ i.outs.map (fun k => (2, k))).filter po
  let segs := i.segs.filter (fun e => po (2, e.1))
  let joins := (i.joins.filter (fun k => po (2, k))).length
  let xs := (i.xps.filter px).length
  s * (2 * xs + (objs.map (objCost c)).sum + 64 * (segs.map (·.2)).sum + joins)

/-! What the compiler's placement keeps to (R12, R55, R72, R114, R141). -/

/-- Lane-cycles that one work item may take (R55). -/
def itemCap (rate : Nat) : Nat := familyOf rate 38720 42257

/-- Bytes that an item writes to Fen in a casement (R114): blocks, states, histories, rings and partial sums. -/
def itemBytes (c : Cfg) (i : ItemCfg) : Nat :=
  let s := rateS c.rate
  let here := fun (slot item : Nat) => decide (slot = i.slot ∧ item = i.item)
  (i.ins.map (fun k => match sourceAt c k with
    | some x => 4 * s + 32 * (x.sections + 1) + (if x.fenClass then 4 * s else 0)
    | none => 0)).sum +
  (i.buses.map (fun k => match busAt c k with
    | some x => 4 * s + 32 * x.sections + (if x.hook then 4 * s else 0)
    | none => 0)).sum +
  (i.outs.map (fun k => match stripAt c k with
    | some x => 4 * s + 32 * x.sections + 32 + (if x.segments = 0 then 0 else 4 * s) + (if x.fenClass || x.dram || x.frac then 4 * s else 0)
    | none => 0)).sum +
  12 * s * ((c.psums.filter (fun (p : PsumCfg) => decide (p.src = i.die ∧ p.die = i.die) && here p.slot p.item)).length +
    (c.parts.filter (fun (p : PartCfg) => here p.slot p.item && i.segs.any (fun e => decide (e.1 = p.strip)) && !i.outs.contains p.strip)).length)

/-- A block is placed on a die. -/
def hasBlock (c : Cfg) (d : Nat) (o : Obj) : Bool := c.blocks.any (fun (b : BlockCfg) => decide (b.die = d ∧ b.kind = o.1 + 1 ∧ b.num = o.2))

/-- Items are numbered apart in their slot, lie within the caps, and run only strips and segments of their own die, and
crosspoints whose source or feeding bus has its strip there (R68). -/
def itemsPlaced (c : Cfg) : Bool :=
  decide ((c.items.map (fun (i : ItemCfg) => (i.die, i.slot, i.item))).eraseDups.length = c.items.length) &&
  c.items.all (fun (i : ItemCfg) =>
    decide (i.die < 6 ∧ i.slot < 8 ∧ i.item < 32768 ∧ 96 + itemWork c i (fun _ => true) (fun _ => true) ≤ itemCap c.rate ∧ itemBytes c i ≤ 8192) &&
    (itemStrips i ++ i.segs.map (fun e => ((2, e.1) : Obj))).all (fun o => decide (dieOf c o = some i.die)) &&
    i.xps.all (fun e => c.xpoints.any (fun (x : XpCfg) => decide (x.entry = e)) &&
      (c.xpoints.filter (fun (x : XpCfg) => decide (x.entry = e))).all (fun x =>
        decide (dieOf c (Node.xpFeed x) = some i.die) && hasBlock c i.die (Node.xpFeed x) &&
        ((i.buses.contains x.bus) || (
          c.psums.any (fun (p : PsumCfg) => decide (p.bus = x.bus ∧ p.src = i.die ∧ p.slot = i.slot ∧ p.item = i.item ∧ p.die = i.die)) &&
          c.psums.any (fun (p : PsumCfg) => decide (p.bus = x.bus ∧ p.src = i.die ∧ p.slot = i.slot ∧ p.item = i.item) && decide (dieOf c (1, x.bus) = some p.die)))))))

/-- Every strip and every crosspoint is in one item, its block is on its die, and the segments of every chain are its own: the
first item holds segment 0 onward and joins each later one (R141). -/
def objectsPlaced (c : Cfg) : Bool :=
  let objs : List Obj := c.sources.map (fun (s : SourceCfg) => (0, s.num)) ++ c.buses.map (fun (b : BusCfg) => (1, b.num)) ++
    c.strips.map (fun (s : StripCfg) => (2, s.num))
  let strips := c.items.flatMap itemStrips
  let entries := c.items.flatMap (fun (i : ItemCfg) => i.xps)
  objs.all (fun o => decide ((strips.filter (fun x => decide (x = o))).length = 1) && (dieOf c o).any (fun d => hasBlock c d o)) &&
  c.sources.all (fun (s : SourceCfg) => c.blocks.any (fun (b : BlockCfg) => decide (b.die = s.die ∧ b.kind = 0 ∧ b.num = s.num))) &&
  c.xpoints.all (fun (x : XpCfg) => decide ((entries.filter (fun e => decide (e = x.entry))).length = 1)) &&
  c.strips.all (fun (s : StripCfg) =>
    hasBlock c s.die (if s.inBus then 1 else 0, s.input) &&
    decide ((((c.items.flatMap (fun (i : ItemCfg) => i.segs)).filter (fun e => decide (e.1 = s.num))).map (·.2)).sum = s.segments) &&
    c.items.all (fun (i : ItemCfg) => !i.outs.contains s.num ||
      (decide (s.segments = 0) || i.segs.any (fun e => decide (e.1 = s.num ∧ 0 < e.2))) &&
      decide ((i.joins.filter (fun k => decide (k = s.num))).length = (laterRuns c s.num).length)) &&
    (laterRuns c s.num).all (fun r => c.parts.any (fun (p : PartCfg) => decide (p.strip = s.num ∧ p.slot = r.1.slot ∧ p.item = r.1.item))))

/-- An item sums into a bus of level 2, and it runs a bus strip of level 1. -/
def sumsLevel2 (c : Cfg) (i : ItemCfg) : Bool :=
  c.xpoints.any (fun (x : XpCfg) => i.xps.contains x.entry && decide (level c x.bus = 2)) || i.buses.any (fun b => decide (level c b = 2))
def runsLevel1 (c : Cfg) (i : ItemCfg) : Bool := i.buses.any (fun b => decide (level c b = 1))

/-- Every bus strip of level 1 runs before the sums into level 2 (R72): one item alone does both, and in a slot the other items of
level 1 stand before those of level 2. -/
def levelsPlaced (c : Cfg) : Bool :=
  let is := c.items.zipIdx
  is.all (fun a => !sumsLevel2 c a.1 || is.all (fun b => decide (a.2 = b.2) || !runsLevel1 c b.1 ||
    (!sumsLevel2 c b.1 && (decide (a.1.die ≠ b.1.die ∨ a.1.slot ≠ b.1.slot ∨ b.2 < a.2)))))

/-- Blocks that come to a die over one of its links, and partial sums (R12, R122). -/
def downBlocks (c : Cfg) (d l : Nat) : List BlockCfg :=
  c.blocks.filter (fun (b : BlockCfg) => decide (b.die = d ∧ b.link = l) &&
    (if b.kind = 0 then !(sourceAt c b.num).any (fun (s : SourceCfg) => decide (s.kind = 4 ∧ s.origin / 256 = d))
     else decide (dieOf c (b.kind - 1, b.num) ≠ some d)))
def downPsums (c : Cfg) (d l : Nat) : List PsumCfg :=
  c.psums.filter (fun (p : PsumCfg) => decide (p.die = d ∧ p.src ≠ d ∧ p.link = l))

/-- Blocks that leave a die: those that other dies hold, those of objects that feed sinks, and those of Reed programs that are
sources elsewhere. The drive die sends its decimators' blocks. -/
def upBlocks (c : Cfg) (d : Nat) : Nat :=
  if d = 6 then (c.sources.filter (fun (s : SourceCfg) => decide (s.kind = 3))).length
  else
    (c.blocks.filter (fun (b : BlockCfg) => decide (b.die ≠ d) &&
      (if b.kind = 0 then (sourceAt c b.num).any (fun (s : SourceCfg) => decide (s.kind = 4 ∧ s.origin / 256 = d))
       else decide (dieOf c (b.kind - 1, b.num) = some d)))).length +
    ((((c.sinks.filter (fun (s : SinkCfg) => decide (s.feedKind < 3))).map (fun s => ((s.feedKind, s.feed) : Obj))).eraseDups).filter
      (fun o => decide (dieOf c o = some d))).length
def upPsums (c : Cfg) (d : Nat) : Nat := (c.psums.filter (fun (p : PsumCfg) => decide (p.src = d ∧ p.die ≠ d))).length

/-- Blocks that the drive die takes: those of the objects that feed drive sinks. -/
def driveBlocks (c : Cfg) : Nat :=
  (((c.sinks.filter (fun (s : SinkCfg) => decide (s.id.kind = 3 ∧ s.feedKind < 3))).map (fun s => ((s.feedKind, s.feed) : Obj))).eraseDups).length

/-- The charges of the links and of the DRAM controller hold at least what the placement moves (R54): each block and partial sum on
the link on which it arrives, those that leave a die over its two links together, and the two transfers of each long delay line
(DESIGN CHOICE, notes/assumptions/178.md). -/
def chargesPlaced (c : Cfg) : Bool :=
  let on := fun (d l : Nat) (up : Bool) => c.links.filter (fun (x : LinkCfg) => decide (x.link = 0x48 + 2 * d + l ∧ x.up = up))
  let most := fun (ks : List Nat) => ks.foldl Nat.max 0
  let total := fun (d : Nat) (up : Bool) (g : LinkCfg → Nat) => most ((on d 0 up).map g) + most ((on d 1 up).map g)
  let s := rateS c.rate
  let longs := (c.strips.filter (fun (x : StripCfg) => x.dram)).length
  let dram := ((c.targets.filter (fun (t : TargetCfg) => decide (t.target = 0x62))).map (fun t =>
    (t.sizes.map (fun b => ceilDiv b 32)).sum)).sum
  (List.range 6).all (fun d => (List.range 2).all (fun l =>
      decide ((downBlocks c d l).length ≤ most ((on d l false).map (·.blocks)) ∧
        (downPsums c d l).length ≤ most ((on d l false).map (·.psums)))) &&
    decide (upBlocks c d ≤ total d true (·.blocks) ∧ upPsums c d ≤ total d true (·.psums))) &&
  decide (driveBlocks c ≤ total 6 false (·.blocks) ∧ upBlocks c 6 ≤ total 6 true (·.blocks) ∧
    longs * (ceilDiv (4 * s) 32 + ceilDiv (4 * s + 32) 32) ≤ dram)

/-- A placement as the compiler makes one (R12, R54, R55, R68, R72, R114, R141). -/
def placed (c : Cfg) : Bool := itemsPlaced c && objectsPlaced c && levelsPlaced c && chargesPlaced c

/-- What a configuration asks for, with its placement left out: two placements of one configuration agree in it (R61). -/
def plan (c : Cfg) : Cfg :=
  { bundled c with
    sources := (bundled c).sources.map (fun (s : SourceCfg) => { s with
      origin := if s.kind = 4 then s.origin % 64 else s.origin, die := 0, state := 0, ring := 0, loc0 := 0, loc1 := 0 })
    buses := c.buses.map (fun (b : BusCfg) => { b with die := 0, state := 0, loc0 := 0, loc1 := 0 })
    strips := c.strips.map (fun (s : StripCfg) => { s with
      die := 0, loc0 := 0, loc1 := 0, firLoc0 := 0, firLoc1 := 0, firHist := 0, ring := 0, chan := 0, window := 0, window2 := 0,
      state := 0, fenRing := 0 })
    rx := (bundled c).rx.map (fun (r : RxStreamCfg) => { r with ringBase := 0 })
    reeds := c.reeds.map (fun (g : ReedCfg) => { g with
      die := 0, core := 0, slot := 0, inFirst := 0, outFirst := 0, regionBase := 0, windows := [], inOffs := [], outOffs := [], progBase := 0 })
    reedImages := [], items := [], blocks := [], psums := [], parts := [], links := [], targets := [], dramBytes := 0, fenKib := [],
    steerLoc := [], refpol := [], staged := [], coeffs := [], taps := [], glides := [], zeros := [] }

/-- The overhead of an item of which old strips run on. -/
def itemOverhead (i : ItemCfg) (po : Obj → Bool) : Nat :=
  if i.ins.any (fun k => po (0, k)) || i.buses.any (fun k => po (1, k)) || i.outs.any (fun k => po (2, k))
    || i.segs.any (fun e => po (2, e.1)) then 96 else 0

/-- Steady load of the engine of a logical slot. -/
def engineSteady (c : Cfg) (d slot : Nat) : Nat :=
  ((c.items.filter (fun (i : ItemCfg) => decide (i.die = d ∧ i.slot = slot))).map (fun i =>
    96 + itemWork c i (fun _ => true) (fun _ => true))).sum

/-- An old crosspoint is computed in casement `t` of a transition (R76, R84): it fades, or it feeds an old bus. -/
def oldXpRuns (old : Cfg) (objs : List (Obj × Nat)) (xps : List (Nat × Nat)) (t x : Nat) : Bool :=
  xps.any (fun e => decide (e.1 = x ∧ t < e.2)) ||
  (old.xpoints.any (fun (y : XpCfg) => decide (y.entry = x) && objs.any (fun e => decide (e.1 = (1, y.bus) ∧ t < e.2))))

/-- Engine load that casement `t` of a transition adds. -/
def engineExtra (old c : Cfg) (spans : List Affected) (objs : List (Obj × Nat)) (xps : List (Nat × Nat)) (t d slot : Nat) : Nat :=
  let here := fun (i : ItemCfg) => decide (i.die = d ∧ i.slot = slot)
  let old_ := ((old.items.filter here).map (fun i =>
    let po := fun (o : Obj) => objs.any (fun e => decide (e.1 = o ∧ t < e.2))
    itemWork { old with rate := c.rate } i po (oldXpRuns old objs xps t) + itemOverhead i po)).sum
  let mixes := (spans.filter (fun x => decide (x.k ≤ t ∧ t < x.k + x.cas) &&
    (c.items.filter here).any (fun i => match x.sink.feedKind with
      | 0 => i.ins.contains x.sink.feed
      | 1 => i.buses.contains x.sink.feed
      | _ => i.outs.contains x.sink.feed))).length
  old_ + 2 * rateS c.rate * mixes

/-- Steady load of a Reed core, and what the old programs of a transition add that the old routes run through (R82, R84). -/
def reedSteady (c : Cfg) (d k : Nat) : Nat :=
  ((c.reeds.filter (fun (g : ReedCfg) => decide (g.die = d ∧ g.core = k))).map (·.budget)).sum
def reedExtra (old c : Cfg) (objs : List (Obj × Nat)) (t d k : Nat) : Nat :=
  ((old.reeds.filter (fun (g : ReedCfg) => decide (g.die = d ∧ g.core = k) && (g.hook || !c.reeds.contains g) &&
    objs.any (fun e => (reedObjs old g).contains e.1 && decide (t < e.2)))).map (·.budget)).sum

/-- Steady load of one direction of a link, and what the old routes add: what the configuration gives, and toward an engine die at
least the blocks and partial sums of the old placement that run on (R84). -/
def linkSteady (c : Cfg) (l : LinkCfg) : Nat := rateS c.rate * (4 * l.blocks + 12 * l.psums)
def linkExtra (old c : Cfg) (objs : List (Obj × Nat)) (l : LinkCfg) (t : Nat) : Nat :=
  let given := ((l.old.filter (fun e => decide (e.1 ≤ t ∧ t < e.2.1))).map (fun e => rateS c.rate * (4 * e.2.2.1 + 12 * e.2.2.2))).sum
  let runs := fun (o : Obj) => objs.any (fun e => decide (e.1 = o ∧ t < e.2))
  let d := (l.link - 0x48) / 2
  let moved := if l.up then 0 else rateS c.rate * (4 * ((downBlocks old d (l.link % 2)).filter (fun (b : BlockCfg) =>
      runs (b.kind - 1, b.num))).length + 12 * ((downPsums old d (l.link % 2)).filter (fun (p : PsumCfg) => runs (1, p.bus))).length)
  Nat.max given moved

/-- Beats of transfers (R54). -/
def beats (sizes : List Nat) : Nat := (sizes.map (fun b => ceilDiv b 32)).sum

/-- Bursts of the long delay lines on a DRAM channel, and of the old lines that run on. -/
def dramSteady (c : Cfg) (ch : Nat) : Nat :=
  longBursts (rateS c.rate) * (c.strips.filter (fun (s : StripCfg) => s.dram && decide (s.chan = ch))).length
def dramExtra (old c : Cfg) (objs : List (Obj × Nat)) (t ch : Nat) : Nat :=
  longBursts (rateS c.rate) * (old.strips.filter (fun (s : StripCfg) => s.dram && decide (s.chan = ch) &&
    objs.any (fun e => decide (e.1 = (2, s.num) ∧ t < e.2)))).length

end Graph

namespace Node

/-- A slot has an engine that runs it (R61, R117). -/
def slotUsable (n : Node) (d slot : Nat) : Bool :=
  n.boot.engPresent.getLsbD d &&
    (decide ((n.engine d slot).state = .active) || decide ((n.die d).spareFor = some slot))

/-- Capacity of a link: halved while it is narrow, none while it is down (R124). `node` 6 is the drive die. -/
def linkCap (n : Node) (rate node l : Nat) : Nat :=
  let x := n.link node l
  if x.down then 0 else if x.narrow then capLink rate / 2 else capLink rate

/-- A configuration with the ramps that its sinks' Shutters and its crosspoints have in force, in place of the configured ones, where
the settings do not change between `old` and `c` (R82 to R85). -/
def withRamps (n : Node) (old c x : Cfg) : Cfg :=
  let same := fun (i : SinkId) => match Graph.sinkAt old i, Graph.sinkAt c i with
    | some a, some b => decide (a.sh = b.sh)
    | some _, none => true
    | _, _ => false
  { x with
    sinks := x.sinks.map (fun (s : SinkCfg) =>
      if same s.id && (n.shut (sinkShut s.id)).present then { s with sh := { s.sh with ramp := (n.shut (sinkShut s.id)).cfg.ramp } } else s)
    xpoints := x.xpoints.map (fun (e : XpCfg) =>
      let w := n.entryWord n.xpt.active e.entry 0
      if (w &&& shapeMask).toNat = xpShape e ∧ w.getLsbD 31 then { e with ramp := (n.entryWord n.xpt.active e.entry 8).toNat % 4096 }
      else e) }

/-- Every budget of R53 with its loads for a configuration, and for the transition from `old` where one is given. A slot that no
engine runs has nothing to run for an old route (R61). -/
def budgets (n : Node) (old : Option Cfg) (c : Cfg) : List Budget :=
  let r := c.rate
  let o := match old with
    | some x => n.withRamps x c x
    | none => {}
  let new := n.withRamps o c c
  let spans := if old.isSome then Graph.affected o new else []
  let objs := if old.isSome then Graph.oldUntil o new else []
  let xps := if old.isSome then Graph.oldXps o c else []
  let times := if old.isNone then [] else (0 :: spans.map (·.k)) ++ c.links.flatMap (fun (l : LinkCfg) => l.old.map (·.1))
    ++ c.targets.flatMap (fun (t : TargetCfg) => t.old.map (·.1))
  let most := fun (steady : Nat) (extra : Nat → Nat) => (times.map (fun t => steady + extra t)).foldl Nat.max steady
  let engines := (List.range 48).map (fun b =>
    let st := Graph.engineSteady c (b / 8) (b % 8)
    (⟨b, if n.slotUsable (b / 8) (b % 8) then capEngine r else 0, st,
      most st (fun t => if n.slotUsable (b / 8) (b % 8) then Graph.engineExtra o c spans objs xps t (b / 8) (b % 8) else 0),
      engineLoad⟩ : Budget))
  let reeds := (List.range 24).map (fun b =>
    let st := Graph.reedSteady c (b / 4) (b % 4)
    (⟨0x30 + b, if (n.reed ⟨Fin.ofNat 6 (b / 4), f4 b⟩).retired then 0 else capReed r, st,
      most st (fun t => Graph.reedExtra o c objs t (b / 4) (b % 4)), reedLoad⟩ : Budget))
  let links := (List.range 14).map (fun b =>
    let ls := c.links.filter (fun (l : LinkCfg) => decide (l.link = 0x48 + b))
    let st := (ls.map (Graph.linkSteady c)).foldl Nat.max 0
    let tr := (ls.map (fun l => most (Graph.linkSteady c l) (Graph.linkExtra o c objs l))).foldl Nat.max 0
    (⟨0x48 + b, n.linkCap r (b / 2) (b % 2), st, tr, lintelLoad⟩ : Budget))
  let targets := (List.range 5).map (fun b =>
    let ts := c.targets.filter (fun (t : TargetCfg) => decide (t.target = 0x60 + b))
    let st := (ts.map (fun t => Graph.beats t.sizes)).sum + (if b = 0 then ringBeats r else 0)
    (⟨0x60 + b, capTarget r, st, most st (fun u =>
      (ts.flatMap (fun t => t.old.filter (fun e => decide (e.1 ≤ u ∧ u < e.2.1)))).map (fun e => Graph.beats e.2.2) |>.sum),
      matrixLoad⟩ : Budget))
  let chans := (List.range 2).map (fun b =>
    let st := Graph.dramSteady c b + ringBursts
    (⟨0x70 + b, capDram r, st, most st (fun t => Graph.dramExtra o c objs t b), dramLoad⟩ : Budget))
  engines ++ reeds ++ links ++ targets ++ chans

/-- Load in percent and in permille of a capacity, rounded down (DESIGN CHOICE, notes/assumptions/40.md). -/
def loadShare (load cap per : Nat) : Nat := if cap = 0 then (if load = 0 then 0 else 255 * per) else load * per / cap

/-- The budget of greatest load, by its share of the capacity, lowest number first; `f` picks the load. -/
def busiest (bs : List Budget) (f : Budget → Nat) : Option Budget :=
  bs.foldl (fun best b => match best with
    | none => some b
    | some a => if loadShare (f a) a.cap 1000000000 < loadShare (f b) b.cap 1000000000 then some b else some a) none

/-- The refusal that the loads give (R56, R59): of the budgets over their usable share in the steady state, else in the
transition, the one of greatest load. -/
def loadRefusal (bs : List Budget) : Option Nat :=
  match busiest (bs.filter (fun b => decide (usableShare b.cap < b.steady))) (·.steady) with
  | some b => some (detailOf (loadShare b.steady b.cap 100) b.reason b.num)
  | none => match busiest (bs.filter (fun b => decide (usableShare b.cap < b.trans))) (·.trans) with
    | some b => some (detailOf (loadShare b.trans b.cap 100) (b.reason + 128) b.num)
    | none => none

/-- The DETAIL of a configuration that fits: its highest load over the steady state and the transition (R57). -/
def highestLoad (bs : List Budget) : Nat :=
  match busiest bs (fun b => Nat.max b.steady b.trans) with
  | some b => detailOf (loadShare (Nat.max b.steady b.trans) b.cap 100) (if b.steady < b.trans then 128 else 0) b.num
  | none => 0

/-- Busiest path engine's steady load in percent (CAS.LOAD.ADMITTED). -/
def admittedPct (bs : List Budget) : Nat :=
  Nat.min 255 (((bs.filter (fun b => decide (b.num < 0x30))).map (fun b => loadShare b.steady b.cap 100)).foldl Nat.max 0)

/-- A structural word of a page as the configuration stages it, else as it is in force (R255). -/
def stagedWord (n : Node) (c : Cfg) (p : Page) (off idx : Nat) : Word :=
  match c.staged.find? (fun e => decide (e.1 = p ∧ e.2.1 = off ∧ e.2.2.1 = idx)) with
  | some e => e.2.2.2
  | none => Sparse.get resetKey n.active (regKey p off idx)

/-- DIV of a port code is permitted at a rate (R261, R264). -/
def divAllowed (rate code : Nat) : Bool := decide (divOf code ≤ rateClass rate)

/-- Slots, width and load limit of a TDM port (R264). -/
def tdmSlots (w : Word) : Nat := wordField w Fld.tdmCfgSlotsM1 + 1
def tdmWidth (w : Word) : Nat := match wordField w Fld.tdmCfgWidth with | 0 => 16 | 1 => 24 | _ => 32
def tdmFits (rate : Nat) (w : Word) : Bool :=
  let dv := wordField w Fld.tdmCfgDiv
  divAllowed rate dv && decide (tdmSlots w * tdmWidth w * rateHz rate ≤ divOf dv * familyOf rate 49152000 45158400)

/-- Ports of a stream: its pair in dual mode, its one port in single mode (R187). -/
def rxPorts (r : RxStreamCfg) : List Nat := if r.dual then [r.port / 2 * 2, r.port / 2 * 2 + 1] else [r.port]
def txPorts (r : TxStreamCfg) : List Nat := if r.dual then [r.port / 2 * 2, r.port / 2 * 2 + 1] else [r.port]

/-- Bytes that a stream's frames take on the line in a casement, with preamble and gap (R187); an interop stream of 1 ms
packets sends one frame in eight casements. -/
def lineBytes8 (frame ptime : Nat) : Nat := if ptime = 1 then frame + 20 else 8 * (frame + 20)

/-- A port direction is loaded above 88 % of its line rate (R187). -/
def portOver (n : Node) (c : Cfg) (k : Nat) : Bool :=
  let line := if n.flag (macPage k) Fld.macCfgSpeed then 25000000000 else 10000000000
  let exceeds := fun (b8 : Nat) => decide (line * 88 < b8 * rateCr c.rate * 100)
  exceeds (((c.rx.filter (fun r => (rxPorts r).contains k)).map (fun r => lineBytes8 r.frameBytes r.ptime)).sum) ||
  exceeds (((c.tx.filter (fun r => (txPorts r).contains k)).map (fun r => lineBytes8 r.frameBytes r.ptime)).sum)

/-- MAC.MAXLEN as it acts (R212). -/
def frameMax (n : Node) (k : Nat) : Nat := Nat.max 1518 (Nat.min 16000 (n.fld (macPage k) Fld.macMaxlenBytes))

/-- Network channels of a direction at a rate (R185). -/
def netChannels (rate : Nat) : Nat := 4096 / rateClass rate

/-- A stream's format is outside the limits (R185, R197). -/
def formatBad (rate : Nat) (interop : Bool) (channels ptime : Nat) : Bool :=
  if interop then decide (rate % 2 = 0 ∨ channels = 0 ∨ (if ptime = 1 then 8 else 64) < channels)
  else decide (channels = 0 ∨ 128 < channels ∨ 1536 < channels * rateS rate)

/-- Bytes of a stream's Sluice ring (R197). -/
def ringBytes (rate : Nat) (r : RxStreamCfg) : Nat :=
  r.channels * (if r.interop then 6 else rateS rate) * 4 * (r.depth + 2)

/-- The streams break a limit of R185 to R187, R197, R206 or R212. -/
def streamsBad (n : Node) (c : Cfg) : Bool :=
  let cap := netChannels c.rate
  let clash := fun (ranges : List (Nat × Nat)) =>
    ((List.range ranges.length).zip ranges).any (fun e => (ranges.drop (e.1 + 1)).any (fun b =>
      rangesMeet e.2.1 e.2.2 b.1 b.2))
  let paired := fun (dual : Bool) (port : Nat) => !dual || n.flag (macPage (port / 2 * 2)) Fld.macCfgPaired
  decide (512 < c.rx.length ∨ 256 < c.tx.length) || c.rx.any (fun r => decide (512 ≤ r.num)) || c.tx.any (fun r => decide (256 ≤ r.num)) ||
  c.rx.any (fun r => formatBad c.rate r.interop r.channels r.ptime || decide (cap < r.first + r.channels ∨ 64 < r.depth
    ∨ r.depth < (if r.interop ∧ r.ptime = 1 then 10 else 2)) || !paired r.dual r.port) ||
  c.tx.any (fun r => formatBad c.rate r.interop r.channels r.ptime || decide (cap < r.first + r.channels)
    || !paired r.dual r.port || (txPorts r).any (fun k => decide (n.frameMax k < r.frameBytes))) ||
  clash (c.rx.map (fun r => (r.first, r.channels))) || clash (c.tx.map (fun r => (r.first, r.channels))) ||
  [0, 1, 2, 3].any (fun k => n.portOver c k)

/-- A configuration without its sinks that have no feed: such a sink plays silence with its Shutter closed (R71), and it is
no object of the configuration (DEDUCED, notes/assumptions/43.md). -/
def fedOnly (c : Cfg) : Cfg := { c with sinks := c.sinks.filter (fun (s : SinkCfg) => decide (s.feedKind < 3)) }

/-- Limits of an origin index (R69). -/
def originBad (n : Node) (c : Cfg) (s : SourceCfg) : Bool :=
  match s.kind with
  | 0 => decide (netChannels c.rate ≤ s.origin)
  | 1 => decide (32 ≤ s.origin)
  | 2 => decide (256 ≤ s.origin ∨ tdmSlots (n.stagedWord c (tdmPage (s.origin / 32)) 0x040 0) ≤ s.origin % 32)
  | 3 => decide (64 ≤ s.origin)
  | 4 => decide (6 * 256 ≤ s.origin)
  | _ => true

/-- Limits of a sink (R68, R71, R264). -/
def sinkBad (n : Node) (c : Cfg) (s : SinkCfg) : Bool :=
  (match s.id.kind with
   | 0 => decide (netChannels c.rate ≤ s.id.num)
   | 1 => decide (32 ≤ s.id.num)
   | 2 => decide (256 ≤ s.id.num ∨ tdmSlots (n.stagedWord c (tdmPage (s.id.num / 32)) 0x040 0) ≤ s.id.num % 32)
   | 3 => decide (192 ≤ s.id.num ∨ s.feedKind < 2)
   | _ => true) ||
  (match s.feedKind with
   | 0 => (Graph.sourceAt c s.feed).isNone
   | 1 => (Graph.busAt c s.feed).isNone
   | 2 => (Graph.stripAt c s.feed).isNone
   | _ => false) || decide (255 < s.bundle)

/-- A configured delay outside the range of its class (R145). -/
def delayBad (s : StripCfg) : Bool :=
  let cap := delayCap true (if s.dram then 2 else if s.fenClass then 1 else 0)
  decide (cap < s.delayQ8 / 256 ∨ (s.frac ∧ cap ≠ 0 ∧ cap * 256 < s.delayQ8))

/-- A feed that names an object that the configuration does not hold (R71). -/
def feedMissing (c : Cfg) (isBus : Bool) (num : Nat) : Bool :=
  if isBus then (Graph.busAt c num).isNone else (Graph.sourceAt c num).isNone

/-- A TDM port that the configuration stages or plays through, or that runs (R264). -/
def tdmUsed (n : Node) (c : Cfg) (k : Nat) : Bool :=
  (n.hdr (tdmPage k)).active || c.staged.any (fun e => decide (e.1 = tdmPage k)) ||
  c.sources.any (fun (s : SourceCfg) => decide (s.kind = 2 ∧ s.origin / 32 = k)) ||
  c.sinks.any (fun (s : SinkCfg) => decide (s.id.kind = 2 ∧ s.id.num / 32 = k))

/-- An object limit is exceeded, other than those of crosspoints and Sluice rings (R68 to R71, R145, R255, R264, R270)
(DESIGN CHOICE, notes/assumptions/42.md). -/
def objectsBad (n : Node) (c : Cfg) : Bool :=
  let origins := c.sources.map (fun s => (s.kind, s.origin))
  decide (4096 < c.sources.length ∨ 1024 < c.buses.length ∨ 1024 < c.strips.length ∨ 255 < c.bundles.length
    ∨ origins.eraseDups.length < origins.length) ||
  c.sources.any (fun (s : SourceCfg) => decide (4096 ≤ s.num ∨ 8 < s.sections ∨ 255 < s.bundle
    ∨ delayCap false (if s.fenClass then 1 else 0) < s.delay) || n.originBad c s) ||
  c.buses.any (fun (b : BusCfg) => decide (1024 ≤ b.num ∨ 16 < b.sections)) ||
  c.strips.any (fun (s : StripCfg) => decide (1024 ≤ s.num ∨ 32 < s.sections) || delayBad s || feedMissing c s.inBus s.input) ||
  c.sinks.any (n.sinkBad c) ||
  c.bundles.any (fun (b : BundleCfg) => decide (b.num = 0 ∨ 255 < b.num)) ||
  c.xpoints.any (fun (x : XpCfg) => feedMissing c x.fromBus x.source || feedMissing c true x.bus) ||
  c.reeds.any (fun (g : ReedCfg) => g.feeds.any (fun f => feedMissing c (decide (f.1 = 1)) f.2)) ||
  n.streamsBad c ||
  (List.range 16).any (fun k => !divAllowed c.rate (wordField (n.stagedWord c (aesPage k) 0x040 0) Fld.aesCfgTxDiv)) ||
  (List.range 8).any (fun k => n.tdmUsed c k && !tdmFits c.rate (n.stagedWord c (tdmPage k) 0x040 0)) ||
  c.staged.any (fun e => decide (e.1 = decPage ∧ e.2.1 = 0x044 ∧ wordField e.2.2.2 Fld.decCfgPreset = 3))

/-- The first die that the configuration needs and the census lacks (R59, R255): 0x80 + die, or 0x86. -/
def dieMissing (n : Node) (c : Cfg) : Option Nat :=
  let origin := c.sources.filterMap (fun (s : SourceCfg) => if s.kind = 4 then some (s.origin / 256) else none)
  let dies := origin ++ c.sources.map (·.die) ++ c.buses.map (·.die) ++ c.strips.map (·.die) ++ c.items.map (·.die)
    ++ c.reeds.map (·.die) ++ c.reedImages.map (·.die)
  let drive := c.sources.any (fun (s : SourceCfg) => decide (s.kind = 3)) || c.sinks.any (fun (s : SinkCfg) => decide (s.id.kind = 3))
    || c.staged.any (fun e => decide (e.1.block = .dec))
  match (List.range 6).find? (fun d => dies.contains d && !n.boot.engPresent.getLsbD d) with
  | some d => some (0x80 + d)
  | none => if drive && !n.boot.drvPresent then some 0x86 else none

/-- A feed from bus to bus breaks R72. -/
def busesBad (c : Cfg) : Bool :=
  c.xpoints.any (fun (x : XpCfg) => x.fromBus && (decide (x.source = x.bus) || decide (Graph.level c x.source = 2)))

/-- Bytes of the Sluice that are not in retired banks (R197, R203). -/
def sluiceFree (n : Node) : Nat := 262144 * ((List.range 8).filter (fun b => !n.str.retired.getLsbD b)).length

/-- Bytes of DRAM that the node reserves for the directory: 128 MiB while it may hold lease 65, as holder or as mirror, by the
marks in force or by those that the configuration stages (R17, R337). -/
def dirBytes (n : Node) (c : Cfg) : Nat :=
  let marks := n.stagedWord c hngPage (Fld.hngEligLease 2).off 0
  if n.heldLeases.getLsbD 65 ∨ (n.act hngPage (Fld.hngEligLease 2)).testBit 1 ∨ (wordField marks (Fld.hngEligLease 2)).testBit 1
  then 134217728 else 0

/-- A placement as the compiler makes one on this node: every delay ring in DRAM lies wholly in one rank's window, below the
directory's bytes where it is placed (R17, R301). -/
def placed (n : Node) (c : Cfg) : Bool :=
  Graph.placed c &&
  c.strips.all (fun (s : StripCfg) => !s.dram ||
    decide (s.ring / n.rankSize = (s.ring + 1052671) / n.rankSize ∧ s.ring + 1052672 + n.dirBytes c ≤ n.dramTop - dramBase))

/-- The refusal that the checks before the loads give (R59); where several fail, the order of this list decides
(DESIGN CHOICE, notes/assumptions/41.md). -/
def checkRefusal (n : Node) (c : Cfg) : Option Nat :=
  if n.objectsBad c then some (detailOf 0 objectLimit 0xFF)
  else if 16384 < c.xpoints.length ∨ c.xpoints.any (fun (x : XpCfg) => decide (16384 ≤ x.entry)) then some (detailOf 0 objectLimit 0x63)
  else if n.sluiceFree < (c.rx.map (ringBytes c.rate)).sum then some (detailOf 0 objectLimit 0x61)
  else match n.dieMissing c with
  | some b => some (detailOf 0 dieAbsent b)
  | none =>
    if busesBad c then some (detailOf 0 busGraph 0xFF)
    else match (List.range 6).find? (fun d => decide (n.fenKibFree d < Graph.fenKibOf c d)) with
    | some d => some (detailOf 0 fenSpace (0x80 + d))
    | none =>
      match (List.range 6).find? (fun d => decide (poolSegments c.rate <
          ((c.strips.filter (fun (s : StripCfg) => decide (s.die = d))).map (·.segments)).sum)) with
      | some d => some (detailOf 0 firPool (0x80 + d))
      | none =>
        match reedBad c.reeds c.reedImages with
        | some k => some (detailOf 0 reedImageBad (0x30 + k))
        | none =>
          match c.reeds.find? (fun (g : ReedCfg) => decide (usableShare (capReed c.rate) < g.budget)) with
          | some g => some (detailOf 0 itemTooLarge (0x30 + g.die * 4 + g.core))
          | none =>
            let need := Graph.dramBytesOf c + n.dirBytes c
            if n.dramTop < dramBase + need then some (detailOf (loadShare need (n.dramTop - dramBase) 100) dramLoad 0x62) else none

/-- The reason of a DETAIL is a load code 0x01 to 0x05 (R59). -/
def loadReason (detail : Nat) : Bool := decide (1 ≤ detail / 256 % 128 ∧ detail / 256 % 128 ≤ 5)

/-- The result of admission (R56 to R59): the refusal's DETAIL or none, the DETAIL of the highest load, and the loads of
every budget in permille, steady and transition. -/
structure Verdict where
  refusal : Option Nat
  detail : Nat
  loads : List (Nat × Nat × Nat)
  pct : Nat

def admission (n : Node) (old : Option Cfg) (c : Cfg) : Verdict :=
  let bs := n.budgets old (fedOnly c)
  let loads := bs.map (fun b => (b.num, Nat.min 65535 (loadShare b.steady b.cap 1000), Nat.min 65535 (loadShare b.trans b.cap 1000)))
  match n.checkRefusal c with
  | some d => ⟨some d, d, if loadReason d then loads else [], 0⟩
  | none =>
    match loadRefusal bs with
    | some d => ⟨some d, d, loads, admittedPct bs⟩
    | none => ⟨none, highestLoad bs, loads, admittedPct bs⟩

/-! Latency (R66, R67, R256). -/

/-- Origin term of a source in samples, the gathering casement included. -/
def originTerm (n : Node) (c : Cfg) (s : SourceCfg) : Nat :=
  let sp := rateS c.rate
  match s.kind with
  | 0 => match Graph.rxAt c s.origin with
    | some r => r.depth * sp + (if r.interop then interopDelay c.rate else 0)
    | none => 2 * sp
  | 1 =>
    let w := n.stagedWord c (aesPage (s.origin / 2)) 0x040 0
    (if wordField w Fld.aesCfgRxSync = 1 then 4 else 48 * rateClass c.rate) + sp
  | 2 =>
    let w := n.stagedWord c (tdmPage (s.origin / 32)) 0x040 0
    let dv := divOf (wordField w Fld.tdmCfgDiv)
    portTerm c.rate dv + (if wordField w Fld.tdmCfgMaster = 1 then 0 else 2 * dv) + sp
  | 3 => decimatorDelay (wordField (n.stagedWord c decPage 0x044 s.origin) Fld.decCfgPreset) c.rate + sp
  | _ => sp
where
  interopDelay (rate : Nat) : Nat := if rateClass rate = 2 then 16 else if rateClass rate = 4 then 40 else 0

/-- Sink term in samples. -/
def sinkTerm (n : Node) (c : Cfg) (s : SinkId) : Nat :=
  match s.kind with
  | 0 => match Graph.txAt c s.num with
    | some t => if t.interop then originTerm.interopDelay c.rate else 0
    | none => 0
  | 1 => portTerm c.rate (divOf (wordField (n.stagedWord c (aesPage (s.num / 2)) 0x040 0) Fld.aesCfgTxDiv))
  | 2 =>
    let w := n.stagedWord c (tdmPage (s.num / 32)) 0x040 0
    let dv := divOf (wordField w Fld.tdmCfgDiv)
    portTerm c.rate dv + (if wordField w Fld.tdmCfgMaster = 1 then 0 else 2 * dv)
  | _ => 2

/-- Configured delay of an object in 1/256 sample; a fraction counts only where FRAC is 1 (R145). -/
def cfgDelay (c : Cfg) (o : Obj) : Nat :=
  match o.1 with
  | 0 => ((Graph.sourceAt c o.2).map (fun (s : SourceCfg) => s.delay * 256)).getD 0
  | 1 => 0
  | _ => ((Graph.stripAt c o.2).map (fun (s : StripCfg) => if s.frac then s.delayQ8 else s.delayQ8 / 256 * 256)).getD 0

/-- Latency of one path in 1/256 sample (R66); `delay` gives the delay of each strip. -/
def wayLatency (n : Node) (c : Cfg) (delay : Obj → Nat) (s : SinkId) (w : List Obj) : Nat :=
  let sp := rateS c.rate
  let hooks := (w.filter (fun o => decide (o.1 = 1) && ((Graph.busAt c o.2).map (·.hook)).getD false)).length
  let org := match w.getLast? with
    | some o => ((Graph.sourceAt c o.2).map (n.originTerm c)).getD 0
    | none => 0
  (org + sp + hooks * sp + n.sinkTerm c s) * 256 + (w.map delay).sum

/-- CAS.LAT_VAL for a path select word (R67): 0 where the source does not reach the sink. -/
def latencyWord (n : Node) (c : Cfg) (delay : Obj → Nat) (sel : Word) : Word :=
  let kind := wordField sel Fld.casLatSelSinkKind
  let sink : SinkId := ⟨kind, wordField sel Fld.casLatSelSink⟩
  let src := wordField sel Fld.casLatSelSource
  if 3 < kind then 0
  else match Graph.sinkAt c sink with
  | none => 0
  | some s =>
    let ls := ((Graph.sinkWays c s).filter (fun w => decide (w.getLast? = some (0, src)))).map (n.wayLatency c delay sink)
    match ls with
    | [] => 0
    | l :: rest =>
      let top := rest.foldl Nat.max l
      BitVec.ofNat 32 (2 ^ 31 + (if rest.all (fun x => decide (x = l)) then 0 else 2 ^ 30) + top % 2 ^ 28)

/-- Delay targets in force (R67, R152). -/
def delayNow (n : Node) (o : Obj) : Nat :=
  match o.1 with
  | 0 => (n.strip 1 o.2).target
  | 1 => 0
  | _ => (n.strip 3 o.2).target

/-- CAS.LAT_VAL of the configuration in force. -/
def latVal (n : Node) : Word :=
  if n.rt.inForce then n.latencyWord { n.rt.cfg with staged := [], rate := n.rate } n.delayNow (n.reg casPage 0x06C) else 0

end Node

end Sys2Proof.Machine
end

