-- ==== Sys2Proof/Machine/Hinge.lean ====
section
/-! DEFINITION. Hinge pairs and leases (R332 to R343): pair messages and digests, renewal, fencing, takeover, claims, duty
conflicts and the hinge wire, and the commands of the family that are events. -/

namespace Sys2Proof.Machine

open Sys2Proof (Word Byte Sparse Page Block Die Port Src PairMsg)

namespace Node

/-- The casement that the hinge rules count (R327). -/
def hngNow (n : Node) : Nat := n.sil.index

/-- Pairing runs: PARTNER is set and the page is Active, or its last fences have not completed (HNG.STAT.PAIRED)
(DEDUCED, notes/assumptions/111.md). -/
def paired (n : Node) : Bool := ((n.hdr hngPage).active || (n.hdr hngPage).busy) && decide (n.act hngPage Fld.hngPartnerEid ≠ 0)

/-- TERM and RENEW as they act (R339; outside their ranges DEDUCED, notes/assumptions/122.md). -/
def hngTerm (n : Node) : Nat := Nat.min 1024 (Nat.max 16 (n.act hngPage Fld.hngTermTerm))
def hngRenew (n : Node) : Nat := Nat.min (n.hngTerm / 4) (Nat.max 1 (n.act hngPage Fld.hngTermRenew))

/-- The leases that three words hold. -/
def leaseBits (ws : List Word) : BitVec 66 :=
  BitVec.ofNat 66 ((ws.getD 0 0).toNat + (ws.getD 1 0).toNat * 2 ^ 32 + (ws.getD 2 0).toNat % 4 * 2 ^ 64)

/-- The words that hold leases. -/
def leaseWords (b : BitVec 66) : List Word := [b.setWidth 32, (b >>> 32).setWidth 32, (b >>> 64).setWidth 32]

/-- The leases that the node may hold (R337). -/
def eligible (n : Node) : BitVec 66 :=
  leaseBits [BitVec.ofNat 32 (n.act hngPage (Fld.hngEligLease 0)), BitVec.ofNat 32 (n.act hngPage (Fld.hngEligLease 1)),
    BitVec.ofNat 32 (n.act hngPage (Fld.hngEligLease 2))]

/-- The eligible leases that no partner marks too: the node holds them from its first casement and never fences them (R337). -/
def unpairedLeases (n : Node) : BitVec 66 :=
  n.eligible &&& ~~~(if n.act hngPage Fld.hngPartnerEid = 0 then 0 else n.hng.partnerMarks)


/-- The numbers of the leases in a set. -/
def leaseNums (b : BitVec 66) : List Nat := (List.range 66).filter (fun k => b.getLsbD k)

def wireOn (n : Node) : Bool := decide (n.act hngPage Fld.hngCfgWireEn = 1)

/-- A frame is sent on HINGE_OUT where the wire is in use (R342). -/
def sendFrame (n : Node) (type tseq : Nat) : Node :=
  if n.wireOn then { n with hng := { n.hng with wireSent := some (hingeFrame type tseq) } } else n

/-- A lease is fenced (R340): a drive lease's channels fence; PG_IRQ bit 3 is set. -/
def fenceLease (n : Node) (k : Nat) : Node :=
  if n.dutyLeases.getLsbD k then
    let n := { n with hng := { n.hng with
      fencing := n.hng.fencing ||| (1#66 <<< k), dutyFenced := if k < 64 then n.hng.dutyFenced else n.hngNow } }
    (if k < 64 then n.fenceGroup k else n).irq hngPage 3
  else n

/-- Channels in STANDBY and HOLD follow the leases (R296). -/
def leasesFollow (n : Node) : Node :=
  if n.boot.drvPresent then (n.drive.ch.map (·.1)).foldl (fun m c => m.leaseChan c) n else n

/-- DUTY messages for leases 64 and 65 that the node holds (R338), then every TERM casements. -/
def announceDuties (n : Node) (ls : List Nat) : Node :=
  let now := n.hngNow
  let ds := (ls.filter (fun k => n.dutyLeases.getLsbD k && decide (64 ≤ k))).map (fun k => (k, now))
  if ds.isEmpty then n
  else { n with hng := { n.hng with
    dutySent := ds
    duty64 := if ds.any (fun d => decide (d.1 = 64)) then n.hngTerm else n.hng.duty64
    duty65 := if ds.any (fun d => decide (d.1 = 65)) then n.hngTerm else n.hng.duty65 } }

/-- The node takes leases: a new term begins (DEDUCED, notes/assumptions/122.md), duties are announced and channels in STANDBY follow. -/
def takeLeases (n : Node) (b : BitVec 66) : Node :=
  if b = 0 then n
  else
    let n := { n with hng := { n.hng with fencing := n.hng.fencing &&& ~~~b } }.setHeldLeases (n.heldLeases ||| b)
    let n := n.setReg hngPage 0x068 (BitVec.ofNat 32 (n.hngNow + n.hngTerm))
    (n.leasesFollow).announceDuties (leaseNums b)

/-- P_EXPIRY is set by a renewal r of the partner (R339). -/
def partnerRenews (n : Node) (r : Nat) : Node :=
  let n := n.setReg hngPage 0x06C (BitVec.ofNat 32 (r + n.hngTerm))
  let n := { n with hng := { n.hng with known := true, shortened := false, ackDue := some r } }
  n.sendFrame 2 r

/-- An acknowledgement of renewal r arrives (R339): within RENEW ÷ 2 casements of r it sets E. -/
def renewalAcked (n : Node) (r : Nat) : Node :=
  if r ≤ n.hngNow ∧ n.hngNow - r ≤ n.hngRenew / 2 then n.setReg hngPage 0x068 (BitVec.ofNat 32 (r + n.hngTerm)) else n

/-- RELEASE arrives in this casement for leases that the partner held (R340) (DEDUCED, notes/assumptions/124.md). -/
def partnerReleases (n : Node) (b : BitVec 66) : Node :=
  let e := n.reg hngPage 0x06C
  let c := BitVec.ofNat 32 (n.hngNow + 1)
  let n := if (c - e).toInt < 0 then n.setReg hngPage 0x06C c else n
  { n with hng := { n.hng with
    released := n.hng.released ||| b, partnerHeld := n.hng.partnerHeld &&& ~~~b, shortened := true } }

/-- The full casement number with the given low bits that lies nearest below or at the current one. -/
def casementOf (n : Node) (low bits : Nat) : Nat :=
  let m := 2 ^ bits
  let r := n.hngNow / m * m + low % m
  if r ≤ n.hngNow then r else r - m

/-- One of two nodes is preferred: the higher PRIORITY, at equal PRIORITY the lower EUI-64 (R338, R341). -/
def outranks (n : Node) (priority : Nat) (eui : BitVec 64) : Bool :=
  let own := n.act hngPage Fld.hngCfgPriority
  decide (priority < own) || (decide (priority = own) && decide (Config.eui.toNat < eui.toNat))

/-- STAT.SENIOR after a message of the partner (R333): the member of longer standing, otherwise the lower EUI-64. -/
def judgeSenior (n : Node) (m : PairMsg) : Node :=
  let theirs := m.flags.getLsbD 0
  let ours := n.flag hngPage Fld.hngStatSenior
  let v := if ours && !theirs then true else if theirs && !ours then false else decide (Config.eui.toNat < m.eui.toNat)
  n.setFld hngPage Fld.hngStatSenior (if v then 1 else 0)

/-- DIGEST.LIMIT as it acts. -/
def digestLimit (n : Node) : Nat := Nat.max 1 (n.fld hngPage Fld.hngDigestLimit)

/-- An object's digests are compared (R335): `some true` where both are VALID and differ. -/
def digestDiffers (a b : Word) : Option Bool :=
  if a.getLsbD 31 && b.getLsbD 31 then some (decide (a ≠ b)) else none

/-- One object's comparison result (R335): the LIMIT-th difference in a row raises code 0x01, captures the object, and makes
the junior withhold a stream and become SUSPECT. -/
def objectCompared (n : Node) (casement obj : Nat) (differs : Bool) : Node :=
  let old := Sparse.get (fun _ => 0) n.hng.differing obj
  let new := if differs then old + 1 else 0
  let n := { n with hng := { n.hng with differing := Sparse.set (fun _ => 0) n.hng.differing obj new } }
  if differs ∧ new = n.digestLimit then
    let n := (n.raiseFault hngPage 1).irq hngPage 0
    let n := if n.flag hngPage Fld.hngDgcapValid then n
      else n.setReg hngPage 0x07C (BitVec.ofNat 32 (2 ^ 31 + (if 256 ≤ obj then 2 ^ 30 else 0) + obj % 256 * 2 ^ 16 + casement % 2 ^ 16))
    if n.flag hngPage Fld.hngStatSenior then n
    else
      let n := n.setFld hngPage Fld.hngStatSuspect 1
      if obj < 256 ∧ !n.hng.withheld.contains obj then
        { n with hng := { n.hng with withheld := n.hng.withheld ++ [obj] } } else n
  else n

/-- SUSPECT clears, and withheld streams are sent again (R335). -/
def clearSuspect (n : Node) : Node :=
  { n with hng := { n.hng with withheld := [], matching := 0 } }.setFld hngPage Fld.hngStatSuspect 0

/-- The digests of a casement are compared with the partner's (R335). -/
def compareDigests (n : Node) (m : PairMsg) : Node :=
  if m.casement + 3 ≤ n.hngNow then n.bump hngPage Fld.hngDigestLate
  else if m.cfgSeq ≠ n.hng.cfgSeq then n
  else match n.hng.digests.find? (fun d => decide (d.casement = m.casement)) with
    | none => n
    | some d =>
      let objs := ((d.streams.zip m.streamDig).zip (List.range 256)).map (fun e => (e.2, digestDiffers e.1.1 e.1.2))
        ++ ((d.groups.zip m.groupDig).zip (List.range 64)).map (fun e => (256 + e.2, digestDiffers e.1.1 e.1.2))
      let n := objs.foldl (fun x e => match e.2 with
        | none => x
        | some b => x.objectCompared m.casement e.1 b) n
      if objs.any (fun e => decide (e.2 = some true)) then
        { n with hng := { n.hng with matching := 0 } }.bump hngPage Fld.hngDigestMismatch
      else if objs.any (fun e => decide (e.2 = some false)) then
        let n := { n with hng := { n.hng with matching := n.hng.matching + 1 } }
        if 64 ≤ n.hng.matching ∧ n.flag hngPage Fld.hngStatSuspect then n.clearSuspect else n
      else n

/-- Pairing starts, with the HNG page or with another partner (R333, R336, R341): no message of the partner yet, no record of
its term, and P_EXPIRY a TERM ahead. -/
def hngStart (n : Node) : Node :=
  let n := ((n.setFld hngPage Fld.hngStatPartnerUp 0).setFld hngPage Fld.hngStatSenior 0).setFld hngPage Fld.hngStatResync 0
  let n := { n with hng := { n.hng with
    known := false, lastMsg := none, lastWire := none, mine := none, theirs := none,
    memberSince := some n.hngNow, released := 0, shortened := false, partnerHeld := 0, offered := none, ackDue := none } }
  n.setReg hngPage 0x06C (BitVec.ofNat 32 (n.hngNow + n.hngTerm))

/-- The HNG page shuts down: every held lease is fenced (R340). -/
def hngStop (n : Node) : Node :=
  (leaseNums n.dutyLeases).foldl (fun m k => m.fenceLease k) n

/-- Unpaired leases are held from the first casement (R337). -/
def holdUnpaired (n : Node) : Node :=
  let b := n.unpairedLeases &&& ~~~n.heldLeases
  if b = 0 then n else n.takeLeases b

/-- The pair message that the node sends at a boundary for casement t (R334). Where both a renewal and the acknowledgement
of another one are due, the acknowledgement goes first (DESIGN CHOICE, notes/assumptions/123.md). -/
def pairMessage (n : Node) (t : Nat) (d : Digests) : PairMsg :=
  let ack := n.hng.ackDue
  let renew := match n.hng.offered, ack with
    | some r, none => some r
    | some r, some a => if r = a then some r else none
    | none, _ => none
  let bit := fun (b : Bool) (k : Nat) => if b then 2 ^ k else 0
  { eui := Config.eui, casement := t, off := n.reg hngPage 0x074, cfgSeq := n.hng.cfgSeq,
    flags := BitVec.ofNat 32 (bit (n.flag hngPage Fld.hngStatSenior) 0 + bit (n.flag hngPage Fld.hngStatResync) 1
      + bit renew.isSome 2 + bit ack.isSome 3 + bit (n.hng.yielded.getLsbD 64) 4 + bit (n.hng.yielded.getLsbD 65) 5),
    renewAt := BitVec.ofNat 32 ((ack.getD (renew.getD 0))),
    held := leaseWords n.heldLeases, streamDig := d.streams, groupDig := d.groups }

/-- HNG at a casement boundary: OFF adopted from the senior (R333), own digests kept, the pair message for the casement that
ended sent (R334), and unpaired leases held (R337), by what the partner's configuration marks
(DESIGN CHOICE, notes/assumptions/207.md). -/
def runHinge (n : Node) (t : Nat) : Node :=
  let n := { n with hng := { n.hng with partnerMarks := Config.partnerMarks (n.act hngPage Fld.hngPartnerEid) t } }
  let n := match n.hng.newOff with
    | some o => { n with hng := { n.hng with newOff := none } }.setReg hngPage 0x074 o
    | none => n
  let d : Digests := match n.hng.coming with
    | some d => if d.casement = t then d else ⟨t, List.replicate 256 0, List.replicate 64 0⟩
    | none => ⟨t, List.replicate 256 0, List.replicate 64 0⟩
  let n := { n with hng := { n.hng with
    digests := (d :: n.hng.digests).take 8, duty64 := n.hng.duty64 - 1, duty65 := n.hng.duty65 - 1 } }
  let n := if n.paired then
      let m := n.pairMessage t d
      let sentRenew := m.flags.getLsbD 2
      { n with hng := { n.hng with sent := some m, ackDue := none, offered := if sentRenew then none else n.hng.offered } }
    else n
  n.holdUnpaired

/-- HNG.RENEW (R339): renewal of the current casement is offered in the next pair message and on HINGE_OUT. -/
def offerRenewal (n : Node) : Node :=
  ({ n with hng := { n.hng with offered := some n.hngNow } }).sendFrame 1 n.hngNow

/-- The Sill island's count has reached the boundary `k` casements after an expiry register (R327, R339). -/
def expiredBy (n : Node) (off : Nat) (k : Int) : Bool :=
  decide (k ≤ (BitVec.ofNat 32 n.hngNow - n.reg hngPage off).toInt)

/-- A valid frame has arrived within 2 × RENEW casements (R342). -/
def wireUp (n : Node) : Bool :=
  match n.hng.lastWire with
  | none => false
  | some t => decide (n.hngNow - t ≤ 2 * n.hngRenew)

/-- What HNG.STAT reads as. -/
def hngView (n : Node) (off : Nat) : Option Word :=
  match off with
  | 0x04C => some (setWordField (setWordField (n.reg hngPage 0x04C) Fld.hngStatPaired (if n.paired then 1 else 0))
      Fld.hngStatWireUp (if n.wireUp then 1 else 0))
  | _ => none

/-- A commit changes the eligible leases: a duty conflict and a yield end (R338). -/
def eligCommitted (n : Node) : Node :=
  { n with hng := { n.hng with yielded := 0 } }.setFld hngPage Fld.hngStatDutyConflict 0

end Node

/-- PAIR_MESSAGE_RECEIVED (R333, R335, R339, R343): a valid message of the partner. -/
def pairMessageReceived (n : Node) (m : PairMsg) : Node :=
  if !n.paired then n
  else
    let first := n.hng.lastMsg.isNone
    let n := n.setFld hngPage Fld.hngStatPartnerUp 1
    let n := n.judgeSenior m
    let senior := n.flag hngPage Fld.hngStatSenior
    -- a node that joins a running pair resynchronises
    let n := if first && m.flags.getLsbD 0 && !senior then { n with hng := { n.hng with matching := 0 } }.setFld hngPage Fld.hngStatResync 1 else n
    let held := Node.leaseBits m.held
    let gone := n.hng.partnerHeld &&& ~~~held
    let n := { n with hng := { n.hng with
      lastMsg := some n.hngNow
      newOff := if !senior ∧ m.off ≠ n.reg hngPage 0x074 then some m.off else n.hng.newOff
      partnerYields := (if m.flags.getLsbD 4 then 1#66 <<< 64 else 0) ||| (if m.flags.getLsbD 5 then 1#66 <<< 65 else 0) } }
    let n := if gone = 0 then n else n.partnerReleases gone
    let n := { n with hng := { n.hng with partnerHeld := held, released := n.hng.released &&& ~~~held } }
    let n := if m.cfgSeq ≠ n.hng.cfgSeq then
        if n.flag hngPage Fld.hngStatCfgDiff then n else (n.setFld hngPage Fld.hngStatCfgDiff 1).raiseFault hngPage 4
      else n.setFld hngPage Fld.hngStatCfgDiff 0
    let n := n.compareDigests m
    let r := n.casementOf m.renewAt.toNat 32
    let n := if m.flags.getLsbD 2 then n.partnerRenews r else n
    if m.flags.getLsbD 3 then n.renewalAcked r else n

def execPairMessageReceived (m : PairMsg) (s : State) : Host.Outcome State Fault Refusal :=
  s.hub (fun n => pairMessageReceived n m)

/-- PARTNER_LOST (R336): no valid pair message in 8 casements after the one in which the last arrived, or from the start of
pairing; the node that remains is senior (R333; DEDUCED,
notes/assumptions/122.md). -/
def partnerLost (n : Node) : Node :=
  let silent := match n.hng.lastMsg with
    | some t => decide (t + 8 < n.hngNow)
    | none => match n.hng.memberSince with
      | some t => decide (t + 8 ≤ n.hngNow)
      | none => true
  if n.paired && silent && (n.flag hngPage Fld.hngStatPartnerUp || !n.flag hngPage Fld.hngStatSenior) then
    let n := (n.setFld hngPage Fld.hngStatPartnerUp 0).setFld hngPage Fld.hngStatSenior 1
    (n.raiseFault hngPage 2).irq hngPage 1
  else n

def execPartnerLost (s : State) : Host.Outcome State Fault Refusal := s.hub partnerLost

/-- HINGE_FRAME_RECEIVED (R342). -/
def hingeFrameReceived (n : Node) (f : Word) : Node :=
  if !n.wireOn then n
  else
    let type := f.toNat / 2 ^ 22 % 4
    let bytes : List Byte := [(f >>> 24).setWidth 8, (f >>> 16).setWidth 8, (f >>> 8).setWidth 8]
    if f.toNat / 2 ^ 24 ≠ 0xB4 ∨ crc8 bytes ≠ f.toNat % 256 then n.bump hngPage Fld.hngSeccntWireBad
    else
      let n := { n with hng := { n.hng with lastWire := some n.hngNow } }
      let r := n.casementOf (f.toNat / 2 ^ 16) 6
      match type with
      | 1 => n.partnerRenews r
      | 2 => n.renewalAcked r
      | 3 => n.partnerReleases n.hng.partnerHeld
      | _ => n

def execHingeFrameReceived (frame : Word) (s : State) : Host.Outcome State Fault Refusal :=
  s.hub (fun n => hingeFrameReceived n frame)

/-- LEASE_TAKEOVER (R339, R340): boundary P_EXPIRY + 2. After a RELEASE the released leases are taken, otherwise every lease
that the partner held; a yielded lease is not (R338). -/
def leaseTakeover (n : Node) : Node :=
  let want := if n.hng.shortened then n.hng.released else n.hng.partnerHeld ||| n.hng.released
  let b := want &&& n.eligible &&& ~~~n.hng.partnerYields &&& ~~~n.hng.yielded &&& ~~~n.heldLeases
  if !n.paired ∨ b = 0 ∨ !n.expiredBy 0x06C 2 then n
  else
    let n := n.takeLeases b
    let n := { n with hng := { n.hng with partnerHeld := n.hng.partnerHeld &&& ~~~b, released := n.hng.released &&& ~~~b, shortened := false } }
    (n.bump hngPage Fld.hngEventsTakeovers (Node.leaseNums b).length).irq hngPage 2

def execLeaseTakeover (s : State) : Host.Outcome State Fault Refusal := s.hub leaseTakeover

/-- LEASE_FENCE_COMPLETE (R340): the duty has stopped; the lease is no longer held, and RELEASE is sent. -/
def leaseFenceComplete (n : Node) (k : Nat) : Node :=
  if n.hng.fencing.getLsbD k && (if k < 64 then n.groupFenced k else decide (n.hng.dutyFenced < n.hngNow)) then
    let n := n.setHeldLeases (n.heldLeases &&& ~~~(1#66 <<< k))
    let n := { n with hng := { n.hng with fencing := n.hng.fencing &&& ~~~(1#66 <<< k) } }
    let n := n.sendFrame 3 0
    (if n.wireOn || n.mgmt.running then n.bump hngPage Fld.hngEventsReleases else n).irq hngPage 3
  else n

def execLeaseFenceComplete (lease : Fin 66) (s : State) : Host.Outcome State Fault Refusal :=
  s.hub (fun n => leaseFenceComplete n lease)

/-- LEASE_SELF_FENCE (R327, R339): boundary E − 2 by the Sill island's count; every lease that is not unpaired is fenced
(DEDUCED, notes/assumptions/121.md). -/
def leaseSelfFence (n : Node) : Node :=
  if n.act hngPage Fld.hngPartnerEid = 0 ∨ !(n.hdr hngPage).active ∨ !n.expiredBy 0x068 (-2) then n
  else (Node.leaseNums (n.dutyLeases &&& ~~~n.unpairedLeases)).foldl (fun m k =>
    let m := m.fenceLease k
    ((m.bump silPage Fld.silEventsFences).irq silPage 3).raiseFault silPage 5) n

def execLeaseSelfFence (s : State) : Host.Outcome State Fault Refusal := s.hub leaseSelfFence

/-- DUTY_RECEIVED (R338): a holder meets another pair's duty. -/
def dutyReceived (n : Node) (k eid : Nat) (priority : Byte) (eui : BitVec 64) : Node :=
  if k < 64 ∨ !n.dutyLeases.getLsbD k ∨ eid = n.cfg.eid ∨ eid = n.act hngPage Fld.hngPartnerEid then n
  else
    let n := if n.flag hngPage Fld.hngStatDutyConflict then n
      else ((n.setFld hngPage Fld.hngStatDutyConflict 1).raiseFault hngPage 5).irq hngPage 3
    if n.outranks priority.toNat eui then n
    else
      let n := n.fenceLease k
      { n with hng := { n.hng with yielded := n.hng.yielded ||| (1#66 <<< k) } }

def execDutyReceived (lease : Fin 66) (eid : Nat) (priority : Byte) (eui : BitVec 64) (s : State) :
    Host.Outcome State Fault Refusal :=
  s.hub (fun n => dutyReceived n lease eid priority eui)

/-- DUTY_ANNOUNCE (R338): each duty whose TERM casements have passed. -/
def dutyAnnounce (n : Node) : Node :=
  n.announceDuties ((if n.hng.duty64 = 0 then [64] else []) ++ (if n.hng.duty65 = 0 then [65] else []))

def execDutyAnnounce (s : State) : Host.Outcome State Fault Refusal := s.hub dutyAnnounce

/-- LEASE_CLAIM (R341): at P_EXPIRY + 2, each eligible lease that no received HELD word shows as held. -/
def leaseClaim (n : Node) : Node :=
  let b := n.eligible &&& ~~~n.heldLeases &&& ~~~n.hng.partnerHeld &&& ~~~n.hng.yielded &&& ~~~n.hng.partnerYields
  if !n.paired ∨ b = 0 ∨ !n.expiredBy 0x06C 2 then n
  else { n with hng := { n.hng with
    mine := some { casement := n.hngNow, leases := b, priority := n.act hngPage Fld.hngCfgPriority, eui := Config.eui } } }

def execLeaseClaim (s : State) : Host.Outcome State Fault Refusal := s.hub leaseClaim

/-- CLAIM_RECEIVED (R341): the partner's claim. -/
def claimReceived (n : Node) (leases : List Nat) (priority : Byte) (eui : BitVec 64) : Node :=
  let b : BitVec 66 := leases.foldl (fun v k => if k < 66 then v ||| (1#66 <<< k) else v) 0
  { n with hng := { n.hng with theirs := some { casement := n.hngNow, leases := b, priority := priority.toNat, eui := eui } } }

def execClaimReceived (leases : List Nat) (priority : Byte) (eui : BitVec 64) (s : State) :
    Host.Outcome State Fault Refusal :=
  s.hub (fun n => claimReceived n leases priority eui)

/-- CLAIM_DECISION (R341): boundary c + 3 after the claim sent in casement c. -/
def claimDecision (n : Node) : Node :=
  match n.hng.mine with
  | none => { n with hng := { n.hng with theirs := none } }
  | some c =>
    if n.hngNow < c.casement + 3 then n
    else
    let own := c.leases &&& ~~~n.hng.partnerHeld
    let seen := match n.hng.theirs with
      | some t => if c.casement ≤ t.casement ∧ t.casement < c.casement + 3 then t.leases else 0
      | none => 0
    let win := match n.hng.theirs with
      | some t => n.outranks t.priority t.eui
      | none => true
    let silent := match n.hng.lastMsg with
      | none => true
      | some t => decide (n.hngTerm ≤ n.hngNow - t)
    let alone := if n.flag hngPage Fld.hngStatPartnerUp || silent then own &&& ~~~seen else 0
    let both := own &&& seen
    let n := { n with hng := { n.hng with mine := none, theirs := none } }
    let n := n.takeLeases (alone ||| (if win then both else 0))
    if win then n else n.bump hngPage Fld.hngEventsClaimsLost (Node.leaseNums both).length

def execClaimDecision (s : State) : Host.Outcome State Fault Refusal := s.hub claimDecision

/-- RESYNC_COMPLETE (R343): no path refills and LIMIT compared casements in a row have matched, so the node sends its streams and
clears RESYNC. -/
def resyncComplete (n : Node) : Node :=
  if n.flag hngPage Fld.hngStatResync && !n.flag hngPage Fld.hngStatCfgDiff && decide (n.digestLimit ≤ n.hng.matching)
      && n.strips.all (fun e => !e.2.held) then n.setFld hngPage Fld.hngStatResync 0 else n

def execResyncComplete (s : State) : Host.Outcome State Fault Refusal := s.hub resyncComplete

end Sys2Proof.Machine
end

