-- ==== Sys2Proof/Machine/Ptp.lean ====
section
/-! DEFINITION. The PTP service (R231, R232): messages, the announce-receipt timeout, and the commands of the service. -/

namespace Sys2Proof.Machine

open Sys2Proof (Word Byte Sparse Page Block Die Port Src RefMeas PtpMessage PtpIn Announce)

/-- Port states of IEEE 1588-2019. -/
def ptpDisabled : Nat := 3
def ptpListening : Nat := 4
def ptpMaster : Nat := 6
def ptpPassive : Nat := 7
def ptpSlave : Nat := 9

/-- A profile's default intervals, as a PORT word 2: announce, sync, Delay_Req, timeout (R231). -/
def profileIntervals : Nat → Word
  | 1 => 0x03FDFDFE
  | 2 => 0x03FDFD01
  | _ => 0x03000001

/-- The intervals lie within the profile's ranges (R231). -/
def intervalsOk (profile : Nat) (w : Word) : Bool :=
  let byte := fun (k : Nat) => BitVec.toInt ((w >>> (8 * k)).setWidth 8)
  let within := fun (v lo hi : Int) => decide (lo ≤ v ∧ v ≤ hi)
  let an := byte 0
  let sy := byte 1
  let dr := byte 2
  let ti := byte 3
  within ti 2 10 && match profile with
    | 1 => within an (-3) 1 && within sy (-7) (-1) && within dr sy (sy + 5)
    | 2 => within an 0 4 && within sy (-4) 1 && within dr (-3) 5
    | _ => within an 0 4 && within sy (-1) 1 && within dr 0 5

/-! The best-master algorithm of IEEE 1588-2019, which the service implements (R231) (PRESUMED, notes/assumptions/203.md). -/

/-- How one data set compares with another. -/
inductive Rank
  | better | betterByTopology | worseByTopology | worse
deriving DecidableEq, Repr

/-- The first list is lower, by its first entry that differs. -/
def firstLower : List Nat → List Nat → Option Bool
  | a :: as, b :: bs => if a < b then some true else if b < a then some false else firstLower as bs
  | _, _ => none

/-- Compare two data sets, received on ports `pa` and `pb` of the clock with identity `own`: by the grandmaster's values, and of one
grandmaster by steps and by the senders. -/
def compareSets (own : Nat) (a b : Announce) (pa pb : Nat) : Rank :=
  if a.gm ≠ b.gm then
    let key := fun (x : Announce) => [x.priority1, x.clockClass, x.accuracy, x.variance, x.priority2, x.gm]
    if firstLower (key a) (key b) = some false then .worse else .better
  else if a.steps + 1 < b.steps then .better
  else if b.steps + 1 < a.steps then .worse
  else if a.steps < b.steps then (if own < b.sender / 65536 then .better else .betterByTopology)
  else if b.steps < a.steps then (if own < a.sender / 65536 then .worse else .worseByTopology)
  else if firstLower [a.sender, pa] [b.sender, pb] = some false then .worseByTopology else .betterByTopology

def Rank.isBetter : Rank → Bool
  | .better | .betterByTopology => true
  | _ => false

namespace Node

def ptpPort (n : Node) (k : Nat) : PtpPort := n.ptp.ports.getD k {}
def modPort (n : Node) (k : Nat) (f : PtpPort → PtpPort) : Node :=
  { n with ptp := { n.ptp with ports := n.ptp.ports.set k (f (n.ptpPort k)) } }

/-- The node may act as zone clock master (R337): lease 64 is not one of its leases, or it holds it. -/
def clockDuty (n : Node) : Bool := decide (n.act hngPage (Fld.hngEligLease 2) % 2 = 0) || n.dutyLeases.getLsbD 64

def anySlave (n : Node) : Bool := n.pairSlave 0 || n.pairSlave 1

/-- The reference slots that name PTP on a pair (R233). -/
def ptpSlots (n : Node) (pair : Nat) : List Nat :=
  (List.range 16).filter (fun k => n.slotEnabled k && decide (n.slotKind k = 6 ∧ n.slotSource k = 0x18 + pair))

/-- PTP slots meet the port states: loss where no port of the pair is SLAVE (R237), and the parent's QL (R234). -/
def ptpSlotsFollow (n : Node) : Node :=
  [0, 1].foldl (fun m pair => (m.ptpSlots pair).foldl (fun m k =>
    let (meas, m) := m.freshMeas
    if m.pairSlave pair then m.slotQlChange k (some m.ptpQl) meas
    else m.slotLoss k meas) m) n

/-- The data set that the node announces as grandmaster (R231, R250). -/
def ownSet (n : Node) : Announce :=
  { gm := Config.eui.toNat, sender := Config.eui.toNat * 65536, priority1 := n.ptp.priority1, clockClass := n.announced.1,
    accuracy := n.announced.2, variance := 0xFFFF, priority2 := n.ptp.priority2 }

/-- The node may be grandmaster: GM_CAPABLE, and no lease 64 that another holds (R232, R337). -/
def mayLead (n : Node) : Bool := n.ptp.gmCapable && n.clockDuty

/-- The Announce that a port uses: none where it is disabled or MASTER_ONLY. -/
def portBest (n : Node) (k : Nat) : Option Announce :=
  let p := n.ptpPort k
  if p.enable && !p.masterOnly then p.best else none

/-- The best Announce of all ports, with its port. -/
def clockBest (n : Node) : Option (Announce × Nat) :=
  (List.range 4).foldl (fun b k => match n.portBest k, b with
    | some a, some (x, j) => if (compareSets Config.eui.toNat a x (k + 1) (j + 1)).isBetter then some (a, k) else b
    | some a, none => some (a, k)
    | none, _ => b) none

/-- The node's own data set beats another. -/
def ownBeats (n : Node) (a : Announce) : Bool := n.mayLead && (compareSets Config.eui.toNat n.ownSet a 0 1).isBetter

/-- The state that a port takes; `expired` where its announce receipt has timed out. A port that is SLAVE_ONLY, as all are without a
lease 64 that the pair marks (R337), does not become MASTER, nor does one of a node that may not be grandmaster without a parent. -/
def decidePort (n : Node) (k : Nat) (expired : Bool) : Nat :=
  let p := n.ptpPort k
  let lead := if p.slaveOnly || !n.clockDuty then ptpListening else ptpMaster
  let alone := if n.mayLead then lead else ptpListening
  if !p.enable then ptpDisabled
  else if p.state = ptpListening ∧ n.portBest k = none ∧ !expired then ptpListening
  else if n.mayLead && decide (1 ≤ n.ownSet.clockClass ∧ n.ownSet.clockClass ≤ 127) then
    match n.portBest k with
    | some a => if n.ownBeats a then lead else ptpPassive
    | none => lead
  else match n.clockBest with
    | none => alone
    | some (e, r) =>
      if n.ownBeats e then lead
      else if r = k then ptpSlave
      else match n.portBest k with
        | none => lead
        | some a => if compareSets Config.eui.toNat e a (r + 1) (k + 1) = .betterByTopology then ptpPassive else lead

/-- Every port takes the state that the algorithm gives it, and a parent its data (R232). -/
def decidePorts (n : Node) (expired : Option Nat) : Node :=
  let states := (List.range 4).map (fun k => n.decidePort k (decide (expired = some k)))
  let n := (List.range 4).foldl (fun m k => m.modPort k (fun p => { p with state := states.getD k p.state })) n
  match n.clockBest with
  | some (a, _) => if n.anySlave then
      { n with ptp := { n.ptp with gm := a.gm, parent := a.sender, clockClass := a.clockClass % 256, accuracy := a.accuracy % 256, steps := a.steps } }
      else n
  | none => n

/-- The clock state that the port states give (R232). -/
def clockFollows (n : Node) : Node :=
  let c :=
    if n.anySlave then (if n.ptp.clockState = 0 ∨ n.ptp.clockState = 4 then 2 else n.ptp.clockState)
    else if n.ptp.gmCapable ∧ n.clockDuty ∧ n.ptp.ports.any (fun p => decide (p.state = ptpMaster)) then 4 else 0
  { n with ptp := { n.ptp with clockState := c, good := if n.anySlave then n.ptp.good else 0 } }

/-- The service's port states after an event. -/
def ptpStates (n : Node) (expired : Option Nat) : Node :=
  (n.decidePorts expired).refEvent (fun n => n.clockFollows.ptpSlotsFollow)

/-- Without lease 64 every port is SLAVE_ONLY (R337): MASTER ports leave that state. -/
def leasePorts (n : Node) : Node :=
  if n.mgmt.running ∧ !n.clockDuty ∧ n.ptp.ports.any (fun p => decide (p.state = ptpMaster)) then n.ptpStates none else n

/-- The policy arms a permit for a step (R232). -/
def policyArms (n : Node) : Bool :=
  match n.ptp.policy with
  | 0 => false
  | 2 => true
  | _ => !n.ptp.lockedOnce

/-- An offset that the service has measured (R232, R240): steps beyond STEP_LIMIT where the policy arms a permit; while DP1
does not steer, its own servo writes the increment, and steps an offset beyond the lock threshold that needs no permit
while the clock is not locked (DEDUCED, notes/assumptions/99.md). -/
def takeOffset (n : Node) (offset delay freq : Int) : Node :=
  let good := if offset.natAbs < 100 then Nat.min 16 (n.ptp.good + 1) else 0
  let beyond := decide ((n.reg phcPage 0x06C).toNat < offset.natAbs)
  let lock := decide (16 ≤ good)
  let n := { n with ptp := { n.ptp with offset := offset, delay := delay, freq := freq, good := good } }
  let set := fun (m : Node) (c : Nat) => { m with ptp := { m.ptp with clockState := c } }
  let servo := fun (m : Node) => if m.steering then m else
    m.steerTo (Config.servoIncrement offset freq).toNat
  if beyond then
    let n := servo n
    if n.policyArms then set (n.stepPermit.requestStep (-offset)) 2 else set n 1
  else if lock then
    let n := servo n
    { n with ptp := { n.ptp with clockState := 3, lockedOnce := true } }
  else
    let n := servo n
    if !n.steering && decide (100 ≤ offset.natAbs ∧ n.ptp.clockState ≠ 3) then set (n.requestStep (-offset)) 2 else set n 2

end Node

/-- A port takes an Announce: a new one of its sender in force, or a better one (R231). -/
def Node.takeAnnounce (n : Node) (k : Nat) (a : Announce) : Node :=
  n.modPort k (fun p => match p.best with
    | some x => if x.sender = a.sender ∨ (compareSets Config.eui.toNat a x (k + 1) (k + 1)).isBetter then { p with best := some a } else p
    | none => { p with best := some a })

/-- PTP_MESSAGE_RECEIVED (R231): a message of the service's domain, over the port's transport. The offset and the mean path delay are
those of the end-to-end mechanism of IEEE 1588-2019 (PRESUMED, notes/assumptions/204.md). -/
def ptpMessage (n : Node) (port : Fin 4) (msg : PtpIn) : Node :=
  n.serve (fun n =>
    let p := n.ptpPort port
    if !p.enable ∨ msg.domain ≠ n.ptp.domain ∨ msg.transport ≠ (if p.ipv6 then 1 else 0) then n
    else match msg.body with
      | .pdelay => { n with ptp := { n.ptp with pdelayDropped := n.ptp.pdelayDropped + 1 } }
      | .announce a => (n.takeAnnounce port a).ptpStates none
      | .timing t1 t2 t3 t4 f straddles =>
        if straddles ∨ p.state ≠ ptpSlave then n
        else
          let delay := ((t2 - t1) + (t4 - t3)) / 2
          n.takeOffset (t2 - t1 - delay) delay f)

def execPtpMessageReceived (port : Fin 4) (msg : PtpIn) (s : State) : Host.Outcome State Fault Refusal :=
  s.hub (fun n => ptpMessage n port msg)

/-- ANNOUNCE_RECEIPT_TIMEOUT (R231): the port's Announce is out of force, and the ports take the states that follow: of a pair the
PASSIVE port takes over (PRESUMED, notes/assumptions/100.md). -/
def announceTimeout (n : Node) (port : Fin 4) : Node :=
  n.serve (fun n =>
    if (n.ptpPort port).enable then (n.modPort port (fun p => { p with best := none })).ptpStates (some port.val) else n)

def execAnnounceReceiptTimeout (port : Fin 4) (s : State) : Host.Outcome State Fault Refusal :=
  s.hub (fun n => announceTimeout n port)

/-- PTP_PROFILE (R232): profile, domain and step policy; every PTP port restarts with the profile's intervals
(DEDUCED, notes/assumptions/103.md). -/
def ptpProfile (n : Node) (slot : Fin 4) (w : Word) : Node :=
  n.serveSlot slot (fun n =>
    let profile := w.toNat % 4
    let domain := w.toNat / 256 % 256
    let policy := w.toNat / 65536 % 4
    if profile = 3 ∨ 127 < domain then n.answer slot badArgument
    else
      let ports := n.ptp.ports.map (fun p =>
        { p with state := if p.enable then ptpListening else ptpDisabled, best := none, intervals := profileIntervals profile })
      let n := { n with ptp := { n.ptp with profile := profile, domain := domain, policy := (if policy = 3 then 1 else policy), ports := ports } }
      (n.ptpStates none).answer slot okCode)

def execPtpProfile (slot : Fin 4) (word : Word) (s : State) : Host.Outcome State Fault Refusal :=
  s.hub (fun n => ptpProfile n slot word)

/-- PTP_PORT (R232). -/
def ptpPortCmd (n : Node) (slot : Fin 4) (w1 w2 : Word) : Node :=
  n.serveSlot slot (fun n =>
    if !intervalsOk n.ptp.profile w2 then n.answer slot badArgument
    else
      let b := fun (k : Nat) => w1.getLsbD k
      let n := n.modPort (w1.toNat % 4) (fun _ => {
        enable := b 2, ipv6 := b 3, unicast := b 4, masterOnly := b 5, slaveOnly := b 6, intervals := w2,
        state := if b 2 then ptpListening else ptpDisabled })
      (n.ptpStates none).answer slot okCode)

def execPtpPort (slot : Fin 4) (word1 word2 : Word) (s : State) : Host.Outcome State Fault Refusal :=
  s.hub (fun n => ptpPortCmd n slot word1 word2)

/-- PTP_STATUS (R232). -/
def ptpStatus (n : Node) (slot : Fin 4) : Node :=
  n.serveSlot slot (fun n =>
    let states := ((List.range 4).map (fun k => (n.ptpPort k).state % 16 * 16 ^ k)).foldl (· + ·) 0
    n.answer slot okCode n.ptp.clockState
      [BitVec.ofNat 32 states, Node.satWord n.ptp.offset, Node.satWord n.ptp.delay, Node.satWord n.ptp.freq])

def execPtpStatus (slot : Fin 4) (s : State) : Host.Outcome State Fault Refusal :=
  s.hub (fun n => ptpStatus n slot)

/-- PTP_PARENT (R232, R250): the grandmaster identity in two words, the parent port identity in three, and the qualities
(DEDUCED, notes/assumptions/97.md). A grandmaster answers its own data set (PRESUMED, notes/assumptions/203.md). -/
def ptpParent (n : Node) (slot : Fin 4) : Node :=
  n.serveSlot slot (fun n =>
    let w := fun (v k : Nat) => BitVec.ofNat 32 (v / 2 ^ (32 * k))
    let a := if n.ptp.clockState = 4 then n.ownSet
      else { gm := n.ptp.gm, sender := n.ptp.parent, clockClass := n.ptp.clockClass, accuracy := n.ptp.accuracy, steps := n.ptp.steps }
    n.answer slot okCode none [w a.gm 0, w a.gm 1, w a.sender 0, w a.sender 1, w a.sender 2,
      BitVec.ofNat 32 (a.clockClass % 256 + a.accuracy % 256 * 256 + a.steps % 65536 * 65536)])

def execPtpParent (slot : Fin 4) (s : State) : Host.Outcome State Fault Refusal :=
  s.hub (fun n => ptpParent n slot)

/-- PTP_CLOCK (R232). -/
def ptpClock (n : Node) (slot : Fin 4) (w : Word) : Node :=
  n.serveSlot slot (fun n =>
    let n := { n with ptp := { n.ptp with
      priority1 := w.toNat % 256, priority2 := w.toNat / 256 % 256, gmCapable := w.getLsbD 16 } }
    (n.ptpStates none).answer slot okCode)

def execPtpClock (slot : Fin 4) (word : Word) (s : State) : Host.Outcome State Fault Refusal :=
  s.hub (fun n => ptpClock n slot word)

end Sys2Proof.Machine
end

