-- ==== Sys2Proof/Machine/Route.lean ====
section
/-! DEFINITION. The ROUTE service (R57 to R61, R401): jobs and their answers, the staging of a job (R80, R91, R138, R151,
R255), and what its commit changes on the node (R76, R82 to R85, R91). -/

namespace Sys2Proof.Machine

open Sys2Proof (Word Byte Sparse Page Block Die Port Src ShutterId SinkId SourceCfg BusCfg XpCfg StripCfg SinkCfg ItemCfg
  ReedCfg ReedImageCfg RxStreamCfg TxStreamCfg BundleCfg Cfg ShutCfg CoreId InputId)

/-- Word 0 of an entry as the compiler writes it, with SHUT = 0 (R74, R76), and word 2. -/
def xpWord0 (x : XpCfg) : Word :=
  BitVec.ofNat 32 (2 ^ 31 + x.law % 4 * 2 ^ 28 + (if x.fromBus then 2 ^ 27 else 0) + x.bus % 1024 * 4096 + x.source % 4096)
def xpWord2 (x : XpCfg) : Word := BitVec.ofNat 32 (x.tag % 65536 * 65536 + x.ramp % 4096)

/-- A section record that passes its input through: BYPASS of word 5 (R128). -/
def bypassRecord : List Byte := List.replicate 20 0 ++ [1] ++ List.replicate 11 0

/-- Codes of the records of a block, in their order (R131). -/
def recordCodes (kind sections : Nat) : List Nat :=
  (if kind = 1 then [0x20, 0x21] else []) ++ List.range sections ++ (if kind = 3 then [0x22] else [])

/-- Bytes of words, least significant byte first. -/
def wordBytes (ws : List Word) : List Byte := ws.flatMap (fun (w : Word) => Node.leBytes w.toNat 4)

/-- The Shutter of an object's strip. -/
def objShut (o : Obj) : ShutterId := ⟨o.1 + 1, 0, o.2⟩

namespace Graph

/-- Die and coefficient block of an object (R131), and the FIR array of an output strip (R140). -/
def blockOf (c : Cfg) (o : Obj) : Option BankCfg :=
  match o.1 with
  | 0 => (sourceAt c o.2).map (fun (s : SourceCfg) => ⟨s.die, 32 * (s.sections + 2), s.loc0, s.loc1, s.sections⟩)
  | 1 => (busAt c o.2).map (fun (b : BusCfg) => ⟨b.die, 32 * b.sections, b.loc0, b.loc1, b.sections⟩)
  | _ => (stripAt c o.2).map (fun (s : StripCfg) => ⟨s.die, 32 * (s.sections + 1), s.loc0, s.loc1, s.sections⟩)
def chainOf (c : Cfg) (o : Obj) : Option BankCfg :=
  match o.1 with
  | 2 => match stripAt c o.2 with
    | some s => if s.segments = 0 then none else some ⟨s.die, 256 * s.segments, s.firLoc0, s.firLoc1, s.segments⟩
    | none => none
  | _ => none

/-- Configured Shutter settings of an object's strip. -/
def objSettings (c : Cfg) (o : Obj) : Option ShutCfg :=
  match o.1 with
  | 0 => (sourceAt c o.2).map (fun (s : SourceCfg) => s.sh)
  | 1 => (busAt c o.2).map (fun (s : BusCfg) => s.sh)
  | _ => (stripAt c o.2).map (fun (s : StripCfg) => s.sh)

/-- Bundle of an object: that of a source. -/
def objBundle (c : Cfg) (o : Obj) : Nat :=
  match o.1 with
  | 0 => ((sourceAt c o.2).map (fun (s : SourceCfg) => s.bundle)).getD 0
  | _ => 0

/-- Delay and class of an object's strip as configured (R145). -/
def delayOf (c : Cfg) (o : Obj) : Option (DelayCfg × Nat × Nat) :=
  match o.1 with
  | 0 => (sourceAt c o.2).map (fun (s : SourceCfg) =>
    (⟨s.die, if s.fenClass then 1 else 0, false, delayCap false (if s.fenClass then 1 else 0)⟩, s.delay, s.fraction))
  | 2 => (stripAt c o.2).map (fun (s : StripCfg) =>
    let k := if s.dram then 2 else if s.fenClass then 1 else 0
    (⟨s.die, k, s.frac, delayCap true k⟩, s.delayQ8 / 256, s.delayQ8 % 256))
  | _ => none

end Graph

namespace Node

/-! Staging (R80). -/

/-- The configuration in force, empty where there is none. -/
def cfgNow (n : Node) : Cfg := if n.rt.inForce then n.rt.cfg else {}

/-- The core port holds the XPT key, or nobody does. -/
def coreMayKey (n : Node) : Bool :=
  match (n.hdr xptPage).keyHolder with
  | none => true
  | some p => decide (p = .core)

/-- The compiler opens the XPT key from the core port, or renews it. -/
def coreKey (n : Node) : Node :=
  n.modHdr xptPage (fun h => { h with keyHolder := some .core, keyCount := 0, keyAt := n.clk.now })

/-- Write a crosspoint into a bank's entry. -/
def putEntry (n : Node) (bank : Bool) (x : XpCfg) : Node :=
  let a := xptBase bank + 16 * x.entry
  ((n.xptPut a (xpWord0 x) 0xFFFFFFFF false).xptPut (a + 4) x.gain 0xFFFFFFFF false).xptPut (a + 8) (xpWord2 x) 0xFFFFFFFF false

/-- The table of a job in the inactive bank (R76, R80): a copy of the active bank with removed entries no longer VALID and
with new, replaced and reconfigured entries written (DEDUCED, notes/assumptions/46.md). -/
def stageTable (n : Node) (c : Cfg) : Node :=
  let old := n.cfgNow.xpoints
  let n := n.followEnds.xptCopy
  let bank := !n.xpt.active
  let gone := (old.map (·.entry)).filter (fun e => !c.xpoints.any (fun (x : XpCfg) => decide (x.entry = e)))
  let n := gone.foldl (fun m e => m.xptPut (xptBase bank + 16 * e) 0 0x80000000 false) n
  (c.xpoints.filter (fun (x : XpCfg) => !old.contains x)).foldl (fun m x => m.putEntry bank x) n

/-- The shadow fields of a register take their bits of a word. -/
def stageWord (n : Node) (p : Page) (off idx : Nat) (w : Word) : Node :=
  match (Reg.rowsOf p.block).find? (fun r => decide (r.off = off)) with
  | none => n
  | some r => (r.fields.filter (fun f => decide (f.access = .sh))).foldl (fun m f =>
      m.setFld p f.field (wordField w f.field) idx) n

/-- A TRIM record at unity gain, 1.0 in Q3.29 (R70, R130). -/
def unityTrim : List Byte := leBytes (2 ^ 29) 4 ++ List.replicate 28 0

/-- What a record holds that neither an image nor a replaced instance gives: unity trim, and the rest bypassed (R70). -/
def plainRecord (code : Nat) : List Byte := if code = 0x20 then unityTrim else bypassRecord

/-- Fill both banks of a new instance's block: the image's set, or the active set of the instance it replaces, record by
record and with added sections bypassed (R138). Where there is neither, the strip runs at unity trim with the sections bypassed
(R70), and its limiter is bypassed too (DESIGN CHOICE, notes/assumptions/189.md). -/
def fillBlock (n : Node) (old : Cfg) (kind : Nat) (o : Obj) (b : BankCfg) (set_ : Option (List Word)) : Node :=
  let both := fun (m : Node) (off : Nat) (bs : List Byte) =>
    (m.fenWrite b.die (b.loc0 + off) bs).fenWrite b.die (b.loc1 + off) bs
  match set_ with
  | some ws => both n 0 ((wordBytes ws).take b.size)
  | none =>
    let was := fun (r : Nat) => match Graph.blockOf old o with
      | some a => (recordOff kind a.sections r).map (fun i => n.rdBytes (fenAddr a.die (bankLoc a (n.strip kind o.2).bank + i)) 32)
      | none => none
    let recs := (recordCodes kind b.sections).filterMap (fun r => (recordOff kind b.sections r).map (fun off =>
      (off, (was r).getD (plainRecord r))))
    recs.foldl (fun m e => both m e.1 e.2) n

/-- A tap list over its whole array: taps that it does not give are 0. -/
def wholeArray (size : Nat) (ws : List Word) : List Byte := ((wordBytes ws) ++ List.replicate size 0).take size

/-- Likewise the taps of a new chain; taps that the replaced chain lacks are 0. -/
def fillChain (n : Node) (old : Cfg) (o : Obj) (b : BankCfg) (taps : Option (List Word)) : Node :=
  let both := fun (m : Node) (bs : List Byte) => (m.fenWrite b.die b.loc0 bs).fenWrite b.die b.loc1 bs
  match taps with
  | some ws => both n (wholeArray b.size ws)
  | none => match Graph.chainOf old o with
    | none => n
    | some a =>
      let k := Nat.min a.size b.size
      both n (n.rdBytes (fenAddr a.die (bankLoc a (n.strip 3 o.2).firBank)) k ++ List.replicate (b.size - k) 0)

/-- The coefficients of a job (R138): a whole set into the inactive bank of a strip in force, which is marked; both banks of
a new instance. Host edits pending in that bank are overwritten: a copy of PREP, with the accesses that it holds, ends
first, and one that waits for a swap does not follow. -/
def stageCoeffs (n : Node) (c : Cfg) : Node :=
  let old := n.cfgNow
  (Graph.objs c).foldl (fun m o =>
    let kind := o.1 + 1
    let set_ := (c.coeffs.find? (fun e => decide (e.1 = kind ∧ e.2.1 = o.2))).map (·.2.2)
    let taps := if o.1 = 2 then (c.taps.find? (fun e => decide (e.1 = o.2))).map (·.2) else none
    if Graph.newInstance old c o then
      let m := match Graph.blockOf c o with
        | some b => m.fillBlock old kind o b set_
        | none => m
      match Graph.chainOf c o with
      | some b => m.fillChain old o b taps
      | none => m
    else
      let m := match set_, Graph.blockOf old o with
        | some ws, some b =>
          let m := m.prepEnd b.die kind o.2
          let m := m.fenWrite b.die (bankLoc b (!(m.strip kind o.2).bank)) ((wordBytes ws).take b.size)
          (m.modStrip kind o.2 (fun s => { s with marked := true, prepAfter := false })).setFld (bqdPage b.die) Fld.bqdSwapAtSample 0
        | _, _ => m
      match taps, Graph.chainOf old o with
      | some ws, some b =>
        let m := m.firPrepEnd b.die o.2
        let m := m.fenWrite b.die (bankLoc b (!(m.strip 3 o.2).firBank)) (wholeArray b.size ws)
        (m.modStrip 3 o.2 (fun s => { s with firMarked := true, firPrepAfter := false })).setFld (firPage b.die) Fld.firSwapAtSample 0
      | _, _ => m) n

/-- The object of a delay change of a job. -/
def glideObj (e : Nat × Nat × Nat) : Obj := (if e.1 = 1 then 0 else 2, e.2.1)

/-- Delay changes of a job on strips in force: die, target-table entry, samples, fraction and duration (R151)
(DEDUCED, notes/assumptions/47.md). -/
def jobGlides (n : Node) (c : Cfg) : List (Nat × Nat × Nat × Nat × Nat) :=
  (c.glides.filter (fun e => !Graph.newInstance n.cfgNow c (glideObj e))).filterMap (fun e =>
    (Graph.delayOf c (glideObj e)).map (fun d => (d.1.die, (if e.1 = 1 then e.2.1 else 4096 + e.2.1), d.2.1, d.2.2, e.2.2)))

/-- Target-table entries of a job in the inactive banks; they wait there for the group commit's casement. -/
def stageTargets (n : Node) (c : Cfg) : Node :=
  (n.jobGlides c).foldl (fun m e =>
    match m.steerLoc e.1 (!(m.die e.1).steerBank) with
    | some loc => m.fenWrite e.1 (loc + 8 + 8 * e.2.1)
        (leBytes (2 ^ 31 + e.2.2.1 % 2 ^ 19 * 256 + e.2.2.2.1 % 256) 4 ++ leBytes (e.2.2.2.2 % 65536) 4)
    | none => m) n

/-- The headers of those tables, before the cutoff of the commit's casement `b`: ANY = 0, APPLY = b, and SEQ last. -/
def stageHeaders (n : Node) (c : Cfg) (b : Nat) : Node :=
  (((n.jobGlides c).map (·.1)).eraseDups).foldl (fun m d =>
    match m.steerLoc d (!(m.die d).steerBank) with
    | some loc => m.fenWrite d loc
        (leBytes ((m.reg (dlyPage d) 0x058).toNat + 1) 4 ++ leBytes (b % 65536) 4)
    | none => m) n

/-- The compiler writes the state words of a new instance while staging: 0, but for the gain of the limiter, which starts at 1.0
(R91, R144). -/
def clearState (n : Node) (c : Cfg) (o : Obj) : Node :=
  match o.1 with
  | 0 => match Graph.sourceAt c o.2 with
    | some s => n.fenWrite s.die s.state (List.replicate (32 * (s.sections + 1)) 0)
    | none => n
  | 1 => match Graph.busAt c o.2 with
    | some b => n.fenWrite b.die b.state (List.replicate (32 * b.sections) 0)
    | none => n
  | _ => match Graph.stripAt c o.2 with
    | some s => (n.fenWrite s.die s.state (List.replicate (32 * s.sections + 32) 0)).fenWrite s.die (limGain s) (intBytes unity62 8)
    | none => n

/-- A job is staged (R80): the key is opened, the inactive bank, the shadows and the second banks are written, and the group
commit is requested. -/
def stageJob (n : Node) (j : Job) : Node :=
  let c := j.cfg
  let n := (n.coreKey.stageTable c).stageCoeffs c
  let n := ((Graph.objs c).filter (fun o => Graph.newInstance n.cfgNow c o)).foldl (fun m o => m.clearState c o) n
  let n := c.zeros.foldl (fun m z => m.fenWrite z.1 z.2.1 (List.replicate z.2.2 0)) n
  let n := if n.running then n.stageTargets c else n
  let n := c.staged.foldl (fun m e => m.stageWord e.1 e.2.1 e.2.2.1 e.2.2.2) n
  let n := c.rx.foldl (fun m r => m.setHash r) n
  let n := if c.rate = n.rate then n else n.setFld casPage Fld.casRateRate c.rate
  let n := n.setFld xptPage Fld.xptCtrlSwap 1
  let coeffPages := c.coeffs.filterMap (fun e =>
      if Graph.newInstance n.cfgNow c (e.1 - 1, e.2.1) then none else (Graph.blockOf c (e.1 - 1, e.2.1)).map (fun b => bqdPage b.die))
    ++ c.taps.filterMap (fun e => if Graph.newInstance n.cfgNow c (2, e.1) then none else (Graph.chainOf c (2, e.1)).map (fun b => firPage b.die))
  let pages := (xptPage :: c.staged.map (·.1) ++ coeffPages).eraseDups
  { n with
    rt := { n.rt with
      stagedPages := pages,
      jobs := n.rt.jobs.map (fun (x : Job) => if x.num = j.num then { x with state := .staged } else x) },
    cas := { n.cas with groupReq := true } }

/-- The job that is staged. -/
def stagedJob (n : Node) : Option Job := n.rt.jobs.find? (fun (j : Job) => decide (j.state = .staged))

/-- A job with this number; 0 is the re-admission of R61, which no command names. -/
def job (n : Node) (num : Nat) : Option Job := n.rt.jobs.find? (fun (j : Job) => decide (j.num = num ∧ num ≠ 0))
def modJob (n : Node) (num : Nat) (f : Job → Job) : Node :=
  { n with rt := { n.rt with jobs := n.rt.jobs.map (fun (j : Job) => if j.num = num then f j else j) } }

/-- Nothing keeps an ADMITTED job from being staged (R58, R80). -/
def mayStage (n : Node) : Bool := n.rt.spans.isEmpty && n.coreMayKey && n.stagedJob.isNone

/-- CAS.REFUSE keeps the latest refusal (R59). -/
def noteRefusal (n : Node) (detail num : Nat) : Node := n.setReg casPage 0x060 (BitVec.ofNat 32 (detail * 256 + num % 256))

/-! What a job's commit changes. -/

/-- Causes 0 and 7 of a new source outside a bundle whose input is down already (R100). -/
def downCauses (n : Node) (c : Cfg) (num : Nat) (sh : Shutter) : Shutter :=
  n.sht.inputs.foldl (fun sh e =>
    let i : InputId := ⟨e.1 / 65536, e.1 % 65536⟩
    if (inputSources { n with rt := { n.rt with cfg := c } } i).any (fun (s : SourceCfg) => decide (s.num = num)) then
      let sh := if e.2.missing then setFaded 0 sh else sh
      if e.2.invalid then setFaded 7 sh else sh
    else sh) sh

/-- The strip of a new instance: its configured delay in force, and the refill hold of a path that it ends (R91, R99). A
configured delay below half a sample with FRAC, and a fraction that it cannot take, are counted (R145, R147, R156). -/
def createStrip (n : Node) (c : Cfg) (hold : Option Nat) (o : Obj) : Node :=
  let t := match Graph.delayOf c o with
    | some (d, smp, fr) => (clampTarget d smp fr).1
    | none => 0
  let n := match Graph.delayOf c o with
    | some (d, smp, fr) =>
      let (_, clamped, ignored) := clampTarget d smp fr
      let n := if clamped || ignored then n.bump (dlyPage d.die) Fld.dlyCountClamped else n
      if clamped then n.irq (dlyPage d.die) 2 else n
    | none => n
  let st : StripSt := { target := t, applied := t * 256, base := baseOf t }
  let st := match hold with
    | some f => { st with held := true, refill := f, refillD := refillCover t }
    | none => st
  let cfg := (Graph.objSettings c o).getD {}
  let sh : Shutter := { present := true, cfg := cfg, gain := shutTarget cfg }
  let sh := if hold.isSome then holdShutter sh else sh
  let sh := if o.1 = 0 ∧ (n.bundle (Graph.objBundle c o)).faded ∧ Graph.objBundle c o ≠ 0 then setFaded 1 sh else sh
  let sh := if o.1 = 0 ∧ Graph.objBundle c o = 0 then n.downCauses c o.2 sh else sh
  (n.setStrip (o.1 + 1) o.2 st).setShut (objShut o) sh

/-- A sink carries a transmit stream whose EID the directory refuses, or any one where it refuses the NODE EID (R16)
(DEDUCED, notes/assumptions/125.md). -/
def eidRefused (n : Node) (eids : List Nat) (s : SinkId) : Bool :=
  decide (s.kind = 0) && n.rt.cfg.tx.any (fun (t : TxStreamCfg) =>
    decide (t.first ≤ s.num ∧ s.num < t.first + t.channels) && (eids.contains t.eid || eids.contains n.cfg.eid))

/-- A new sink starts closed and opens over its ramp, unless it has no feed (R71) or carries a stream whose EID the
directory refuses (R16); causes that stand hold it at 0 (R89, R106). -/
def createSink (n : Node) (s : SinkCfg) : Node :=
  let sh : Shutter := { present := true, cfg := s.sh, unfed := decide (3 ≤ s.feedKind), forced := n.eidRefused n.cfg.refused s.id }
  let sh := if shutAim sh s.sh = 0 then sh else startRamp (rateHz n.rate) sh
  let sh := if n.sht.cause3 then setFaded 3 sh else sh
  let sh := if s.bundle ≠ 0 ∧ (n.bundle s.bundle).faded then setFaded 1 sh else sh
  let sh := if n.cas.reindex ≠ .idle then setFaded 4 sh else sh
  n.setShut (sinkShut s.id) (if n.cas.stopping then setFaded 5 sh else sh)

/-- A removed sink's Shutter closes over its ramp and is then dropped (R85) (DEDUCED, notes/assumptions/51.md). -/
def removeSink (n : Node) (s : SinkCfg) : Node :=
  let id := sinkShut s.id
  (n.modShut id (fun sh => { sh with dropping := true })).shutRequest id { (n.shut id).cfg with shut := true }

/-- The spans of a route transition (R83 to R85), over the ramps in force. They last through T also where a closed Shutter switches without a
crossfade, and a removed sink has one while it closes (DEDUCED, notes/assumptions/44.md). -/
def routeSpans (n : Node) (old c : Cfg) : List Span :=
  let s := rateS c.rate
  let (old, c) := (n.withRamps old c old, n.withRamps old c c)
  (Graph.affected old c).map (fun x => { sink := x.sink.id, wait := x.k * s, fade := x.len, closed := isClosed (n.shut (sinkShut x.sink.id)) })
  ++ (Graph.dropped old c).map (fun x => { sink := x.1.id, wait := 0, fade := x.2 * s })

/-- The old instances of a transition: strips and Shutters of the objects that old routes run on through, kept apart from
those of the new instances until they are freed (R83, R85). -/
def keepOld (n : Node) (o : Obj) : Node :=
  (n.setStrip (stateKind (o.1 + 1) true) o.2 (n.strip (o.1 + 1) o.2)).setShut (stripShut (o.1 + 1) o.2 true) (n.shut (objShut o))

/-- Old instances are freed. -/
def freeOlds (n : Node) (os : List Obj) : Node :=
  os.foldl (fun m o => (m.setStrip (stateKind (o.1 + 1) true) o.2 {}).setShut (stripShut (o.1 + 1) o.2 true) {}) n

/-- Old instances that no span and no removed crosspoint holds any more are freed (R76, R83, R85). -/
def freeOld (n : Node) : Node :=
  let on := (Graph.objs n.rt.old).filter n.oldRuns
  let n := n.freeOlds ((Graph.objs n.rt.old).filter (fun o => !on.contains o))
  if n.rt.spans.isEmpty && on.isEmpty then { n with rt := { n.rt with old := {} } } else n

/-- A program that a commit replaces clears its slot's consecutive count, and a STOPPED slot is entered again from the next
casement, its sinks held till then (R165). -/
def slotReplaced (n : Node) (c : CoreId) (slot : Nat) : Node :=
  let was := (n.reed c).stopped.getLsbD slot
  (n.setFld (rcxPage c) Fld.rcxPcntConsec 0 slot).modReed c (fun r => { r with
    stopped := r.stopped &&& ~~~(1#8 <<< slot),
    restarted := if was && n.running then r.restarted ||| (1#8 <<< slot) else r.restarted })

/-- New and changed Reed programs and images are loaded (R160, R182). IMASK of every core whose configuration changes takes
the value of its image (R175). -/
def loadReeds (n : Node) (old c : Cfg) : Node :=
  let at_ := fun (d k : Nat) => (⟨Fin.ofNat 6 d, Fin.ofNat 4 k⟩ : CoreId)
  let put := fun (m : Node) (k : CoreId) (base : Nat) (ws : List Word) =>
    let m := (ws.zipIdx).foldl (fun m e => m.progWrite k (base + e.2) e.1) m
    m.modReed k (fun r => { r with poisonedProg := r.poisonedProg.filter (fun a => !decide (base ≤ a ∧ a < base + ws.length)) })
  let n := (c.reeds.filter (fun (g : ReedCfg) => !old.reeds.contains g)).foldl (fun m g =>
    let k := at_ g.die g.core
    let m := (g.data.zipIdx).foldl (fun m e => m.locStore k (g.regionBase + e.2) e.1) m
    (put m k g.progBase g.program).slotReplaced k g.slot) n
  let n := (c.reedImages.filter (fun (g : ReedImageCfg) => !old.reedImages.contains g)).foldl (fun m g =>
    put m (at_ g.die g.core) g.progBase g.code) n
  let here := fun (x : Cfg) (d k : Nat) => (x.reeds.filter (fun (g : ReedCfg) => decide (g.die = d ∧ g.core = k)),
    x.reedImages.find? (fun (g : ReedImageCfg) => decide (g.die = d ∧ g.core = k)))
  (List.range 24).foldl (fun m i =>
    if here old (i / 4) (i % 4) = here c (i / 4) (i % 4) then m
    else m.modReed (at_ (i / 4) (i % 4)) (fun r => { r with
      imask := BitVec.ofNat 3 (((here c (i / 4) (i % 4)).2.map (·.imask)).getD 0) })) n

/-- Streams that the configuration adds, changes and removes (R190, R202). -/
def changeStreams (n : Node) (old c : Cfg) : Node :=
  let n := (old.rx.filter (fun (r : RxStreamCfg) => !c.rx.any (fun x => decide (x.num = r.num)))).foldl (fun m r => m.setRx r.num {}) n
  let n := (old.tx.filter (fun (r : TxStreamCfg) => !c.tx.any (fun x => decide (x.num = r.num)))).foldl (fun m r => m.setTx r.num {}) n
  let n := c.rx.foldl (fun m r => m.modRx r.num (fun x => { x with unplaced := false })) n
  let fresh := c.rx.filter (fun (r : RxStreamCfg) => !old.rx.contains r)
  let n := fresh.foldl (fun m r =>
    (if old.rx.any (fun x => decide (x.num = r.num ∧ x.eid = r.eid ∧ x.interop = r.interop)) then m else m.setRx r.num {}).startStream r.num) n
  (c.rx.filter (fun (r : RxStreamCfg) => old.rx.contains r)).foldl (fun m r =>
    if (m.rxs r.num).state = .waiting ∨ (m.rxs r.num).state = .incompatible then m.holdInput ⟨0, r.num⟩ else m) n

/-- The configuration `c` takes effect in place of the one in force. The old routes of its transition run on, in Fen areas that
the compiler has placed apart from the new ones (R83, R84) (DESIGN CHOICE, notes/assumptions/170.md). -/
def routeEffect (n : Node) (c : Cfg) (pct : Nat) : Node :=
  let old := n.cfgNow
  let holds := Graph.holds old c (rateS c.rate)
  let spans := n.routeSpans old c
  let glides := if n.running then [] else c.glides.filter (fun e => !Graph.newInstance old c (glideObj e))
  let gone := (Graph.objs old).filter (fun o => Graph.newInstance old c o)
  let lost := (Graph.objs old).filter (fun o => !(Graph.objs c).contains o)
  let n := (gone ++ lost.filter (fun o => !gone.contains o)).foldl (fun m o =>
    match Graph.blockOf old o with
    | some b => m.discardMarks b.die (o.1 + 1) o.2
    | none => m) n
  let n := n.freeOlds (Graph.objs n.rt.old)
  let n := { n with rt := { n.rt with
    cfg := c, old := old, inForce := true, spans := spans, lostDetail := none, lostSlots := [],
    readmitWaits := false } }
  let run := (Graph.objs old).filter n.oldRuns
  let n := run.foldl (fun m o => m.keepOld o) n
  let n := if spans.isEmpty && run.isEmpty then { n with rt := { n.rt with old := {} } } else n
  let n := lost.foldl (fun m o => (m.setStrip (o.1 + 1) o.2 {}).setShut (objShut o) {}) n
  let n := (Graph.objs c).foldl (fun m o =>
    if Graph.newInstance old c o then m.createStrip c ((holds.find? (fun h => decide (h.1 = o))).map (·.2)) o
    else if Graph.objSettings old o = Graph.objSettings c o then m
    else m.shutRequest (objShut o) ((Graph.objSettings c o).getD {})) n
  let n := (old.sinks.filter (fun (s : SinkCfg) => (Graph.sinkAt c s.id).isNone)).foldl (fun m s => m.removeSink s) n
  let n := c.sinks.foldl (fun m (s : SinkCfg) => match Graph.sinkAt old s.id with
    | none => m.createSink s
    | some a =>
      let m := m.modShut (sinkShut s.id) (fun sh => { sh with unfed := decide (3 ≤ s.feedKind) })
      let m := if a.sh = s.sh ∧ (a.feedKind < 3 ↔ s.feedKind < 3) then m else m.shutRequest (sinkShut s.id) s.sh
      let refused := m.eidRefused m.cfg.refused s.id
      if s.id.kind = 0 ∧ (m.shut (sinkShut s.id)).forced ≠ refused then m.forceShut (sinkShut s.id) refused else m) n
  let n := (n.loadReeds old c).changeStreams old c
  let n := (List.range 16).foldl (fun m k => if m.aesState k = 2 ∨ m.aesState k = 3 then m.holdSources ⟨1, k⟩ else m) n
  let n := glides.foldl (fun m e => match Graph.delayOf c (glideObj e) with
    | some (_, smp, fr) => m.applyTarget e.1 e.2.1 smp fr e.2.2
    | none => m) n
  (n.setFld casPage Fld.casStatTransition (if spans.isEmpty then 0 else 1)).setFld casPage Fld.casLoadAdmitted pct

/-- A CONFIG job whose ROUTE job has ended is DONE or FAILED (R346). -/
def configEnds (n : Node) (route st : Nat) : Node :=
  { n with cfg := { n.cfg with jobs := n.cfg.jobs.map (fun (x : ConfigJob) =>
    if x.route = some route ∧ x.state = 1 then { x with state := st } else x) } }

/-- The configuration of a saved copy is in force: its identity and sequence number are the node's (R334, R344). -/
def takeCopy (n : Node) (j : Job) : Node :=
  match j.copy with
  | some (b, seq) => { n with
      cfg := { n.cfg with eid := j.cfg.eid, inForceB := b }, hng := { n.hng with cfgSeq := seq } }
  | none => n

/-- The staged job commits at casement `index` (R58): it is in force, other jobs are stale, and its COMMITs are answered
(DEDUCED, notes/assumptions/50.md). -/
def jobEffect (n : Node) (j : Job) (index : Nat) : Node :=
  let n := if j.num = 0 then n else n.takeCopy j
  let n := (n.routeEffect j.cfg (admittedPct (n.budgets none j.cfg))).clearSuspect
  let jobs := n.rt.jobs.map (fun (x : Job) =>
    if x.num = j.num then { x with state := .committed, waiting := [] }
    else if x.state = .admitted then { x with state := .stale, waiting := [] }
    else if x.state = .compiling then { x with overtaken := true }
    else x)
  let stale := n.rt.jobs.filter (fun (x : Job) => decide (x.num ≠ j.num ∧ x.state = .admitted) && !x.waiting.isEmpty)
  let n := { n with rt := { n.rt with
    jobs := jobs.filter (fun x => decide (x.num ≠ 0)), forceJob := if j.num = 0 then n.rt.forceJob else j.num, stagedPages := [] } }
  let n := if j.num = 0 then n.setFld casPage Fld.casStatDegraded 1 else n.configEnds j.num 2
  let n := (jobs.filter (fun (x : Job) => decide (x.state = .stale))).foldl (fun m x => m.configEnds x.num 3) n
  let n := n.serve (fun n => j.waiting.foldl (fun m s => m.answer s okCode (some (index % 2 ^ 24))) n)
  let refused := detailOf 0 staleReason 0xFF
  n.serve (fun n => stale.foldl (fun m (x : Job) =>
    (x.waiting.foldl (fun m s => m.answer s refusedCode refused) m).noteRefusal refused x.num) n)

/-- One casement of the route transition has passed (R83, R84): `done` counts to sample 0 of the block that a sink begins to
play. -/
def moveSpans (n : Node) : Node :=
  { n with rt := { n.rt with spans := n.rt.spans.map (fun (x : Span) => { x with done := x.done + n.s }) } }

/-- Spans that have run are over, and the old routes are freed. -/
def runSpans (n : Node) : Node :=
  if n.rt.spans.isEmpty then (if n.rt.old.items.isEmpty then n else n.freeOld)
  else
    let left := n.rt.spans.filter (fun x => decide (x.done < x.wait + x.fade))
    let n := { n with rt := { n.rt with spans := left } }.freeOld
    if left.isEmpty then (n.setFld casPage Fld.casStatTransition 0).irq xptPage 2 else n

/-- Every span ends at once (R85, a re-index). -/
def endSpans (n : Node) : Node :=
  if n.rt.spans.isEmpty then n
  else (({ n with rt := { n.rt with spans := [] } }).freeOld.setFld casPage Fld.casStatTransition 0).irq xptPage 2

end Node

/-! The commands of the service. -/

/-- DETAIL of a job as the data word of STATUS (R57). -/
def jobWord (n : Node) (j : Job) : Word :=
  match (if j.num = n.rt.forceJob then n.rt.lostDetail else none) with
  | some d => BitVec.ofNat 32 (d * 256)
  | none => BitVec.ofNat 32 (j.detail * 256)

/-- STATUS code of a job's state (R58). -/
def jobCode : JobState → Nat
  | .compiling => 1 | .admitted => 2 | .staged => 3 | .refused => 4 | .stale => 5 | .committed => 6

/-- A number from 1 to 255 that no job has, from `k` on (DESIGN CHOICE, notes/assumptions/38.md). -/
def freeJobNum (jobs : List Job) (k : Nat) : Nat :=
  ((List.range 8).map (fun i => (k + i - 1) % 255 + 1)).find? (fun x => !jobs.any (fun (j : Job) => decide (j.num = x))) |>.getD 1

/-- A new job COMPILING for an image address. -/
def Node.newJob (n : Node) (addr : Nat) : Node × Nat :=
  let num := freeJobNum n.rt.jobs n.rt.nextJob
  ({ n with rt := { n.rt with nextJob := num % 255 + 1, jobs := n.rt.jobs ++ [{ num := num, state := .compiling, addr := addr, base := if n.rt.inForce then some n.rt.cfg else none }] } }, num)

/-- ROUTE COMPILE (R57, R58). -/
def routeCompile (n : Node) (slot : Fin 4) (lo hi : Word) : Node :=
  n.serveSlot slot (fun n =>
    if !n.slotBusy slot then n
    else if 4 ≤ (n.rt.jobs.filter (fun (j : Job) => decide (j.num ≠ 0))).length then n.answer slot busyCode
    else
      let (n, num) := n.newJob (lo.toNat + hi.toNat % 256 * 2 ^ 32)
      n.answer slot acceptedCode num)

def execRouteCompile (slot : Fin 4) (addrLo addrHi : Word) (s : State) : Host.Outcome State Fault Refusal :=
  s.hub (fun n => routeCompile n slot addrLo addrHi)

/-- ROUTE_COMPILE_DONE (R56, R58): the job is checked against the configuration that was in force when it started. Loads are
found on a placement that keeps to R12, R55, R114 and R141; a compiler puts out no other (DESIGN CHOICE,
notes/assumptions/178.md). With the job that boot compiles the
firmware also loads REF and DPL and enables REF, and the node goes to stage CLOCK (R369, R373). -/
def routeCompileDone (n : Node) (num : Nat) (cfg : Sys2Proof.Cfg) : Node :=
  n.serve (fun n =>
    match n.job num with
    | none => n
    | some j =>
      if j.state ≠ .compiling then n
      else
        let cfg := Graph.bundled cfg
        if (n.checkRefusal cfg).isNone && !n.placed cfg then n
        else
        let v := n.admission j.base cfg
        let st : JobState := if v.refusal.isSome then .refused else if j.overtaken then .stale else .admitted
        let n := n.modJob num (fun x => { x with state := st, cfg := cfg, detail := v.detail, loads := v.loads })
        let n := match v.refusal with
          | some d => n.noteRefusal d num
          | none => n
        let n := if st = .admitted then n else n.configEnds num 3
        if n.boot.job = some num then
          let (meas, n) := n.freshMeas
          let n := (n.setFld refPage Fld.pgCtrlEnable 1).modHdr refPage (fun h => { h with active := true })
          let n := n.loadRefpol cfg.refpol meas
          let n := { n with boot := { n.boot with clockWait := cfg.clockWait } }
          if st = .admitted then (n.setFld ⟨.sys, 0⟩ Fld.sysBootStage 7).irq ⟨.sys, 0⟩ 0 else n
        else n)

/-- A command that names a job: BAD_ARGUMENT where no such job exists (R401). -/
def withJob (n : Node) (slot : Fin 4) (num : Nat) (f : Node → Job → Node) : Node :=
  n.serveSlot slot (fun n =>
    if !n.slotBusy slot then n
    else match n.job num with
    | none => n.answer slot badArgument
    | some j => f n j)

/-- ROUTE STATUS (R57). -/
def routeStatus (n : Node) (slot : Fin 4) (num : Nat) : Node :=
  withJob n slot num (fun n j =>
    match j.state with
    | .refused => n.answer slot refusedCode j.detail
    | .compiling => n.answer slot okCode (some 1)
    | s => n.answer slot okCode (jobCode s) [jobWord n j])

def execRouteStatus (slot : Fin 4) (job : Nat) (s : State) : Host.Outcome State Fault Refusal :=
  s.hub (fun n => routeStatus n slot job)

/-- Words of REPORT from a budget index on (R57). The index of a budget is its BUDGET number of R59, and a number that names no budget
of R53 gives 0 (DESIGN CHOICE, notes/assumptions/190.md). -/
def reportWords (loads : List (Nat × Nat × Nat)) (first : Nat) : List Word :=
  ((List.range 62).filter (fun k => decide (first + k ≤ 0x71))).map (fun k =>
    match loads.find? (fun e => decide (e.1 = first + k)) with
    | some e => BitVec.ofNat 32 (e.2.1 % 65536 * 65536 + e.2.2 % 65536)
    | none => 0)

/-- ROUTE REPORT (R57, R401). -/
def routeReport (n : Node) (slot : Fin 4) (num first : Nat) : Node :=
  withJob n slot num (fun n j =>
    match j.state with
    | .compiling => n.answer slot busyCode
    | .refused => if Node.loadReason j.detail then n.answer slot okCode none (reportWords j.loads first)
        else n.answer slot refusedCode j.detail
    | _ => n.answer slot okCode none (reportWords j.loads first))

def execRouteReport (slot : Fin 4) (job first : Nat) (s : State) : Host.Outcome State Fault Refusal :=
  s.hub (fun n => routeReport n slot job first)

/-- ROUTE LATENCY (R57, R67, R401). -/
def routeLatency (n : Node) (slot : Fin 4) (num : Nat) (sel : Word) : Node :=
  withJob n slot num (fun n j =>
    match j.state with
    | .compiling => n.answer slot busyCode
    | .refused => n.answer slot refusedCode j.detail
    | _ => n.answer slot okCode none [n.latencyWord j.cfg (Node.cfgDelay j.cfg) sel])

def execRouteLatency (slot : Fin 4) (job : Nat) (sel : Word) (s : State) : Host.Outcome State Fault Refusal :=
  s.hub (fun n => routeLatency n slot job sel)

/-- ROUTE DISCARD (R57, R401). COMMITs that waited for the job find it freed (DESIGN CHOICE, notes/assumptions/49.md). -/
def routeDiscard (n : Node) (slot : Fin 4) (num : Nat) : Node :=
  withJob n slot num (fun n j =>
    if j.state = .staged then
      let d := detailOf 0 stagedReason 0xFF
      (n.answer slot refusedCode d).noteRefusal d num
    else
      let n := ({ n with rt := { n.rt with jobs := n.rt.jobs.filter (fun (x : Job) => decide (x.num ≠ num)) } }).configEnds num 3
      (j.waiting.foldl (fun m s => m.answer s badArgument) n).answer slot okCode)

def execRouteDiscard (slot : Fin 4) (job : Nat) (s : State) : Host.Outcome State Fault Refusal :=
  s.hub (fun n => routeDiscard n slot job)

/-- ROUTE COMMIT up to the group commit (R57, R58, R80, R401): the job is staged at once unless a crossfade or the key of
another port holds it. -/
def routeCommitted (n : Node) (slot : Fin 4) (num : Nat) : Node :=
  withJob n slot num (fun n j =>
    let waits := fun (m : Node) => m.modJob num (fun x => { x with waiting := x.waiting ++ [slot] })
    match j.state with
    | .compiling => n.answer slot busyCode
    | .refused => (n.answer slot refusedCode j.detail).noteRefusal j.detail num
    | .stale =>
      let d := detailOf 0 staleReason 0xFF
      (n.answer slot refusedCode d).noteRefusal d num
    | .committed => n.answer slot badArgument
    | .staged => waits n
    | .admitted =>
      if n.stagedJob.isSome then n.answer slot busyCode
      else
        let n := waits n
        if n.mayStage then n.stageJob { j with waiting := j.waiting ++ [slot] } else n)

/-- The job that waits to be staged is staged (R58, R80). -/
def stageWaiting (n : Node) : Node :=
  n.serve (fun n =>
    match n.rt.jobs.find? (fun (j : Job) => decide (j.state = .admitted) && (j.auto || !j.waiting.isEmpty)) with
    | some j => if n.mayStage then n.stageJob j else n
    | none => n)

end Sys2Proof.Machine
end

