-- ==== Sys2Proof/Machine/Commit.lean ====
section
/-! DEFINITION. Shadowed writes and commits (R35 to R37, R398), the group commit (R36), page keys (R38), and the rate trigger
(R51, R402). -/

namespace Sys2Proof.Machine

open Sys2Proof (Word Byte Sparse Page Block Die Port Src ShutterId)

/-- Every register page. -/
def allPages : List Page := blocks.flatMap (fun b => (List.range (blockPages b)).map (fun i => ⟨b, i⟩))

/-- Object indices of a register with shadow fields: DEC.CFG shows one channel at a time. -/
def shIndices (p : Page) : List Nat := if p.block = .dec then List.range 64 else [0]

/-- Registers of a block that hold SH fields, with those fields. -/
def shRows (b : Block) : List (Nat × List Field) :=
  (Reg.rowsOf b).filterMap (fun r =>
    let fs := (r.fields.filter (fun f => decide (f.access = .sh))).map (·.field)
    if fs.isEmpty then none else some (r.off, fs))

/-- Words of a snapshot. -/
abbrev Snap := List (Nat × Word)

/-- The word of a register in a snapshot. -/
def snapWord (s : Snap) (k : Nat) : Word := ((s.find? (fun e => decide (e.1 = k))).map (·.2)).getD 0

namespace Node

/-- Shadow words, and active words, of a page's registers with SH fields. -/
def shadowWords (n : Node) (p : Page) : Snap :=
  (shRows p.block).flatMap (fun r => (shIndices p).map (fun i => (regKey p r.1 i, n.reg p r.1 i)))
def activeWords (n : Node) (p : Page) : Snap :=
  (shRows p.block).flatMap (fun r => (shIndices p).map (fun i =>
    (regKey p r.1 i, Sparse.get resetKey n.active (regKey p r.1 i))))

/-- Every SH field of a page takes its snapshot value in the active copy. -/
def applySnap (n : Node) (p : Page) (s : Snap) : Node :=
  (shRows p.block).foldl (fun m r => (shIndices p).foldl (fun m i =>
    r.2.foldl (fun m f => m.setAct p f (wordField (snapWord s (regKey p r.1 i)) f) i) m) m) n

/-- A shadow value of the page differs from its active value. -/
def shadowDirty (n : Node) (p : Page) : Bool :=
  (shRows p.block).any (fun r => (shIndices p).any (fun i =>
    r.2.any (fun f => decide (n.fld p f i ≠ n.act p f i))))

/-- Pages that a group commit covers (R36): CAS, every page in mode GROUP, and the pages that the staged job has written
(DEDUCED, notes/assumptions/45.md). -/
def groupPages (n : Node) : List Page :=
  allPages.filter (fun p => n.pagePresent p &&
    (decide (p = casPage) || decide (n.fld p Fld.pgCtrlCommitMode = 1) || n.rt.stagedPages.contains p))

/-- A commit of a page has been requested and has not yet taken effect (PG_STAT.COMMIT_WAIT). -/
def commitWaits (n : Node) (p : Page) : Bool :=
  (n.hdr p).commitReq || (n.hdr p).snapshot.isSome || (n.cas.groupReq && n.groupPages.contains p)

/-- The key of a page closes. -/
def closeKey (n : Node) (p : Page) : Node := n.modHdr p (fun h => { h with keyHolder := none, keyCount := 0 })

/-! What a commit does beside its fields. -/

/-- The node rate changes (R48, R51). -/
def setRate (n : Node) (r : Nat) : Node :=
  (n.setFld casPage Fld.casStatRate r).setFld casPage Fld.casStatSpc (rateS r)

/-- The configuration holds objects (R402). -/
def hasObjects (c : Sys2Proof.Cfg) : Bool :=
  !(c.sources.isEmpty && c.buses.isEmpty && c.xpoints.isEmpty && c.strips.isEmpty && c.sinks.isEmpty && c.reeds.isEmpty
    && c.rx.isEmpty && c.tx.isEmpty)

/-- The configuration in force has objects and was not compiled for a rate, so that R402 checks it there. -/
def rateNeedsCheck (n : Node) (r : Nat) : Bool := n.rt.inForce && hasObjects n.rt.cfg && decide (n.rt.cfg.rate ≠ r)

/-- The rate that a sequence is to take: none where it is in force already with a configuration compiled for it. -/
def pendingRate (n : Node) (r : Nat) : Option Nat :=
  if 6 ≤ r then none else if r = n.rate ∧ n.rateNeedsCheck r = false then none else some r

/-- CAS.RATE takes effect in the active copy, which held `was`: codes 6 and 7 leave it unchanged, and a change starts the
re-index sequence, or is acted on when the one that runs has ended; while casements are not running the check awaits the
next enable of CAS (R400). They take a rate at once that needs no check: with no objects in force, or with a job compiled
for it (R37, R51, R402) (DEDUCED, notes/assumptions/61.md). -/
def rateCommit (n : Node) (was : Nat) : Node :=
  let r := n.act casPage Fld.casRateRate
  if 6 ≤ r then n.setAct casPage Fld.casRateRate was
  else if r = was then n
  else if n.cas.reindex ≠ .idle ∨ n.cas.awaiting then { n with cas := { n.cas with again := true } }
  else if n.running then { n with cas := { n.cas with newRate := n.pendingRate r, trigger := true } }
  else if n.rateNeedsCheck r then { n with cas := { n.cas with newRate := some r } }
  else ({ n with cas := { n.cas with newRate := none } }).setRate r

/-- What a page's commit does beside its fields; `old` holds the active words before it. -/
def pageEffect (n : Node) (p : Page) (old : Snap) : Node :=
  let was := fun (off idx : Nat) => snapWord old (regKey p off idx)
  let now := fun (off idx : Nat) => Sparse.get resetKey n.active (regKey p off idx)
  match p.block with
  | .cas => n.rateCommit (wordField (was Fld.casRateRate.off 0) Fld.casRateRate)
  | .xpt => if n.act p Fld.xptCtrlSwap = 1 then n.xptSwap else n
  | .sht => ({ n with sht := { n.sht with snapshot := [] } }).applyPushes n.sht.snapshot
  | .bqd => n.effectSwaps p.inst false
  | .fir => n.effectSwaps p.inst true
  | .aes => n.aesCommit p.inst ((List.range 6).any (fun j =>
      decide (wordField (was (Fld.aesTxCsBytes j).off 0) (Fld.aesTxCsBytes j)
        ≠ wordField (now (Fld.aesTxCsBytes j).off 0) (Fld.aesTxCsBytes j))))
  | .tdm => n.modTdm p.inst (fun t => { t with waiting := true })
  | .dec => (List.range 64).foldl (fun m k =>
      if wordField (was 0x044 k) Fld.decCfgOn ≠ 0 ∨ wordField (now 0x044 k) Fld.decCfgOn ≠ 0 then
        m.decCommit k (decide (wordField (was 0x044 k) Fld.decCfgOn ≠ 0))
          (decide (wordField (was 0x044 k) Fld.decCfgPreset ≠ wordField (now 0x044 k) Fld.decCfgPreset ∨
            wordField (was 0x044 k) Fld.decCfgPin ≠ wordField (now 0x044 k) Fld.decCfgPin))
      else m) n
  | .mod => n.carrierCommit (((List.range 8).filter (fun j =>
      decide (was (Fld.modCarrierPeriod j).off 0 ≠ now (Fld.modCarrierPeriod j).off 0))).map (fun j => 8 * p.inst + j))
  | .hng =>
    let n := if decide (wordField (was Fld.hngPartnerEid.off 0) Fld.hngPartnerEid ≠ n.act hngPage Fld.hngPartnerEid)
        && (n.hdr hngPage).active then n.hngStart else n
    if (List.range 3).any (fun j => decide (was (Fld.hngEligLease j).off 0 ≠ now (Fld.hngEligLease j).off 0)) then
        n.eligCommitted
    else n
  | _ => n

/-- A page's commit takes effect with its snapshot (R35, R38); `index` is the casement's index, none while casements are not
running. An action that IMMEDIATE writes left to this boundary follows with it, by the active words before them (R398). Every
commit clears SUSPECT (R335). -/
def commitPage (n : Node) (p : Page) (snap : Snap) (index : Option Nat) : Node :=
  let old := ((n.hdr p).immediate).getD (n.activeWords p)
  let n := n.modHdr p (fun h => { h with snapshot := none, groupSnap := false, immediate := none })
  let n := (((n.applySnap p snap).pageEffect p old).closeKey p).clearSuspect
  match index with
  | some i => n.setReg p 0x024 (BitVec.ofNat 32 i)
  | none => n

/-- The swap of the staged job is still written: WK writes after the key closed were discarded (R80). -/
def swapReady (n : Node) : Bool := n.stagedJob.isNone || n.flag xptPage Fld.xptCtrlSwap

/-- A page's snapshot at a cutoff, with its queue or marks (R35, R108, R137) (DEDUCED, notes/assumptions/48.md). -/
def snapPage (n : Node) (p : Page) (group : Bool) : Node :=
  let n := n.modHdr p (fun h => { h with commitReq := false, snapshot := some (n.shadowWords p), groupSnap := group })
  match p.block with
  | .sht => n.snapQueue
  | .bqd => n.cutoffBqd p.inst
  | .fir => n.cutoffFir p.inst
  | _ => n

/-- The commit cutoff before the boundary of casement `b` (R35, R36, R151). A job whose SWAP was lost is staged again before
its group commit, once the key is free (R80). -/
def commitCutoff (n : Node) (b : Nat) : Node :=
  let n := if n.swapReady || !n.coreMayKey then n
    else match n.stagedJob with
      | some j => n.stageJob j
      | none => n
  let group := n.cas.groupReq && n.swapReady
  let own := allPages.filter (fun p => (n.hdr p).commitReq)
  let gs := if group then n.groupPages else []
  let n := match n.stagedJob with
    | some j => if group then n.stageHeaders j.cfg b else n
    | none => n
  let n := own.foldl (fun m p => m.snapPage p (gs.contains p)) n
  let n := (gs.filter (fun p => !own.contains p)).foldl (fun m p => m.snapPage p true) n
  let n := if group then { n with cas := { n.cas with groupReq := false, groupSnap := true } } else n
  (List.range 6).foldl (fun m d => m.cutoffSteer d b) n

/-- The staged job, where the XPT snapshot holds its swap. -/
def jobDue (n : Node) : Option Job :=
  match n.stagedJob, (n.hdr xptPage).snapshot with
  | some j, some s => if wordField (snapWord s (regKey xptPage Fld.xptCtrlSwap.off 0)) Fld.xptCtrlSwap = 1 ∧ (n.hdr xptPage).groupSnap
      then some j else none
  | _, _ => none

/-- Commits at the boundary of casement `b` (R35, R36): a group whose dies cannot all confirm is deferred as a whole. Actions
that IMMEDIATE writes left to this boundary follow (R398). -/
def commitBoundary (n : Node) (b : Nat) (unconfirmed : Bool) : Node :=
  let group := n.cas.groupSnap && !unconfirmed
  let n := if n.cas.groupSnap && unconfirmed then (n.bump casPage Fld.casEventsDeferred).irq casPage 4 else n
  let due := allPages.filter (fun p => (n.hdr p).snapshot.isSome && (!(n.hdr p).groupSnap || group))
  let job := if group then n.jobDue else none
  let n := match job with
    | some j => n.jobEffect j b
    | none => n
  let n := due.foldl (fun m p => m.commitPage p (((n.hdr p).snapshot).getD []) (some b)) n
  let n := if group then ({ n with cas := { n.cas with groupSnap := false } }).irq casPage 5 else n
  (allPages.filter (fun p => (n.hdr p).immediate.isSome)).foldl (fun m p =>
    match (m.hdr p).immediate with
    | some old => (m.modHdr p (fun h => { h with immediate := none })).pageEffect p old
    | none => m) n

/-- A commit of a page while casements are not running, with the shadow values of the moment (R37). -/
def commitNow (n : Node) (p : Page) : Node :=
  let n := n.modHdr p (fun h => { h with commitReq := false })
  let n := match p.block with
    | .sht => n.snapQueue
    | .bqd => n.cutoffBqd p.inst
    | .fir => n.cutoffFir p.inst
    | _ => n
  n.commitPage p (n.shadowWords p) none

/-- Commits that wait while casements are not running take effect (R37). A commit that swaps the crosspoint banks waits for
a follow copy to end, and a group commit that swaps them waits as a whole (R79). -/
def settleCommits (n : Node) : Node :=
  if n.running then n
  else
    let n := if n.swapReady || !n.coreMayKey then n
      else match n.stagedJob with
        | some j => n.stageJob j
        | none => n
    let group := (n.cas.groupReq || n.cas.groupSnap) && n.swapReady
    let due := allPages.filter (fun p => (n.hdr p).commitReq || (n.hdr p).snapshot.isSome || (group && n.groupPages.contains p))
    let waits := n.xpt.copying && due.contains xptPage && n.flag xptPage Fld.xptCtrlSwap
    let whole := waits && group && n.groupPages.contains xptPage
    let only := fun (p : Page) => whole && n.groupPages.contains p && !(n.hdr p).commitReq
    let due := due.filter (fun p => !(waits && decide (p = xptPage)) && !only p)
    let n := if whole then { n with cas := { n.cas with groupReq := true, groupSnap := false } } else n
    let n := if waits then
        modXpt (n.modHdr xptPage (fun h => { h with commitReq := h.commitReq || !whole, snapshot := none }))
          (fun x => { x with swapWaits := true })
      else n
    let group := group && !whole
    let n := match (if group then n.stagedJob else none) with
      | some j => n.jobEffect j n.clk.index
      | none => n
    let n := due.foldl (fun m p => m.commitNow p) n
    let n := if group then ({ n with cas := { n.cas with groupReq := false, groupSnap := false } }).irq casPage 5 else n
    (allPages.filter (fun p => (n.hdr p).immediate.isSome)).foldl (fun m p =>
      match (m.hdr p).immediate with
      | some old => (m.modHdr p (fun h => { h with immediate := none })).pageEffect p old
      | none => m) n
where
  modXpt (n : Node) (f : XptSt → XptSt) : Node := { n with xpt := f n.xpt }

/-- A page's commit is requested (R35, R37). -/
def requestCommit (n : Node) (p : Page) : Node := (n.modHdr p (fun h => { h with commitReq := true })).settleCommits

/-- The group commit is requested (R36). -/
def requestGroup (n : Node) : Node := ({ n with cas := { n.cas with groupReq := true } }).settleCommits

/-- Shadow fields of a register are written. Under IMMEDIATE they take effect at once, and a tied action at the next boundary
(R398). -/
def writeShadows (n : Node) (p : Page) (fs : List (Field × Nat)) (idx : Nat) : Node :=
  let n := fs.foldl (fun (m : Node) e => m.setFld p e.1 e.2 idx) n
  if fs.isEmpty || decide (n.fld p Fld.pgCtrlCommitMode ≠ 2) then n
  else
    let old := n.activeWords p
    let n := n.modHdr p (fun h => { h with immediate := some (h.immediate.getD old) })
    (fs.foldl (fun (m : Node) e => m.setAct p e.1 e.2 idx) n).settleCommits

/-- One shadow field is written. -/
def writeShadow (n : Node) (p : Page) (f : Field) (v idx : Nat) : Node := n.writeShadows p [(f, v)] idx

/-! Keys (R38). -/

/-- A write of PG_KEY.CODE. -/
def keyCode (n : Node) (p : Page) (port : Port) (code : Nat) : Node :=
  let h := n.hdr p
  let armed := h.keyArmed.contains port
  let others := h.keyArmed.filter (fun x => decide (x ≠ port))
  let n := n.setHdr p { h with keyArmed := others }
  let n := if armed && decide (code ≠ 0x5A ∧ h.keyHolder = some port) then n.closeKey p else n
  let holder := (n.hdr p).keyHolder
  let foreign := decide (holder ≠ none ∧ holder ≠ some port)
  if code = 0xA5 then
    if foreign then n.bump p Fld.pgKeyDrops else n.modHdr p (fun h => { h with keyArmed := h.keyArmed ++ [port] })
  else if code = 0x5A then
    if !armed then n
    else if foreign then n.bump p Fld.pgKeyDrops
    else n.modHdr p (fun h => { h with keyHolder := some port, keyCount := 0, keyAt := n.clk.now })
  else if holder = some port then n.closeKey p
  else n

/-- Any other write of a port to a page ends a key sequence that it had begun, and closes the key that it holds and was
about to renew (DEDUCED, notes/assumptions/24.md). -/
def keyTouched (n : Node) (p : Page) (port : Port) : Node :=
  let h := n.hdr p
  if h.keyArmed.contains port then
    let n := n.setHdr p { h with keyArmed := h.keyArmed.filter (fun x => decide (x ≠ port)) }
    if h.keyHolder = some port then n.closeKey p else n
  else n

/-- The key of a page is open for a port. -/
def keyOpenFor (n : Node) (p : Page) (port : Port) : Bool := decide ((n.hdr p).keyHolder = some port)

/-- Keys at a boundary: each counts one casement and closes at the eighth. The compiler renews the XPT key while a job is
staged (R80). -/
def runKeys (n : Node) : Node :=
  { n with hdrs := n.hdrs.map (fun e =>
      let h := e.2
      if h.keyHolder.isNone then e
      else if e.1 = pageCode xptPage ∧ n.stagedJob.isSome ∧ h.keyHolder = some .core then (e.1, { h with keyCount := 0 })
      else if 7 ≤ h.keyCount then (e.1, { h with keyHolder := none, keyCount := 0 })
      else (e.1, { h with keyCount := h.keyCount + 1 })) }

/-- The milliseconds of the keys count from here on: generation stops (R38). -/
def stopKeys (n : Node) : Node :=
  { n with hdrs := n.hdrs.map (fun e => if e.2.keyHolder.isNone then e else (e.1, { e.2 with keyAt := n.clk.now })) }

/-- Casements run again: the whole milliseconds passed count toward the 8 of each key (R38). -/
def resumeKeys (n : Node) : Node :=
  { n with hdrs := n.hdrs.map (fun e =>
      let h := e.2
      let k := h.keyCount + (n.clk.now - h.keyAt) / Config.millisecond
      if h.keyHolder.isNone then e
      else if e.1 = pageCode xptPage ∧ n.stagedJob.isSome ∧ h.keyHolder = some .core then (e.1, { h with keyCount := 0 })
      else if 8 ≤ k then (e.1, { h with keyHolder := none, keyCount := 0 })
      else (e.1, { h with keyCount := k })) }

end Node

/-- PAGE_COMMIT_REQUEST (R35, R37): a write of 1 to PG_COMMIT; that of CAS is the group commit (R36). A page of an absent die
or in its soft reset takes no write (R4, R34). -/
def pageCommitRequest (n : Node) (src : Src) (p : Page) : Node :=
  if !pageValid p || !n.pagePresent p then n.decodeError src (pageAddr p + 0x024)
  else if (n.hdr p).resetting then n.respond false
  else
    let n := (n.keyTouched p src.port).respond true
    if p = Node.casPage then n.requestGroup else n.requestCommit p

def execPageCommitRequest (src : Src) (page : Page) (s : State) : Host.Outcome State Fault Refusal :=
  s.hub (fun n => pageCommitRequest n src page)

/-- GROUP_COMMIT_REQUEST (R36). -/
def execGroupCommitRequest (src : Src) (s : State) : Host.Outcome State Fault Refusal :=
  s.hub (fun n => pageCommitRequest n src Node.casPage)

/-- COMMIT_CUTOFF (R35): while casements run, 1,000 hub cycles before the next boundary. -/
def execCommitCutoff (s : State) : Host.Outcome State Fault Refusal :=
  s.hub (fun n => if n.running then n.commitCutoff (n.clk.index + 1) else n)

/-- KEY_CODE_WRITE (R38). -/
def keyCodeWrite (n : Node) (src : Src) (p : Page) (code : Nat) : Node :=
  if !pageValid p || !n.pagePresent p then n.decodeError src (pageAddr p + 0x028)
  else if (n.hdr p).resetting then n.respond false
  else (n.keyCode p src.port code).respond true

def execKeyCodeWrite (src : Src) (page : Page) (code : Byte) (s : State) : Host.Outcome State Fault Refusal :=
  s.hub (fun n => keyCodeWrite n src page code.toNat)

/-- KEY_EXPIRY (R38): the count of 8 has passed. -/
def execKeyExpiry (page : Page) (s : State) : Host.Outcome State Fault Refusal :=
  s.hub (fun n => if (n.hdr page).keyHolder.isSome then n.closeKey page else n)

/-- ROUTE COMMIT (R57): staged and requested at once where nothing holds it, and effective at once while casements are not
running (R37). -/
def execRouteCommit (slot : Fin 4) (job : Nat) (s : State) : Host.Outcome State Fault Refusal :=
  s.hub (fun n => (routeCommitted n slot job).settleCommits)

/-- ROUTE_COMPILE_DONE: a reload of a saved configuration is committed as soon as it is ADMITTED (R346). -/
def compileDone (n : Node) (num : Nat) (cfg : Sys2Proof.Cfg) : Node :=
  let n := routeCompileDone n num cfg
  if n.rt.jobs.any (fun (j : Job) => decide (j.num = num ∧ j.state = .admitted) && j.auto) then (stageWaiting n).settleCommits else n

def execRouteCompileDone (job : Nat) (cfg : Sys2Proof.Cfg) (s : State) : Host.Outcome State Fault Refusal :=
  s.hub (fun n => compileDone n job cfg)

/-- ROUTE_STAGE_START (R58, R80). -/
def execRouteStageStart (s : State) : Host.Outcome State Fault Refusal := s.hub (fun n => (stageWaiting n).settleCommits)

/-- FOLLOW_COPY_END (R79): held writes take effect, and then a swap that waited while casements are not running. -/
def followCopyEnd (n : Node) : Node :=
  if n.xpt.copying then
    let n := n.followEnds
    if n.xpt.swapWaits then ({ n with xpt := { n.xpt with swapWaits := false } }).settleCommits else n
  else n

def execFollowCopyEnd (s : State) : Host.Outcome State Fault Refusal := s.hub followCopyEnd

/-- READMIT_AFTER_LOSS (R61): the compiler's placement of the configuration in force on what is left; no other configuration is
re-admitted (DESIGN CHOICE, notes/assumptions/178.md). If it fits, it is
committed at once as a route change, as a job without a number; if not, code 0x06 is raised and the hold stands. While a
crossfade runs, a job is staged or another port holds the XPT key, the compiler waits. STATUS of the configuration in force
then names the first of several lost slots, with the LOAD_PCT of the budget that failed (DESIGN CHOICE,
notes/assumptions/160.md). -/
def readmitAfterLoss (n : Node) (cfg : Sys2Proof.Cfg) : Node :=
  n.serve (fun n =>
    let cfg := Graph.bundled cfg
    if !n.rt.readmitWaits || !n.rt.inForce || !n.mayStage || decide (Graph.plan cfg ≠ Graph.plan n.rt.cfg) ||
        ((n.checkRefusal cfg).isNone && !n.placed cfg) then n
    else
      let v := n.admission (some n.rt.cfg) cfg
      let n := { n with rt := { n.rt with readmitWaits := false } }
      match v.refusal with
      | some d =>
        let shown := match n.rt.lostSlots.head? with
          | some slot => d / 65536 * 65536 + engineLoad * 256 + slot
          | none => d
        let n := { n with rt := { n.rt with lostDetail := some shown } }
        ((n.raiseCas 6).noteRefusal d n.rt.forceJob).placeRings
      | none =>
        let j : Job := { num := 0, state := .admitted, cfg := cfg, detail := v.detail, loads := v.loads }
        (({ n with rt := { n.rt with jobs := n.rt.jobs ++ [j] } }).stageJob j).settleCommits)

def execReadmitAfterLoss (cfg : Sys2Proof.Cfg) (s : State) : Host.Outcome State Fault Refusal :=
  s.hub (fun n => readmitAfterLoss n cfg)

end Sys2Proof.Machine
end

