-- ==== Sys2Proof/Machine/Casement.lean ====
section
/-! DEFINITION. Casements (R45 to R67, R402): unfinished work at the deadline, the start and stop of generation, the
re-index sequence and the check of a committed rate. -/

namespace Sys2Proof.Machine

open Sys2Proof (Word Byte Sparse Page Block Die Port Src SinkId ShutterId Unfinished ItemCfg ReedCfg SinkCfg)

namespace Node

/-! Unfinished work (R62 to R64). -/

/-- The logical slot whose items a physical engine runs. -/
def slotOf (n : Node) (d k : Nat) : Option Nat := if k = 8 then (n.die d).spareFor else some k

/-- The items of a slot whose die is there and whose engine is not lost (R61, R110). -/
def liveSchedule (n : Node) (d slot : Nat) : List Sched :=
  if n.boot.engPresent.getLsbD d && !n.rt.lostSlots.contains (d * 8 + slot) then n.schedule d slot else []

/-- Sinks that an unfinished item of a unit reaches (R62): those of its route, of the old one only while they are in their
span (R85). -/
def unfinishedSinks (n : Node) (u : Unfinished) : List SinkId :=
  match n.slotOf u.die.val u.unit with
  | some slot => ((n.schedule u.die.val slot).filter (fun x => decide (x.num = u.item))).flatMap (fun x =>
      (Graph.itemSinks x.cfg x.item).filter (fun s => !x.old || n.rt.spans.any (fun (p : Span) => decide (p.sink = s))))
  | none => []

/-- An item has not run for want of input that is late on a Lintel link (R64): its own transfer, that of an item before it in
its slot, or that of an item which it waits for. Items wait for one another in at most the eight steps of the fuel. -/
def linkLate (n : Node) : Nat → Sched → Bool
  | 0, _ => false
  | fuel + 1, x =>
    let d := x.item.die
    let at_ := fun (d slot num : Nat) => match (n.schedule d slot).find? (fun (y : Sched) => decide (y.num = num)) with
      | some y => n.linkLate fuel y
      | none => false
    match n.nextItem d x.item.slot with
    | none => false
    | some y =>
      if y.num ≠ x.num then n.linkLate fuel y
      else match n.firstUnmet x with
        | some (.transfer what) => if n.transferReady what then true else
            (match n.sender what with | some s => at_ s.1 s.2.1 s.2.2 | none => false)
        | some (.item slot num) => at_ d slot num
        | some (.there h slot num) => at_ h slot num
        | _ => false

/-- Items that have not completed in the casement (R62): those aborted, those that engines still run, by die and engine, and
those not started, by die, slot and schedule, each with whether late input was the cause (DESIGN CHOICE,
notes/assumptions/154.md). -/
def unfinishedItems (n : Node) : List Unfinished :=
  let running := (List.finRange 6).flatMap (fun d => (List.range 9).filterMap (fun k =>
    ((n.engine d.val k).item).map (fun i => (⟨d, k, i, false⟩ : Unfinished))))
  let seen := n.cas.aborted.map (·.2) ++ running
  let rest := (List.finRange 6).flatMap (fun d => (List.range 8).flatMap (fun slot =>
    (n.liveSchedule d.val slot).filterMap (fun x =>
      let unit := (n.engineOf d.val slot).getD 8
      if n.cas.done.contains (d.val, slot, x.num) || n.itemAborted d.val slot x.num ||
          running.any (fun u => decide (u.die = d ∧ u.unit = unit ∧ u.item = x.num)) then none
      else some ⟨d, unit, x.num, n.linkLate 8 x⟩)))
  seen ++ rest

/-- Results of items that have not completed are discarded, and no spare reruns one (R63, R117). The items run on, under the check
unit (R115). -/
def discardResults (n : Node) : Node :=
  (List.range 6).foldl (fun m d => ((List.range 9).foldl (fun m k =>
    if (m.engine d k).item.isSome then m.modEngine d k (fun e => { e with buffer := [], late := true }) else m) m).modDie d (fun s => { s with rerun := none })) n

/-! Generation. -/

/-- Units of time from now to the next boundary that the PHC gives (R49). -/
def toBoundary (n : Node) : Nat :=
  let frac := (n.phc.ns * 4294967296 + n.phc.frac) * rateCr n.rate % 4294967296000000000
  ceilDiv ((4294967296000000000 - frac) * 1176) (rateCr n.rate * 42949672960)

/-- F of each path's refill after generation has restarted, with the delays in force (R51, R91). -/
def refillNow (n : Node) (w : List Obj) : Nat :=
  (w.map (fun (o : Obj) =>
    let t := (n.strip (o.1 + 1) o.2).target
    let taps := match o.1 with
      | 2 => match Graph.stripAt n.rt.cfg o.2 with
        | some s => s.segments * 64 - 1
        | none => 0
      | _ => 0
    refillCover t + taps)).sum + n.s

/-- Every path is held for refill, and each sink keeps its cause until all of its paths are refilled (R51, R91). -/
def refillAll (n : Node) : Node :=
  let ways := n.rt.cfg.sinks.map (fun (s : SinkCfg) => (s.id, Graph.sinkWays n.rt.cfg s))
  let all := (ways.flatMap (·.2)).filterMap (fun w => (w.head?).map (fun o => (o, n.refillNow w)))
  let objs := (all.map (·.1)).eraseDups
  let sinks := ways.map (fun x => (x.1, (x.2.map (n.refillNow)).foldl Nat.max 0))
  let n := objs.foldl (fun m o =>
    let f := ((all.filter (fun x => decide (x.1 = o))).map (·.2)).foldl Nat.max 0
    (m.modStrip (o.1 + 1) o.2 (fun st => { st with held := true, refill := f, refillD := refillCover st.target })).modShut
      (objShut o) holdShutter) n
  { n with cas := { n.cas with refills := sinks } }

/-- One casement of the sinks' refill: causes 4 and 5 clear where no path of the sink is left to refill (R51, R100). -/
def runRefills (n : Node) : Node :=
  let k := n.s
  let done := n.cas.refills.filter (fun (x : SinkId × Nat) => decide (x.2 ≤ k))
  let left := (n.cas.refills.filter (fun (x : SinkId × Nat) => decide (k < x.2))).map (fun x => (x.1, x.2 - k))
  let n := { n with cas := { n.cas with refills := left } }
  done.foldl (fun m x => m.modShut (sinkShut x.1) (fun sh => clearCause 4 (clearCause 5 sh))) n

/-- Casements begin: the boundary at which they do is one that the PHC gives (R49). DP0 runs with them (R241), and keys
count casements again (R38). -/
def beginCasements (n : Node) (index at_ : Nat) : Node :=
  { n.resumeKeys with
      clk := { n.clk with running := true, index := index, boundaryAt := at_ }, pins := { n.pins with clocked := .live },
      cas := { n.cas with slew := 0 }
      sht := { n.sht with shutters := n.sht.shutters.map (fun (e : Nat × Shutter) => (e.1, { e.2 with past := [] })) } }.clearProgress.dp0Start

/-- Generation starts in the casement that the PHC gives. Sinks that a stop has faded open once their paths are refilled
(R51, R100). -/
def beginGeneration (n : Node) : Node :=
  let n := n.beginCasements n.phcIndex (n.clk.now + n.toBoundary - rateLen n.rate)
  if n.cas.stopping then ({ n with cas := { n.cas with stopping := false } }).restartStreams.refillAll else n

/-- A trigger that waited for the end of a sequence, with the rate committed meanwhile (R51). -/
def afterSequence (n : Node) : Node :=
  if n.cas.again then
    { n with cas := { n.cas with again := false, trigger := true, newRate := n.pendingRate (n.act casPage Fld.casRateRate) } }
  else n

/-- A rate that is admitted, or that needs no check, is taken, and the configuration in force runs at it (R402). -/
def takeRate (n : Node) (r : Nat) : Node :=
  ({ n with
      cas := { n.cas with newRate := none }
      rt := { n.rt with cfg := if n.rt.inForce then { n.rt.cfg with rate := r } else n.rt.cfg } }).setRate r

/-- PG_CTRL.ENABLE of CAS starts generation. A rate in CAS.RATE at which the configuration in force was not compiled is
first checked by R402, and generation starts with the answer (R400) (DEDUCED, notes/assumptions/57.md)
(DEDUCED, notes/assumptions/60.md). -/
def casStart (n : Node) : Node :=
  if n.running ∨ n.cas.awaiting then n
  else
    let r := n.act casPage Fld.casRateRate
    if 6 ≤ r then ({ n with cas := { n.cas with newRate := none } }).beginGeneration
    else if n.rateNeedsCheck r then { n with cas := { n.cas with newRate := some r, awaiting := true } }
    else (n.takeRate r).beginGeneration

/-- PG_CTRL.ENABLE := 0 of CAS: every sink fades, and generation stops at the boundary after the fade. -/
def casStop (n : Node) : Node :=
  ({ n with cas := { n.cas with stopping := true, refills := [] } }).causeSinksNow 5 32

/-- Generation stops: no casement runs, and waiting commits take effect (R37, R51). -/
def haltCasements (n : Node) : Node :=
  let n := { n with clk := { n.clk with running := false, boundaryAt := n.clk.now } }
  let n := { n with cas := { n.cas with beyond := false } }
  (n.stopKeys.endItems.endSwaps.setFld casPage Fld.casStatAligned 0).dp0Stop.settleCommits

/-- Generation stops after CAS was disabled. A re-index sequence ends with it; a committed rate is checked when CAS is
enabled again (DEDUCED, notes/assumptions/56.md). -/
def casHalt (n : Node) : Node :=
  let n := if n.cas.reindex = .idle then n
    else ({ n with cas := { n.cas with reindex := .idle, trigger := n.cas.again } }.uncauseSinks 4).setFld
      casPage Fld.casStatReindexing 0
  let n := { n with cas := { n.cas with awaiting := false, again := false, newRate := none } }
  if n.running then n.haltCasements else n

/-! The re-index sequence (R51). -/

/-- The sequence starts at a boundary after its trigger: every sink fades (DEDUCED, notes/assumptions/54.md). -/
def reindexStart (n : Node) : Node :=
  if n.cas.trigger ∧ n.cas.reindex = .idle then
    (({ n with cas := { n.cas with trigger := false, reindex := .fading, refills := [] } }).causeSinks 4 32).setFld
      casPage Fld.casStatReindexing 1
  else n

/-- A trigger (R51): one that arrives during the sequence is acted on when it ends. -/
def reindexTrigger (n : Node) : Node :=
  if n.cas.reindex = .idle then { n with cas := { n.cas with trigger := true } }
  else { n with cas := { n.cas with again := true } }

/-- The rate in force stays: both copies of CAS.RATE return to it, and the refusal is recorded (R402). -/
def rateRefused (n : Node) (detail : Nat) : Node :=
  let n := { n with cas := { n.cas with awaiting := false, newRate := none } }
  let n := (n.setFld casPage Fld.casRateRate n.rate).setAct casPage Fld.casRateRate n.rate
  (n.noteRefusal detail 0xFF).raiseCas 7

/-- The boundary just produced less the boundary of casement `b` that the PHC gives by R49, times the casements per second,
in 2^-32 ns: positive where it came late. -/
def alignError (n : Node) (b : Nat) : Int :=
  (((n.phc.sec * 1000000000 + n.phc.ns) * 4294967296 + n.phc.frac) * rateCr n.rate : Nat) - (b * 4294967296000000000 : Nat)

/-- The same in ns, rounded down (DESIGN CHOICE, notes/assumptions/153.md). -/
def alignNs (n : Node) (b : Nat) : Int := n.alignError b / (rateCr n.rate * 4294967296 : Nat)

/-- Time units that DP0 takes off the next casement (R50): the error, within the phase-slope limit of DPL0
(DESIGN CHOICE, notes/assumptions/153.md). -/
def alignSlew (n : Node) (b : Nat) : Int :=
  let units := n.alignError b * 1176 / (rateCr n.rate * 42949672960 : Nat)
  let most : Int := (n.psl 0 * 1176 / (rateCr n.rate * 10) : Nat)
  max (-most) (min most units)

/-- |ALIGN| exceeds ALIGN_LIM, or does so no longer (R50): code 4 is raised where a gap begins that no re-index will close. -/
def judgeAlign (n : Node) (beyond : Bool) : Node :=
  let was := n.cas.beyond
  let n := { n with cas := { n.cas with beyond := beyond } }
  let n := n.setFld casPage Fld.casStatAligned (if beyond then 0 else 1)
  if !beyond then n
  else
    let n := n.irq casPage 3
    if n.flag casPage Fld.casCtrlAutoReindex then
      if n.cas.reindex = .idle then { n with cas := { n.cas with trigger := true } } else n
    else if was then n
    else n.raiseCas 4

/-- The alignment error that a boundary has measured (R50) (DEDUCED, notes/assumptions/55.md). -/
def runAlign (n : Node) (ns slew : Int) : Node :=
  let v := max (-2147483647) (min 2147483647 ns)
  let beyond := decide (n.fld casPage Fld.casAlignLimNs < ns.natAbs)
  let n := { n with cas := { n.cas with slew := if beyond then 0 else slew } }
  (n.setReg casPage 0x054 (BitVec.ofInt 32 v)).judgeAlign beyond

/-- A write of CAS.ALIGN_LIM is judged against the error that CAS.ALIGN shows (R50). -/
def limitAlign (n : Node) : Node :=
  if n.running then n.judgeAlign (decide (n.fld casPage Fld.casAlignLimNs < ((n.reg casPage 0x054).toInt).natAbs)) else n

/-- OFF changes with the index, so that SEQ of every stream continues without a gap after casement `last` (R333). -/
def offStays (n : Node) (last index : Nat) : Node :=
  n.setReg hngPage 0x074 (n.reg hngPage 0x074 + BitVec.ofNat 32 (last + 1) - BitVec.ofNat 32 index)

end Node

/-- WORK_DEADLINE (R62 to R64): items not complete are unfinished, with those that wait for their results; the first is
captured, its lateness gives the fault's code, and its engine is tested. A slot that R61 holds raises no fault. -/
def workDeadline (n : Node) : Node :=
  if !n.running || n.cas.deadlinePassed then n
  else
    let n := n.openWindow
    let us := n.unfinishedItems
    let n := us.foldl (fun m u => m.failSinks (n.unfinishedSinks u)) n
    let n := { n.discardResults with cas := { n.cas with deadlinePassed := true } }
    let n := match us.head? with
      | some u =>
        let seen := n.cas.unfinished
        let n := n.casUnfinished u.die.val u.unit u.item u.late
        if seen then n else n.modEngine u.die.val u.unit (fun e => { e with testAsked := true })
      | none => n
    allCores.foldl (fun m c => m.reedDeadline c) n

def execWorkDeadline (s : State) : Host.Outcome State Fault Refusal := s.hub workDeadline

/-- UNFINISHED_ITEM_END (R63): the item, unfinished at a work deadline, ends and its results are discarded. -/
def unfinishedItemEnd (n : Node) (d unit item : Nat) : Node :=
  if (n.engine d unit).item = some item ∧ (n.engine d unit).late then
    n.modEngine d unit (fun e => { e with item := none, ops := [], buffer := [], past := 0, ran := {}, recompute := false, late := false })
  else n

def execUnfinishedItemEnd (die : Die) (unit : Nat) (item : Nat) (s : State) : Host.Outcome State Fault Refusal :=
  s.hub (fun n => unfinishedItemEnd n die unit item)

/-- CAS_REINDEX_NOW (R51, R9): a write of 1 to CAS.CTRL.REINDEX_NOW, for the key holder. -/
def casReindexNow (n : Node) (src : Src) : Node :=
  let n := (n.keyTouched Node.casPage src.port).respond true
  if n.keyOpenFor Node.casPage src.port then n.reindexTrigger
  else n.bump Node.casPage Fld.pgKeyDrops

def execCasReindexNow (src : Src) (s : State) : Host.Outcome State Fault Refusal :=
  s.hub (fun n => if (n.hdr Node.casPage).resetting then n.respond false else casReindexNow n src)

/-- REINDEX_GENERATION_STOP (R51, R402): generation stops at n+3.0. A committed rate at which the configuration in force
was not compiled awaits its re-admission. -/
def reindexGenerationStop (n : Node) : Node :=
  if n.cas.reindex = .fading ∧ n.running then
    let n := { n with pins := { n.pins with clocked := .low }, cas := { n.cas with reindex := .stopped } }
    let n := n.haltCasements
    match n.cas.newRate with
    | some r => { n with cas := { n.cas with awaiting := n.rateNeedsCheck r } }
    | none => n
  else n

def execReindexGenerationStop (s : State) : Host.Outcome State Fault Refusal := s.hub reindexGenerationStop

/-- REINDEX_RESUME (R51): casements resume at the next boundary that the PHC gives, at a new rate if one was admitted, with
their inputs and their packets (R52, R193). The configuration that the rate was admitted with is in force at it (DEDUCED, notes/assumptions/58.md)
(DESIGN CHOICE, notes/assumptions/62.md). -/
def reindexResume (n : Node) : Node :=
  if n.cas.reindex = .stopped ∧ n.cas.awaiting = false then
    let n := match n.cas.newRate with
      | some r => n.takeRate r
      | none => n
    let last := n.clk.index
    let onIt := decide ((n.phc.ns * 4294967296 + n.phc.frac) * rateCr n.rate % 4294967296000000000 = 0 ∧ n.clk.now ≠ n.clk.boundaryAt)
    let index := if onIt then n.phcIndex else n.phcIndex + 1
    let n := if onIt then n else n.advanceTo (n.clk.now + n.toBoundary)
    let n := n.beginCasements index n.clk.now
    let n := { n with sil := { n.sil with
      index := index, epoch := n.phc.epoch, latchAt := n.clk.now, cr := rateCr n.rate, ownTime := false } }
    let n := n.endMoves.restartStreams.reindexLocal.endSpans.refillAll
    let n := ({ n with io := { n.io with outs := [], lastOut := [] } }.gatherInputs index []).offStays last index
    let n := { n with ptp := { n.ptp with lockedOnce := false } }
    let n := n.irq Node.casPage 0
    let n := { n with cas := { n.cas with reindex := .idle } }
    let n := (n.setFld Node.casPage Fld.casStatReindexing 0).bump Node.casPage Fld.casEventsReindex
    let n := (n.irq Node.casPage 2).raiseCas 3
    let n := n.runAlign (n.alignNs index) (n.alignSlew index)
    let n := ((n.runHinge (index - 1)).launchStreams index {}).finishDigests []
    let edges := n.sht.edges
    let n := { n with sht := { n.sht with edges := [] } }
    (allCores.foldl (fun m c => m.reedBoundary edges c) n).afterSequence
  else n

def execReindexResume (s : State) : Host.Outcome State Fault Refusal := s.hub reindexResume

/-- Generation that waited for the check of R400 starts with the answer. -/
def Node.startWaited (n : Node) : Node :=
  if n.cas.reindex = .idle ∧ !n.running then n.beginGeneration.afterSequence else n

/-- The refusal of a configuration in force one of whose work items is too large for a rate: its engine's budget (R55)
(DESIGN CHOICE, notes/assumptions/191.md). -/
def oversizeItem (c : Sys2Proof.Cfg) : Option Nat :=
  (c.items.find? (fun (i : ItemCfg) => decide (Graph.itemCap c.rate < 96 + Graph.itemWork c i (fun _ => true) (fun _ => true) ∨
      8192 < Graph.itemBytes c i))).map (fun i =>
    detailOf (Node.loadShare (96 + Graph.itemWork c i (fun _ => true) (fun _ => true)) (capEngine c.rate) 100) engineLoad (i.die * 8 + i.slot))

/-- RATE_READMIT_ANSWER (R402): the ROUTE service re-admits the configuration in force at the committed rate. -/
def rateReadmitAnswer (n : Node) : Node :=
  n.serve (fun n =>
    match n.cas.newRate with
    | some r =>
      if n.cas.awaiting then
        let v := n.admission none { n.rt.cfg with rate := r }
        match v.refusal.orElse (fun _ => oversizeItem { n.rt.cfg with rate := r }) with
        | some d => (n.rateRefused d).startWaited
        | none =>
          let n := ({ n with cas := { n.cas with awaiting := false } }).setFld Node.casPage Fld.casLoadAdmitted v.pct
          (if n.cas.reindex = .idle then n.takeRate r else n).startWaited
      else n
    | none => n)

def execRateReadmitAnswer (s : State) : Host.Outcome State Fault Refusal := s.hub rateReadmitAnswer

/-- RATE_READMIT_TIMEOUT (R402): no answer within 100 ms. R59 gives the record of such a refusal no REASON, BUDGET or
LOAD_PCT: a free value. -/
def rateReadmitTimeout (n : Node) : Node :=
  if n.cas.awaiting then
    let (w, n) := n.fresh
    (n.rateRefused (w.toNat % 16777216)).startWaited
  else n

def execRateReadmitTimeout (s : State) : Host.Outcome State Fault Refusal := s.hub rateReadmitTimeout

end Sys2Proof.Machine
end

