-- ==== Sys2Proof/Machine/Flash.lean ====
section
/-! DEFINITION. The QSPI flash (R363, R364): erase and program, configuration copies and firmware images as they lie in it. -/

namespace Sys2Proof.Machine

open Sys2Proof (Word Byte Sparse Page Src)

def qspPage : Page := ⟨.qsp, 0⟩
def secPage : Page := ⟨.sec, 0⟩
def sysPage : Page := ⟨.sys, 0⟩

/-- First byte of firmware image A or B, and its space (R363). -/
def imageBase (b : Bool) : Nat := if b then 0x800000 else 0x100000
def imageSpace : Nat := 0x700000

/-- First byte of configuration copy A or B, and its space (R363). -/
def copyBase (b : Bool) : Nat := if b then 0x2000000 else 0x1000000
def copySpace : Nat := 0x1000000

/-- MAGIC of a firmware image and of a configuration copy (R363). -/
def imageMagic : Word := 0x43594849
def copyMagic : Word := 0x43594346

/-- Bytes that an operation covers. -/
def opSize : FlashOp → Nat
  | .erase4k => 4096
  | .erase64k => 65536
  | .program => 256

namespace Node

/-- A byte of flash; erased flash reads 0xFF (PRESUMED, notes/assumptions/11.md). -/
def flashByte (n : Node) (off : Nat) : Byte := Sparse.get (fun _ => 0xFF) n.flash.bytes off
def flashBytes (n : Node) (off k : Nat) : List Byte := (List.range k).map (fun i => n.flashByte (off + i))
def flashWord (n : Node) (off : Nat) : Word := BitVec.ofNat 32 (leNat (n.flashBytes off 4))

/-- Write bytes of flash. -/
def flashWrite (n : Node) (off : Nat) (bs : List Byte) : Node :=
  let cells := ((List.range bs.length).zip bs).foldl (fun m e => Sparse.set (fun _ => 0xFF) m (off + e.1) e.2) n.flash.bytes
  { n with flash := { n.flash with bytes := cells } }

/-- Erase a range of flash. -/
def flashErase (n : Node) (off len : Nat) : Node :=
  { n with flash := { n.flash with
      bytes := n.flash.bytes.filter (fun e => !decide (off ≤ e.1 ∧ e.1 < off + len)),
      broken := n.flash.broken.filter (fun r => !decide (off ≤ r.1 ∧ r.1 + r.2 ≤ off + len)) } }

/-- A range holds bytes that an interrupted command has left undefined. -/
def flashBroken (n : Node) (off len : Nat) : Bool := n.flash.broken.any (fun r => rangesMeet off len r.1 r.2)

/-- A command that runs, or a CONFIG job that writes, is interrupted (R345, R376): its range is undefined
(DESIGN CHOICE, notes/assumptions/131.md). -/
def flashInterrupted (n : Node) : Node :=
  match n.flash.running with
  | some (op, off, _) => { n with flash := { n.flash with running := none, broken := (off, opSize op) :: n.flash.broken } }
  | none => n

/-- The sequence number of a configuration copy, if the copy is valid: its header and CRC check (R345). -/
def copySeq (n : Node) (b : Bool) : Option Word :=
  let base := copyBase b
  if n.flashWord base = copyMagic then
    let len := (n.flashWord (base + 8)).toNat
    if copySpace < len + 16 ∨ n.flashBroken base (len + 16) then none
    else if crc32c (n.flashBytes (base + 16) len) = (n.flashWord (base + 12)).toNat then some (n.flashWord (base + 4)) else none
  else none

/-- The copy that the node uses (R345): the valid one of higher sequence number, A where they are equal. -/
def copyChosen (n : Node) : Option (Bool × Word) :=
  match n.copySeq false, n.copySeq true with
  | none, none => none
  | some a, none => some (false, a)
  | none, some b => some (true, b)
  | some a, some b => if a.toNat < b.toNat then some (true, b) else some (false, a)

/-- The copy that a save writes, and the sequence number it takes (R345). With no valid copy it is copy A with 1
(DEDUCED, notes/assumptions/128.md). -/
def copyToSave (n : Node) : Bool × Word :=
  match n.copySeq false, n.copySeq true with
  | none, none => (false, 1)
  | some a, none => (true, a + 1)
  | none, some b => (false, b + 1)
  | some a, some b => if a.toNat < b.toNat then (false, b + 1) else (true, a + 1)

/-- A save writes a snapshot to a copy. -/
def writeCopy (n : Node) (b : Bool) (seq : Word) (bs : List Byte) : Node :=
  let n := n.flashErase (copyBase b) copySpace
  n.flashWrite (copyBase b) (leBytes copyMagic.toNat 4 ++ leBytes seq.toNat 4 ++ leBytes bs.length 4 ++ leBytes (crc32c bs) 4 ++ bs)

/-- The firmware image that runs (SEC.STAT.IMAGE), once one has been verified (R370). -/
def imageRuns (n : Node) : Option Bool :=
  if n.fld sysPage Fld.sysBootResultA = 1 ∨ n.fld sysPage Fld.sysBootResultB = 1 then
    some (n.flag secPage Fld.secStatImage)
  else none

/-- A CONFIG job takes the flash: the copy that it writes is invalid until it ends. -/
def takeFlash (n : Node) (num : Nat) : Node :=
  let n := { n with cfg := { n.cfg with owner := some num, waiting := none } }
  let b := n.copyToSave.1
  let n := { n with cfg := { n.cfg with
    jobs := n.cfg.jobs.map (fun (j : ConfigJob) => if j.num = num then { j with writes := some b } else j) } }
  (n.flashErase (copyBase b) 4096).setFld qspPage Fld.qspStatCfgJob 1

/-- A CONFIG job starts to write, or waits for the command that runs (R364). -/
def startSave (n : Node) (num : Nat) : Node :=
  if n.flash.running.isSome then { n with cfg := { n.cfg with waiting := some num } } else n.takeFlash num

/-- A write of QSP.CMD.OP with the page key, from the core or PCIe port (R364). -/
def flashCommand (n : Node) (op : FlashOp) : Node :=
  let off := n.fld qspPage Fld.qspAddrAddr / opSize op * opSize op
  let meets := fun (base len : Nat) => rangesMeet off (opSize op) base len
  let overRunning := match n.imageRuns with
    | some b => meets (imageBase b) imageSpace
    | none => false
  if overRunning || meets 0 0x100000 || n.cfg.owner.isSome || n.flash.running.isSome then n.setFld qspPage Fld.qspStatRefused 1
  else
    let bs := match op with
      | .program => (List.range 64).flatMap (fun k => leBytes (n.reg qspPage (0x100 + 4 * k)).toNat 4)
      | _ => []
    ({ n with flash := { n.flash with running := some (op, off, bs) } }).setFld qspPage Fld.qspStatBusy 1

/-- QSP.CMD is written (R364, R38): WK, and only from the core and PCIe ports (DEDUCED, notes/assumptions/133.md). -/
def qspCommand (n : Node) (src : Src) (code : Nat) : Node :=
  let op := match code with
    | 1 => some FlashOp.erase4k
    | 2 => some .erase64k
    | 3 => some .program
    | _ => none
  if !n.keyOpenFor qspPage src.port then (if code = 0 then n else n.bump qspPage Fld.pgKeyDrops)
  else if src.port ≠ .core ∧ src.port ≠ .pcie then n
  else match op with
    | some o => n.flashCommand o
    | none => n

end Node

/-- QSPI_COMMAND_END (R364): the command's bytes change and its BUSY clears; a CONFIG job that waited starts. -/
def qspiCommandEnd (n : Node) : Node :=
  match n.flash.running with
  | none => n
  | some (op, off, bs) =>
    let n := { n with flash := { n.flash with running := none } }
    let n := match op with
      | .program => n.flashWrite off bs
      | _ => n.flashErase off (opSize op)
    let n := (n.setFld qspPage Fld.qspStatBusy 0).irq qspPage 0
    match n.cfg.waiting with
    | some num => n.takeFlash num
    | none => n

def execQspiCommandEnd (s : State) : Host.Outcome State Fault Refusal := s.hub qspiCommandEnd

end Sys2Proof.Machine
end

