-- ==== Sys2Proof/Machine/Sill.lean ====
section
/-! DEFINITION. The Sill island's own duties (R326 to R330): its casement count, the safe state, the watchdog, temperatures
and supplies; the fault commands and the FAULT service (R316, R331). -/

namespace Sys2Proof.Machine

open Sys2Proof (Word Byte Sparse Page Block Die Port Src)

/-- A duty of the Sill island, which goes on while VDD_SILL is up, whatever the hub does (R326). -/
def State.sill (s : State) (f : Node → Node) : Host.Outcome State Fault Refusal :=
  s.act (fun n => if n.sil.powered then f n else n)

/-- FAULT_REPORT (R315, R316): a page's fault reaches the collector. -/
def execFaultReport (page : Page) (code : Nat) (detail : Word) (unit : Nat) (s : State) : Host.Outcome State Fault Refusal :=
  s.sill (fun n => if pageValid page then n.raiseFault page (code % 256) detail unit else n)

/-- FAULT_RECORD_WRITE (R316, R320). -/
def execFaultRecordWrite (s : State) : Host.Outcome State Fault Refusal := s.sill (fun n => n.writeRecord)

/-- FATAL_HIGH_Z (R325): 1 ms after a fatal fault the drive pins and RAIL_DMD are high-impedance. -/
def fatalHighZ (n : Node) : Node :=
  if n.sil.fatal then
    let n := n.pinsAll (fun _ => true) .highZ
    { n with pins := { n.pins with rail := .highZ } }
  else n

def execFatalHighZ (s : State) : Host.Outcome State Fault Refusal := s.sill fatalHighZ

/-- Casement length of the last rate family, in time units (R327). -/
def Node.sillLen (n : Node) : Nat := if n.sil.cr = 7350 then 16000000 else 14700000

/-- The island counts one casement (R321, R327): the latched index advances by one, and its time to the next boundary. -/
def Node.sillCount (n : Node) (at_ : Nat) : Node :=
  { n with sil := { n.sil with index := n.sil.index + 1, latchAt := at_ } }

/-- SILL_OWN_TIME_START (R327): no boundary for two casement lengths, so the island goes on counting with its own
oscillator; both missed casements count. -/
def sillOwnTimeStart (n : Node) : Node :=
  if n.sil.ownTime then n
  else
    let n := n.advanceTo (n.sil.latchAt + 2 * n.sillLen)
    let n := (n.sillCount (n.sil.latchAt + n.sillLen))
    let n := (n.sillCount (n.sil.latchAt + n.sillLen))
    { n with sil := { n.sil with ownTime := true } }

def execSillOwnTimeStart (s : State) : Host.Outcome State Fault Refusal := s.sill sillOwnTimeStart

/-- SILL_CASEMENT_TICK (R327): the island counts a casement on its own oscillator. -/
def sillCasementTick (n : Node) : Node :=
  if n.sil.ownTime then
    let t := n.sil.latchAt + n.sillLen
    (n.advanceTo t).sillCount t
  else n

def execSillCasementTick (s : State) : Host.Outcome State Fault Refusal := s.sill sillCasementTick

namespace Node

/-- Enter the safe state (R328). In the fatal state the pins stay as R325 gives (DEDUCED, notes/assumptions/120.md). -/
def enterSafe (n : Node) : Node :=
  if n.sil.safe then n
  else
    let n := ({ n with sil := { n.sil with safe := true } }.bump silPage Fld.silEventsSafe).irq silPage 2
    if n.sil.fatal then n else n.driveSafe

/-- Leave the safe state (R328). -/
def releaseSafe (n : Node) : Node :=
  if n.sil.fatal ∨ !n.sil.safe then n
  else { n with sil := { n.sil with safe := false } }.driveUnsafe

/-- A write of SIL.SAFE whose FORCE and RELEASE bits are taken (R328): a write that sets both forces. -/
def safeWrite (n : Node) (force release : Bool) : Node :=
  if force then n.enterSafe else if release then n.releaseSafe else n

/-- A write of SIL.WDOG under its key (R329): ENABLE once 1 stays 1, and the count starts with it. -/
def wdogWrite (n : Node) (v : Word) : Node :=
  let was := n.flag silPage Fld.silWdogEnable
  let n := n.setFld silPage Fld.silWdogTimeoutMs v.toNat
  if was then n
  else if v.getLsbD 31 then
    { n.setFld silPage Fld.silWdogEnable 1 with sil := { n.sil with wdogRunning := true } }
  else n

/-- A kick from the core port restarts the count; one from another port is discarded (R329). -/
def kick (n : Node) (port : Port) : Node :=
  if port = .core ∧ n.flag silPage Fld.silWdogEnable then
    { n.setFld silPage Fld.silStatWdogExpired 0 with sil := { n.sil with wdogRunning := true } }
  else n

end Node

/-- WATCHDOG_EXPIRY (R329). -/
def watchdogExpiry (n : Node) : Node :=
  if n.sil.wdogRunning then
    let n := { n with sil := { n.sil with wdogRunning := false } }
    (((n.raiseFault silPage 1).setFld silPage Fld.silStatWdogExpired 1).irq silPage 0).bump silPage Fld.silEventsWdog
  else n

def execWatchdogExpiry (s : State) : Host.Outcome State Fault Refusal := s.sill watchdogExpiry

/-- A temperature of a die as its byte: 0x80 where the die is absent. -/
def tempByte (present : Bool) (t : Int) : Nat := if present then (BitVec.ofInt 8 t).toNat else 0x80

/-- The dies of a thermal sample that are present, in the order hub, E0 to E5, drive die. -/
def Node.sampled (n : Node) : List Bool :=
  true :: ((List.range 6).map (fun d => n.boot.engPresent.getLsbD d)) ++ [n.boot.drvPresent]

/-- THERMAL_SAMPLE (R330): one reading per die present. -/
def thermalSample (n : Node) (temps : List Int) : Node :=
  let cells := n.sampled.zip (temps ++ List.replicate 8 (-128))
  let byte := fun (k : Nat) => match cells[k]? with | some e => tempByte e.1 e.2 | none => 0x80
  let word := fun (k : Nat) => BitVec.ofNat 32 (byte k + byte (k + 1) * 2 ^ 8 + byte (k + 2) * 2 ^ 16 + byte (k + 3) * 2 ^ 24)
  let n := (n.setReg silPage 0x054 (word 0)).setReg silPage 0x058 (word 4)
  let live := (cells.filter (·.1)).map (·.2)
  let warn := (BitVec.ofNat 8 (n.fld silPage Fld.silThermWarn)).toInt
  let n :=
    if !n.sil.thermWarn ∧ live.any (fun t => decide (warn < t)) then
      let n := { n with sil := { n.sil with thermWarn := true } }
      let n := ((n.raiseFault silPage 2).irq silPage 1).bump silPage Fld.silEventsTherm
      if n.flag silPage Fld.silSafeAutoTherm then n.enterSafe else n
    else if n.sil.thermWarn ∧ live.all (fun t => decide (t ≤ warn - 5)) then
      { n with sil := { n.sil with thermWarn := false } }
    else n
  if live.any (fun t => decide (125 ≤ t)) then n.raiseFault silPage 3 else n

def execThermalSample (temps : List Int) (s : State) : Host.Outcome State Fault Refusal :=
  s.sill (fun n => thermalSample n temps)

/-- SUPPLY_FAULT (R330, R366): a rail stays below its minimum for 10 µs; before the monitor is armed it raises no fault. -/
def supplyFault (n : Node) : Node := if n.boot.strapped then n.raiseFault silPage 4 else n

def execSupplyFault (_rail : Fin 4) (s : State) : Host.Outcome State Fault Refusal := s.sill supplyFault

/-- XOIN_LOSS (R254): REF fatal code 0x01. -/
def execXoinLoss (s : State) : Host.Outcome State Fault Refusal := s.sill (fun n => n.raiseFault refPage 1)

/-- What SIL.STAT reads as. -/
def Node.silView (n : Node) (off : Nat) : Option Word :=
  if off = 0x040 then
    some (BitVec.ofNat 32 ((if n.sil.ownTime then 16 else 0) + (if n.sil.fatal then 8 else 0)
      + (if n.sil.thermWarn then 4 else 0) + n.fld silPage Fld.silStatWdogExpired * 2 + (if n.sil.safe then 1 else 0)))
  else none

/-- What FLT's read-only registers read as; REC1 to REC7 are latched by a read of REC0 (RD_SEQ). -/
def Node.fltView (n : Node) (off : Nat) : Option Word :=
  match off with
  | 0x04C => some (BitVec.ofNat 32 ((n.flt.ring.filter (fun r => !r.ack)).length * 2 ^ 16
      + n.fld fltPage Fld.fltStatOverflow * 4 + (if n.sil.fatal then 2 else 0) + (if n.errHeld then 1 else 0)))
  | 0x050 => some (BitVec.ofNat 32 n.flt.nextSeq)
  | 0x054 => some (match n.flt.ring with | r :: _ => BitVec.ofNat 32 r.seq | [] => BitVec.ofNat 32 n.flt.nextSeq)
  | 0x060 => some (match n.flt.ring.find? (fun r => decide (BitVec.ofNat 32 r.seq = n.reg fltPage 0x058)) with
      | some r => recordWord r 0 | none => 0)
  | _ => none

/-- A read of FLT.REC0 latches REC1 to REC7 (R321). -/
def Node.latchRecord (n : Node) : Node :=
  let r? := n.flt.ring.find? (fun r => decide (BitVec.ofNat 32 r.seq = n.reg fltPage 0x058))
  (List.range 7).foldl (fun m k =>
    m.setReg fltPage (0x064 + 4 * k) (match r? with | some r => recordWord r (k + 1) | none => 0)) n

/-- A distance of sequence numbers, modulo 2^32. -/
def seqDist (a b : Nat) : Nat := (b + 4294967296 - a % 4294967296) % 4294967296

/-- FAULT READ (R331): up to 7 records held in the ring from a SEQ onward (DEDUCED, notes/assumptions/118.md). -/
def faultRead (n : Node) (slot : Fin 4) (first : Word) : Node :=
  n.serveSlot slot (fun n =>
    let rs := (n.flt.ring.filter (fun r => decide (seqDist first.toNat r.seq < 2147483648))).take 7
    n.answer slot okCode rs.length (rs.flatMap (fun r => (List.range 8).map (recordWord r))))

def execFaultRead (slot : Fin 4) (first : Word) (s : State) : Host.Outcome State Fault Refusal :=
  s.hub (fun n => faultRead n slot first)

/-- FAULT ACK (R331): acknowledges the records held in a range of SEQ. -/
def faultAck (n : Node) (slot : Fin 4) (first last : Word) : Node :=
  n.serveSlot slot (fun n =>
    let inRange := fun (r : Record) => decide (seqDist first.toNat r.seq ≤ seqDist first.toNat last.toNat)
    let k := (n.flt.ring.filter (fun r => inRange r && !r.ack)).length
    (n.ackWhere inRange).answer slot okCode k)

def execFaultAck (slot : Fin 4) (first last : Word) (s : State) : Host.Outcome State Fault Refusal :=
  s.hub (fun n => faultAck n slot first last)

/-- The resource that a test names is already retired (R323, NOT_RUN). -/
def Node.unitRetired (n : Node) (p : Page) (unit : Nat) : Bool :=
  match p.block with
  | .pen => match (n.die p.inst).engines[unit]? with | some e => decide (e.state = .retired) | none => false
  | .fen => (n.die p.inst).retiredBanks.getLsbD unit
  | .rcx => (Sparse.get (fun _ => {}) n.reeds p.inst : ReedCore).retired
  | .slu => n.str.retired.getLsbD unit
  | .mac => (Sparse.get (fun _ => {}) n.macs p.inst : MacSt).retired
  | .drm => decide ((n.reg p 0x070).toNat / 16 ^ (unit % 4) % 16 = 4)
  | _ => false

/-- Ask for a page's test (R323): an engine's runs in its next casement with a self-test slice, a port's when it is Idle or
has no link. -/
def Node.askTest (n : Node) (p : Page) (unit : Nat) : Node :=
  match p.block with
  | .pen => n.modDie p.inst (fun d => { d with engines := d.engines.modify unit (fun e => { e with testAsked := true }) })
  | .rcx =>
    let r : ReedCore := Sparse.get (fun _ => {}) n.reeds p.inst
    { n with reeds := Sparse.set (fun _ => {}) n.reeds p.inst { r with stest := true } }
  | .mac =>
    let m : MacSt := Sparse.get (fun _ => {}) n.macs p.inst
    { n with macs := Sparse.set (fun _ => {}) n.macs p.inst { m with testWaits := true } }
  | _ => n

/-- How many units a page's test can name: engines, banks of Fen and of the Sluice, ranks (R116, R120, R203, R307)
(DEDUCED, notes/assumptions/117.md). -/
def testUnits : Block → Nat
  | .pen => 9 | .fen => 24 | .slu => 8 | .drm => 4 | _ => 256

/-- FAULT TEST (R331): a test without a fault. -/
def faultTest (n : Node) (slot : Fin 4) (word : Word) : Node :=
  n.serveSlot slot (fun n =>
    match regionPage (word.toNat / 2 ^ 28) (word.toNat / 2 ^ 20 % 256) with
    | none => n.answer slot badArgument
    | some p =>
      if !hasTest p.block || decide (testUnits p.block ≤ word.toNat % 256) then n.answer slot badArgument
      else if !n.pagePresent p then n.answer slot notPresent
      else
        let unit := word.toNat % 256
        let job := n.flt.nextJob
        let gone := n.unitRetired p unit
        let j : TestJob := { job := job, region := pageRegion p, page := pageIndex p, unit := unit, result := if gone then 4 else 1 }
        let n := { n with flt := { n.flt with jobs := (j :: n.flt.jobs.filter (fun x => decide (x.job ≠ job))),
                                              nextJob := if job = 255 then 1 else job + 1 } }
        let n := if gone then n else n.askTest p unit
        n.answer slot acceptedCode job)

def execFaultTest (slot : Fin 4) (word : Word) (s : State) : Host.Outcome State Fault Refusal :=
  s.hub (fun n => faultTest n slot word)

/-- FAULT STATUS (R331). -/
def faultStatus (n : Node) (slot : Fin 4) (job : Nat) : Node :=
  n.serveSlot slot (fun n => match n.flt.jobs.find? (fun j => decide (j.job = job)) with
    | some j => n.answer slot okCode j.result
    | none => n.answer slot badArgument)

def execFaultStatus (slot : Fin 4) (job : Nat) (s : State) : Host.Outcome State Fault Refusal :=
  s.hub (fun n => faultStatus n slot job)

end Sys2Proof.Machine
end

