-- ==== Sys2Proof/Machine/Mac.lean ====
section
/-! DEFINITION. Ethernet MACs (R205 to R221, R228, R229): traffic classes, the address filter, descriptor rings, timestamps,
PAUSE, counters, mode changes and faults. -/

namespace Sys2Proof.Machine

open Sys2Proof (Word Byte Sparse Page Block Die Port Src RxFrame)

/-- Counter numbers of R219, in the order of their offsets. -/
def cntTxFrames : Nat := 0
def cntTxOctets : Nat := 1
def cntTxAudio : Nat := 2
def cntTxTrunc : Nat := 3
def cntTxAudioPaused : Nat := 4
def cntRxFrames : Nat := 5
def cntRxOctets : Nat := 6
def cntRxAudio : Nat := 7
def cntRxFcsErr : Nat := 8
def cntRxTrunc : Nat := 9
def cntRxRunt : Nat := 10
def cntRxFiltered : Nat := 11
def cntRxNobuf : Nat := 12
def cntRxPause : Nat := 13
def cntRxMacctl : Nat := 14
def cntLinkDown : Nat := 15

namespace Node

/-- Count in a MAC's 64-bit counter. -/
def macCount (n : Node) (k c : Nat) (by_ : Nat := 1) : Node :=
  n.modMac k (fun m => { m with counters := Sparse.set (fun _ => 0) m.counters c ((Sparse.get (fun _ => 0) m.counters c + by_) % 2 ^ 64) })

/-- A MAC is Idle: neither Active nor Busy. -/
def macIdle (n : Node) (k : Nat) : Bool := !(n.hdr (macPage k)).active && !(n.hdr (macPage k)).busy

/-- FEC in force: code 0b10 with SPEED 0 and code 0b11 act as 0b00 (R205). -/
def macFec (n : Node) (k : Nat) : Nat :=
  let f := n.fld (macPage k) Fld.macCfgFec
  let fast := n.flag (macPage k) Fld.macCfgSpeed
  if f = 3 ∨ (f = 2 ∧ !fast) then 0 else f

/-- Stated corrections of the port's mode in 1/256 ns, transmit and receive (R229). -/
def macCorr (n : Node) (k : Nat) : Nat × Nat :=
  if n.flag (macPage k) Fld.macCfgSpeed then
    match n.macFec k with
    | 0 => (5504, 8640)
    | 1 => (8704, 14912)
    | _ => (18496, 46272)
  else if n.macFec k = 1 then (16384, 25536) else (9856, 15680)

/-- A PAUSE quantum in time units × 1,000 (R205) (DESIGN CHOICE, notes/assumptions/94.md). -/
def quantum (n : Node) (k : Nat) : Nat := if n.flag (macPage k) Fld.macCfgSpeed then 2408448 else 6021120

/-- Longest frame (R212). -/
def maxLen (n : Node) (k : Nat) : Nat := Nat.max 1518 (Nat.min 16000 (n.fld (macPage k) Fld.macMaxlenBytes))

/-- The PHC's time in 1/256 ns. -/
def phcFine (n : Node) : Nat := (n.phc.sec * 1000000000 + n.phc.ns) * 256 + n.phc.frac / 16777216

/-- A signed adjustment of TSADJ in 1/256 ns. -/
def tsadj (n : Node) (k : Nat) (f : Field) : Int := (BitVec.ofNat 16 (n.fld (macPage k) f)).toInt

/-- Words 4 to 6 of a descriptor's timestamp (R215). -/
def stampWords (t epoch : Nat) : List Word :=
  let ns := t / 256
  [BitVec.ofNat 32 (epoch % 4 * 2 ^ 30 + ns % 1000000000), BitVec.ofNat 32 (ns / 1000000000),
   BitVec.ofNat 32 (t % 256 * 2 ^ 24 + ns / 1000000000 / 2 ^ 32 % 65536)]

/-- Ring size in descriptors (R214). -/
def ringSize (n : Node) (k : Nat) (size : Field) : Nat := 2 ^ Nat.max 4 (Nat.min 12 (n.fld (macPage k) size))

/-- Address of a descriptor of the transmit or the receive ring. -/
def txDesc (n : Node) (k idx : Nat) : Nat :=
  n.fld (macPage k) Fld.macTxrBaseLoAddr + n.fld (macPage k) Fld.macTxrBaseHiAddrHi * 2 ^ 32 + idx * 32
def rxDesc (n : Node) (k idx : Nat) : Nat :=
  n.fld (macPage k) Fld.macRxrBaseLoAddr + n.fld (macPage k) Fld.macRxrBaseHiAddrHi * 2 ^ 32 + idx * 32

/-- HEAD moves past a descriptor. -/
def stepTx (n : Node) (k : Nat) : Node :=
  n.setFld (macPage k) Fld.macTxrHeadIndex ((n.fld (macPage k) Fld.macTxrHeadIndex + 1) % n.ringSize k Fld.macTxrBaseHiSize)
def stepRx (n : Node) (k : Nat) : Node :=
  n.setFld (macPage k) Fld.macRxrHeadIndex ((n.fld (macPage k) Fld.macRxrHeadIndex + 1) % n.ringSize k Fld.macRxrBaseHiSize)

/-- HEAD equals TAIL, modulo the ring size. -/
def txEmpty (n : Node) (k : Nat) : Bool :=
  let s := n.ringSize k Fld.macTxrBaseHiSize
  decide (n.fld (macPage k) Fld.macTxrHeadIndex % s = n.fld (macPage k) Fld.macTxrTailIndex % s)
def rxEmpty (n : Node) (k : Nat) : Bool :=
  let s := n.ringSize k Fld.macRxrBaseHiSize
  decide (n.fld (macPage k) Fld.macRxrHeadIndex % s = n.fld (macPage k) Fld.macRxrTailIndex % s)

def txHead (n : Node) (k : Nat) : Nat := n.fld (macPage k) Fld.macTxrHeadIndex % n.ringSize k Fld.macTxrBaseHiSize
def rxHead (n : Node) (k : Nat) : Nat := n.fld (macPage k) Fld.macRxrHeadIndex % n.ringSize k Fld.macRxrBaseHiSize

/-- A word with one bit set, and a transmit descriptor's word 1 with OWN and the status bits cleared (R215). -/
def withBit (w : Word) (b : Nat) : Word := w ||| (1#32 <<< b)
def disown (w : Word) : Word := w &&& 0x60FFFFFF

/-! The reservation of R217. -/

/-- Beats at the working SRAM and bursts on DRAM channels 0 and 1 that a transfer of `k` bytes takes (R54). -/
def ringCost (n : Node) (a k : Nat) : Nat × Nat × Nat :=
  if k = 0 then (0, 0, 0)
  else match n.decode a with
    | .work _ => (ceilDiv k 32, 0, 0)
    | .dram x =>
      let b := (x + k - 1) / 64 - x / 64 + 1
      if n.dram.windows.getD ((x - dramBase) / n.rankSize) 0 < 2 then (0, b, 0) else (0, 0, b)
    | _ => (0, 0, 0)

/-- What the casement's transfers come to with some more. -/
def ringUsed (n : Node) (ts : List (Nat × Nat)) : Nat × Nat × Nat :=
  ts.foldl (fun u t => let c := n.ringCost t.1 t.2; (u.1 + c.1, u.2.1 + c.2.1, u.2.2 + c.2.2)) n.str.ringUse

/-- Transfers stay within the reservation of the casement, if casements run. -/
def ringRoom (n : Node) (ts : List (Nat × Nat)) : Bool :=
  let u := n.ringUsed ts
  !n.running || decide (u.1 ≤ ringBeats n.rate ∧ u.2.1 ≤ ringBursts ∧ u.2.2 ≤ ringBursts)
def chargeRing (n : Node) (ts : List (Nat × Nat)) : Node := { n with str := { n.str with ringUse := n.ringUsed ts } }

/-- The transfers of a descriptor: its fetch, its frame's `k` bytes at `a`, and its write-back. -/
def descCost (d a k : Nat) : List (Nat × Nat) := [(d, 32), (a, k), (d + 4, 24)]

/-- A frame is discarded for want of a descriptor, of bandwidth or of a good buffer word (R216, R221). -/
def rxNobuf (n : Node) (k : Nat) : Node := (n.macCount k cntRxNobuf).irq (macPage k) 3

/-- The write-back of a receive descriptor: its word 1, WIRE_LEN and the timestamp (R216). -/
def rxWriteBack (n : Node) (d word : Nat) (h : RxHeld) : Node :=
  let n := (n.dmaWrWord (d + 4) (BitVec.ofNat 32 word)).dmaWrWord (d + 12) (BitVec.ofNat 32 (Nat.min h.frame.wireLen 65535))
  n.dmaWrite (d + 16) ((stampWords h.time h.epoch).flatMap (fun w => leBytes w.toNat 4))

/-- Deliver a frame into the receive ring (R214, R216). Descriptors whose OWN is 0 are skipped with OWN_ERR. A frame whose
transfers exceed the reservation waits for the next casement (R217). -/
def deliver (k : Nat) (h : RxHeld) : Nat → Node → Node
  | 0, n => n.rxNobuf k
  | fuel + 1, n =>
    if n.rxEmpty k then n.rxNobuf k
    else
      let f := h.frame
      let d := n.rxDesc k (n.rxHead k)
      let w1 := n.dmaWord (d + 4)
      let trunc := decide (n.maxLen k < f.wireLen)
      let all := if trunc then f.bytes.take (n.maxLen k - 4) else f.bytes
      let buflen := w1.toNat % 16384
      let bs := if w1.getLsbD 31 then all.take buflen else []
      let a := (n.dmaWord d).toNat + (n.dmaWord (d + 8)).toNat % 256 * 2 ^ 32
      if !n.ringRoom (descCost d a bs.length) then n.modMac k (fun m => { m with rxHeld := m.rxHeld ++ [h] })
      else
        let n := (n.dmaMiss 4 false d).chargeRing (descCost d a bs.length)
        if !w1.getLsbD 31 then deliver k h fuel ((n.rxWriteBack d (2 ^ 30 + 2 ^ 26) h).stepRx k)
        else
          let short := decide (buflen < all.length)
          let bad := decide (bs.length ≠ 0) && (n.dmaAddr a bs.length).isNone
          let n := if bad then n.dmaMiss 4 true a else n.dmaWrite a bs
          let group := match f.bytes with | b :: _ => b.getLsbD 0 | [] => false
          let word := 2 ^ 30 + (if trunc then 2 ^ 29 else 0) + (if short then 2 ^ 28 else 0) + (if h.fcsErr then 2 ^ 27 else 0)
            + (if bad then 2 ^ 25 else 0) + (if group then 2 ^ 24 else 0) + (if bad then 0 else bs.length % 16384)
          let n := (n.rxWriteBack d word h).stepRx k
          let n := if trunc || short then (n.macCount k cntRxTrunc).irq (macPage k) 5 else n
          if bad then n else n.irq (macPage k) 1

/-- A received frame goes to the ring with its timestamp, after those that wait (R217, R228). -/
def toRing (n : Node) (k : Nat) (f : RxFrame) (fcsErr : Bool) : Node :=
  let corr : Int := Int.ofNat (n.macCorr k).2 + n.tsadj k Fld.macTsadjRx
  let h : RxHeld := ⟨f, fcsErr, (Int.ofNat n.phcFine - corr).toNat, n.phc.epoch⟩
  if (n.mac k).rxHeld.isEmpty then Node.deliver k h 4097 n else n.modMac k (fun m => { m with rxHeld := m.rxHeld ++ [h] })

/-- The address filter (R209). -/
def addrAccepted (n : Node) (k : Nat) (bytes : List Byte) : Bool :=
  let a := bytes.take 6
  let hi := n.reg (macPage k) 0x04C
  let lo := n.reg (macPage k) 0x048
  let own := (leBytes hi.toNat 2).reverse ++ (leBytes lo.toNat 4).reverse
  let group := match a with | b :: _ => b.getLsbD 0 | [] => false
  n.flag (macPage k) Fld.macCfgPromisc || decide (a = own) || decide (a = List.replicate 6 0xFF)
    || (group && (n.reg (macPage k) (0x050 + 4 * (hashBit a / 32))).getLsbD (hashBit a % 32))

/-- The frame is audio class (R208). -/
def audioClass (n : Node) (k : Nat) (f : RxFrame) : Bool :=
  match f.udpPort with
  | none => false
  | some u => n.audioPort k u

/-- A frame is received (R208, R209, R211, R212, R216, R221). -/
def takeFrame (n : Node) (k : Nat) (f : RxFrame) (lost : Bool) : Node :=
  let p := macPage k
  if f.wireLen < 64 then n.macCount k cntRxRunt
  else if !f.fcsOk then
    let n := n.macCount k cntRxFcsErr
    if !n.flag p Fld.macCfgKeepBad || n.audioClass k f then n
    else if lost ∨ f.noBandwidth then n.rxNobuf k else n.toRing k f true
  else
    let n := (n.macCount k cntRxFrames).macCount k cntRxOctets f.wireLen
    if lost then n.rxNobuf k
    else if f.macControl then n.macCount k cntRxMacctl
    else if !n.addrAccepted k f.bytes then n.macCount k cntRxFiltered
    else if n.audioClass k f then
      let n := n.macCount k cntRxAudio
      if n.maxLen k < f.wireLen then (n.macCount k cntRxTrunc).irq p 5 else n
    else if f.noBandwidth then n.rxNobuf k
    else n.toRing k f false

end Node

/-- FRAME_RECEIVED (R208 to R212, R216, R220, R221): the frame is checked, filtered, classed and delivered. While the MAC stops, the
frame that was being received is still taken. Audio-class frames go to the stream engine, which takes each as
STREAM_PACKET_RECEIVED (DEDUCED, notes/assumptions/91.md). -/
def frameReceived (n : Node) (k : Nat) (f : RxFrame) : Node :=
  let lost := (n.mac k).rxBad
  let n := if lost then n.modMac k (fun m => { m with rxBad := false }) else n
  if n.receives k || (f.begun && (n.hdr (macPage k)).busy && !(n.mac k).retired && !(n.mac k).idle) then n.takeFrame k f lost else n

def execFrameReceived (port : Fin 4) (frame : RxFrame) (s : State) : Host.Outcome State Fault Refusal :=
  s.hub (fun n => frameReceived n port frame)

namespace Node

/-- The wire is free: an audio-class frame that waits goes first, then the ring frame that is whole in the buffer, unless the queue is
paused (R210, R213, R218). Its timestamp is that of its delimiter (R228). -/
def startTx (n : Node) (k : Nat) : Node :=
  let m := n.mac k
  if m.audioOn ∨ m.sending ≠ none ∨ !n.receives k then n
  else if !m.audio.isEmpty then n.modMac k (fun m => { m with audioOn := true })
  else if m.paused ∨ m.waits = none then n
  else
    let corr : Int := Int.ofNat (n.macCorr k).1 + n.tsadj k Fld.macTsadjTx
    let t := (Int.ofNat n.phcFine + corr).toNat
    let epoch := n.phc.epoch
    n.modMac k (fun m => { m with sending := m.waits, waits := none, sendTime := t, sendEpoch := epoch })

/-- A pause ends. -/
def endPause (n : Node) (k : Nat) : Node :=
  (n.modMac k (fun m => { m with paused := false, pauseWaits := false })).setFld (macPage k) Fld.macPauseLeft 0

end Node

/-- PAUSE_FRAME_RECEIVED (R218): counted, and honoured while RX_PAUSE_EN is 1. -/
def pauseReceived (n : Node) (k quanta : Nat) : Node :=
  let p := macPage k
  if !(n.hdr p).active ∨ (n.mac k).retired ∨ (n.mac k).idle then n
  else
    let n := ((n.macCount k cntRxFrames).macCount k cntRxOctets 64)
    let n := (n.macCount k cntRxPause).irq p 4
    if !n.flag p Fld.macCfgRxPauseEn then n
    else if quanta % 65536 = 0 then (n.endPause k).startTx k
    else
      let cap := Nat.max 1 (n.fld p Fld.macPauseCapUs) * 32 * Config.sillCycle * 1000 / n.quantum k
      let at_ := n.clk.now
      (n.modMac k (fun m => { m with paused := true, pauseAt := at_, pauseWaits := m.audioOn || m.sending.isSome })).setFld p Fld.macPauseLeft (Nat.min (quanta % 65536) (Nat.min cap 65535))

def execPauseFrameReceived (port : Fin 4) (quanta : Nat) (s : State) : Host.Outcome State Fault Refusal :=
  s.hub (fun n => pauseReceived n port quanta)

/-- PAUSE_EXPIRY (R218): the queue resumes. -/
def pauseExpiry (n : Node) (k : Nat) : Node := (n.endPause k).startTx k

def execPauseExpiry (port : Fin 4) (s : State) : Host.Outcome State Fault Refusal := s.hub (fun n => pauseExpiry n port)

/-- The next descriptor that can be sent is taken: ones whose OWN is 0, and ones whose frame lies outside working SRAM and
the in-service DRAM, are written back and passed (R214, R215). The frame's bytes fill the transmit buffer, and it waits there for the
wire (R213). A frame that meets a poisoned burst is sent with an inverted FCS (R221, R308). Transfers beyond the reservation wait for
the next casement (R217). -/
def Node.takeTx (k : Nat) : Nat → Node → Node
  | 0, n => n
  | fuel + 1, n =>
    if n.txEmpty k then n
    else
      let d := n.txDesc k (n.txHead k)
      let w1 := n.dmaWord (d + 4)
      let ioc := fun (m : Node) => if w1.getLsbD 29 then m.irq (macPage k) 0 else m
      let a := (n.dmaWord d).toNat + (n.dmaWord (d + 8)).toNat % 256 * 2 ^ 32
      let lies := (n.dmaAddr a (Nat.max 1 (w1.toNat % 16384))).isSome
      let len := if w1.getLsbD 31 && lies then w1.toNat % 16384 else 0
      if !n.ringRoom (Node.descCost d a len) then n.modMac k (fun m => { m with txHeld := true })
      else
        let n := (n.dmaMiss 4 false d).chargeRing (Node.descCost d a len)
        if !w1.getLsbD 31 then Node.takeTx k fuel (ioc ((n.dmaWrWord (d + 4) (Node.withBit (Node.disown w1) 25)).stepTx k))
        else if !lies then
          Node.takeTx k fuel (ioc (((n.dmaMiss 4 false a).dmaWrWord (d + 4) (Node.withBit (Node.disown w1) 24)).stepTx k))
        else
          let bad := n.burstPoisoned a len
          let n := if bad then ((n.bump drmPage Fld.drmPoisonReads).raiseFault (macPage k) 2 0 0 (n.mac k).retired) else n
          let idx := n.txHead k
          let bytes := n.dmaRead a len
          n.modMac k (fun m => { m with waits := some idx, ringBuf := bytes, sendBad := bad })

/-- TX_DESCRIPTOR_SEND (R210, R213, R217, R218): the control and bulk queue fetches its next frame, and sends it when the wire is free,
no audio-class frame waits, and the queue is not paused. -/
def txSend (n : Node) (k : Nat) : Node :=
  let m := n.mac k
  if !n.receives k ∨ m.sending ≠ none ∨ m.waits ≠ none then n
  else (Node.takeTx k 4097 n).startTx k

def execTxDescriptorSend (port : Fin 4) (s : State) : Host.Outcome State Fault Refusal := s.hub (fun n => txSend n port)

namespace Node

/-- A frame leaves the wire: a pause that waited for it begins (R218). -/
def wireFree (n : Node) (k : Nat) : Node :=
  let at_ := n.clk.now
  n.modMac k (fun m => { m with pauseWaits := false, pauseAt := if m.pauseWaits then at_ else m.pauseAt })

/-- The audio-class frame on the wire has ended (R210, R218, R219). -/
def audioSent (n : Node) (k : Nat) : Node :=
  let m := n.mac k
  let n := ((n.macCount k cntTxFrames).macCount k cntTxOctets (m.audio.headD 0)).macCount k cntTxAudio
  let n := if m.paused && !m.pauseWaits then n.macCount k cntTxAudioPaused else n
  (n.modMac k (fun m => { m with audio := m.audio.tail, audioOn := false })).wireFree k

/-- The ring frame `idx` on the wire has ended, and its descriptor is written back (R211, R212, R215, R219). -/
def ringSent (n : Node) (k idx : Nat) : Node :=
  let m := n.mac k
  let d := n.txDesc k idx
  let w1 := n.dmaWord (d + 4)
  let len := m.ringBuf.length
  let trunc := decide (n.maxLen k < len + 4)
  let wire := if trunc then n.maxLen k else Nat.max 60 len + 4
  let w := disown w1
  let w := if w1.getLsbD 30 then withBit w 28 else w
  let w := if trunc then withBit w 27 else w
  let n := n.dmaWrWord (d + 4) w
  let n := if w1.getLsbD 30 then n.dmaWrite (d + 16) ((stampWords m.sendTime m.sendEpoch).flatMap (fun w => leBytes w.toNat 4)) else n
  let n := (n.macCount k cntTxFrames).macCount k cntTxOctets wire
  let n := if trunc then (n.macCount k cntTxTrunc).irq (macPage k) 5 else n
  let n := if w1.getLsbD 29 then n.irq (macPage k) 0 else n
  ((n.stepTx k).modMac k (fun m => { m with sending := none, ringBuf := [], sendBad := false })).wireFree k

/-- The frame on the wire, of either class, ends. -/
def wireEnds (n : Node) (k : Nat) : Node :=
  match (n.mac k).sending with
  | some idx => n.ringSent k idx
  | none => if (n.mac k).audioOn then n.audioSent k else n

end Node

/-- TX_FRAME_SENT (R210 to R215, R218, R219): the frame of a class ends on the wire, if one is there, and the next one starts. -/
def txSent (n : Node) (k : Nat) (audio : Bool) : Node :=
  if audio then (if (n.mac k).audioOn then (n.audioSent k).startTx k else n)
  else match (n.mac k).sending with
    | some idx => (n.ringSent k idx).startTx k
    | none => n

def execTxFrameSent (port : Fin 4) (audio : Bool) (s : State) : Host.Outcome State Fault Refusal :=
  s.hub (fun n => txSent n port audio)

namespace Node

/-- The link goes down: the transition counts (R219). -/
def linkDown (n : Node) (k : Nat) : Node :=
  if (n.mac k).link then
    ((n.modMac k (fun m => { m with link := false })).macCount k cntLinkDown).irq (macPage k) 2
  else n

/-- The serdes retrains, and the link is down meanwhile (R207, R220). -/
def retrain (n : Node) (k : Nat) : Node :=
  let was := (n.mac k).link || ((n.mac k).training && (n.mac k).relink)
  (n.linkDown k).modMac k (fun m => { m with training := true, relink := was })

end Node

/-- LINK_CHANGE (R194, R219): a port's link goes up or down; a retired port's link is forced down
(DESIGN CHOICE, notes/assumptions/92.md). -/
def linkChange (n : Node) (k : Nat) (up : Bool) : Node :=
  if !up then n.linkDown k
  else if (n.mac k).link ∨ (n.mac k).retired ∨ (n.mac k).idle ∨ !n.outOfReset then n
  else (n.modMac k (fun m => { m with link := true })).irq (macPage k) 2

def execLinkChange (port : Fin 4) (up : Bool) (s : State) : Host.Outcome State Fault Refusal :=
  s.hub (fun n => linkChange n port up)

/-- SERDES_RETRAIN_COMPLETE (R207): the link that was up before the retraining is up again. -/
def retrainComplete (n : Node) (k : Nat) : Node :=
  let m := n.mac k
  if !m.training then n
  else
    let n := n.modMac k (fun m => { m with training := false, relink := false })
    if m.relink then linkChange n k true else n

def execSerdesRetrainComplete (port : Fin 4) (s : State) : Host.Outcome State Fault Refusal :=
  s.hub (fun n => retrainComplete n port)

/-- MAC_BUFFER_ECC_ERROR (R221): a frame being received that holds the word is discarded when it ends, and one being sent is sent
with an inverted FCS. -/
def macBufferError (n : Node) (k : Nat) (uncorr received : Bool) : Node :=
  let gone := (n.mac k).retired
  let n := n.modMac k (fun m => { m with testWaits := !m.retired })
  if !uncorr then n.raiseFault (macPage k) 1 0 0 gone
  else
    (n.raiseFault (macPage k) 2 0 0 gone).modMac k (fun m => if received then { m with rxBad := true }
      else { m with sendBad := m.sending.isSome || m.waits.isSome })

def execMacBufferEccError (port : Fin 4) (uncorrectable received : Bool) (s : State) : Host.Outcome State Fault Refusal :=
  s.hub (fun n => macBufferError n port uncorrectable received)

namespace Node

/-- A MAC stops (R220): frames that are not on the wire leave the buffers. An audio-class one that was handed over and waits is not
sent (DESIGN CHOICE, notes/assumptions/201.md), and a ring frame that waits keeps its descriptor. -/
def macStop (n : Node) (k : Nat) : Node :=
  n.modMac k (fun m => { m with
    audio := if m.audioOn then m.audio.take 1 else [], waits := none, txHeld := false,
    ringBuf := if m.sending.isNone then [] else m.ringBuf, sendBad := m.sendBad && m.sending.isSome })

end Node

/-- MAC_LOOPBACK_TEST_END (R221): the test runs when the port is Idle or has no link; a failure retires the port
(DEDUCED, notes/assumptions/95.md). -/
def loopbackEnd (n : Node) (k : Nat) (pass : Bool) : Node :=
  if !n.macIdle k ∧ (n.mac k).link then n
  else
    let n := (n.testResult (macPage k) 0 (if pass then 2 else 3)).modMac k (fun m => { m with testWaits := false })
    if pass ∨ (n.mac k).retired then n
    else (((n.linkDown k).macStop k).modMac k (fun m => { m with retired := true })).raiseFault (macPage k) 3 0 0 true

def execMacLoopbackTestEnd (port : Fin 4) (pass : Bool) (s : State) : Host.Outcome State Fault Refusal :=
  s.hub (fun n => loopbackEnd n port pass)

namespace Node

/-- A write of MAC.CFG (R205 to R207): a change of SPEED, FEC or PAIRED while a MAC concerned is not Idle is discarded, and
the other fields take effect. A mode change retrains the serdes. -/
def macCfgWrite (n : Node) (k : Nat) (v : Word) : Node :=
  let p := macPage k
  let other := if k % 2 = 0 then k + 1 else k - 1
  let mode := decide (wordField v Fld.macCfgSpeed ≠ n.fld p Fld.macCfgSpeed ∨ wordField v Fld.macCfgFec ≠ n.fld p Fld.macCfgFec)
  let pair := decide (k % 2 = 0 ∧ wordField v Fld.macCfgPaired ≠ n.fld p Fld.macCfgPaired)
  let old := (n.flag p Fld.macCfgSpeed, n.macFec k)
  let n := ((n.setFld p Fld.macCfgKeepBad (wordField v Fld.macCfgKeepBad)).setFld p Fld.macCfgRxPauseEn
    (wordField v Fld.macCfgRxPauseEn)).setFld p Fld.macCfgPromisc (wordField v Fld.macCfgPromisc)
  let drop := fun (m : Node) => m.setFld p Fld.macStatCfgDrop 1
  let n := if !mode then n
    else if !n.macIdle k then drop n
    else (n.setFld p Fld.macCfgSpeed (wordField v Fld.macCfgSpeed)).setFld p Fld.macCfgFec (wordField v Fld.macCfgFec)
  let n := if !pair then n
    else if !(n.macIdle k && n.macIdle other) then drop n
    else (n.setFld p Fld.macCfgPaired (wordField v Fld.macCfgPaired)).setFld (macPage other) Fld.macCfgPaired
      (wordField v Fld.macCfgPaired)
  if (n.flag p Fld.macCfgSpeed, n.macFec k) ≠ old then n.retrain k else n

/-- A write of a ring base while the MAC is Active is discarded and sets CFG_DROP. -/
def ringBaseWrite (n : Node) (k off : Nat) (v : Word) : Node :=
  let p := macPage k
  if (n.hdr p).active then n.setFld p Fld.macStatCfgDrop 1
  else n.setReg p off (if off = 0x084 ∨ off = 0x094 then v &&& 0x000F00FF else v)

/-- A read of a counter's LO register returns it, copies its upper half into HI, and clears it (R219). -/
def macCounter (n : Node) (k c : Nat) : Nat := Sparse.get (fun _ => 0) (n.mac k).counters c
def clearCounter (n : Node) (k c : Nat) : Node :=
  let v := n.macCounter k c
  (n.setReg (macPage k) (0x104 + 8 * c) (BitVec.ofNat 32 (v / 2 ^ 32))).modMac k (fun m =>
    { m with counters := Sparse.set (fun _ => 0) m.counters c 0 })

/-- What a MAC's read-only registers read as. -/
def macView (n : Node) (k off : Nat) : Option Word :=
  let m := n.mac k
  match off with
  | 0x074 => some (BitVec.ofNat 32 ((if m.retired then 128 else 0) + n.fld (macPage k) Fld.macStatCfgDrop * 64
      + (if m.paused then 32 else 0) + (if m.training then 16 else 0) + (if m.link then 3 else 0)))
  | 0x078 => some (BitVec.ofNat 32 ((n.macCorr k).1 * 65536 + (n.macCorr k).2))
  | 0x0A0 =>
    let gone := if m.pauseWaits then 0 else (n.clk.now - m.pauseAt) * 1000 / n.quantum k
    let left := if m.paused then n.fld (macPage k) Fld.macPauseLeft - gone else 0
    some (setWordField (n.reg (macPage k) 0x0A0) Fld.macPauseLeft left)
  | _ => if 0x100 ≤ off ∧ off < 0x180 ∧ off % 8 = 0 then some (BitVec.ofNat 32 (n.macCounter k ((off - 0x100) / 8))) else none

/-- Descriptors between HEAD and TAIL are written back with FLUSHED (R215, R220, R325). -/
def flushTx (k : Nat) : Nat → Node → Node
  | 0, n => n
  | fuel + 1, n =>
    if n.txEmpty k then n
    else
      let d := n.txDesc k (n.txHead k)
      let w1 := n.dmaWord (d + 4)
      let n := (n.dmaWrWord (d + 4) (withBit (disown w1) 26)).stepTx k
      flushTx k fuel (if w1.getLsbD 29 then n.irq (macPage k) 0 else n)

/-- A MAC's stop has ended: no frame is on the wire, and none that was received waits for its transfers. -/
def macStopped (n : Node) (k : Nat) : Bool :=
  let m := n.mac k
  m.sending.isNone && !m.audioOn && m.rxHeld.isEmpty

/-- A new casement has its reservation: ring transfers that waited for it proceed, received frames first (R217)
(DESIGN CHOICE, notes/assumptions/202.md). -/
def ringsBoundary (n : Node) : Node :=
  let n := { n with str := { n.str with ringUse := (0, 0, 0) } }
  (List.range 4).foldl (fun n k =>
    let m := n.mac k
    if m.rxHeld.isEmpty ∧ !m.txHeld then n
    else
      let n := m.rxHeld.foldl (fun n h => if (n.mac k).rxHeld.isEmpty then Node.deliver k h 4097 n
        else n.modMac k (fun m => { m with rxHeld := m.rxHeld ++ [h] })) (n.modMac k (fun m => { m with rxHeld := [], txHeld := false }))
      if m.txHeld then txSend n k else n) n

end Node

/-- FATAL_ETH_STOP (R325): the frame on the wire ends, transmission stops, the serdes go to electrical idle, the link with them, and
unsent descriptors are written back with FLUSHED. -/
def fatalEthStop (n : Node) : Node :=
  if !n.sil.fatal then n
  else (List.range 4).foldl (fun m k =>
    if (m.mac k).idle then m
    else
      let m := (Node.flushTx k 4097 ((m.wireEnds k).macStop k)).linkDown k
      m.modMac k (fun c => { c with idle := true, training := false })) n

def execFatalEthStop (s : State) : Host.Outcome State Fault Refusal := s.sill fatalEthStop

end Sys2Proof.Machine
end

