-- ==== Sys2Proof/Machine/Pages.lean ====
section
/-! DEFINITION. Enabling, shutting down and soft-resetting a page's block (R33, R34, R400), and the boot stages that enabling
CAS and DRM reaches (R369, R372). -/

namespace Sys2Proof.Machine

open Sys2Proof (Word Byte Sparse Page Block Die Port Src)

/-- Blocks whose PG_CTRL.ENABLE has an effect, by the heads of their register tables (DEDUCED, notes/assumptions/18.md). -/
def enableActs (p : Page) : Bool :=
  match p.block with
  | .cas | .str | .mac | .ref | .aes | .tdm | .mod | .rail | .drm | .hng | .mtx | .mgt => true
  | .dpl => decide (2 ≤ p.inst)
  | _ => false

namespace Node

/-- SYS.BOOT.STAGE changes (R369). -/
def setStage (n : Node) (k : Nat) : Node :=
  if n.fld sysPage Fld.sysBootStage = k then n else (n.setFld sysPage Fld.sysBootStage k).irq sysPage 0

/-- Stage CONFIG is entered: the copy chosen by R345 is compiled, or the node stays without a configuration (R369, R372)
(DEDUCED, notes/assumptions/137.md). -/
def bootConfig (n : Node) : Node :=
  let n := n.setStage 6
  match n.copyChosen with
  | none => n.setFld sysPage Fld.sysBootNocfg 1
  | some (b, seq) =>
    let (n, num) := n.newJob (0x80000000 + copyBase b + 16)
    let n := n.modJob num (fun j => { j with copy := some (b, seq) })
    { n with boot := { n.boot with job := some num } }

/-- Boot goes on when a block is enabled: CAS after the image, in which the node address is first served, and DRM after
training (R369). -/
def bootEnabled (n : Node) (p : Page) : Node :=
  let stage := n.fld sysPage Fld.sysBootStage
  if p = casPage then
    let n := { n with i2c := { n.i2c with nodeServed := true } }
    if stage = 3 then n.setStage 4 else n
  else if p = drmPage ∧ stage = 5 then n.bootConfig
  else n

/-- A block starts and is Active (R33). -/
def pageStart (n : Node) (p : Page) : Node :=
  let n := n.modHdr p (fun h => { h with active := true, busy := false, pending := false })
  let n := match p.block with
    | .cas => n.casStart
    | .ref =>
      let (meas, n) := ({ n with refs := { n.refs with started := true } } : Node).freshMeas
      n.refEvent (fun m => m.reselect meas)
    | .dpl => n.refEvent (fun m => m.followInput p.inst)
    | .aes => n.aesFollow p.inst
    | .tdm => n.tdmStart p.inst
    | .mod => n.modStart p.inst
    | .rail => if n.sil.safe then n else { n with pins := { n.pins with rail := .live } }
    | .drm => { n with dram := { n.dram with selfRefresh := false } }
    | .hng => n.hngStart
    | _ => n
  n.bootEnabled p

/-- What a block does as its shutdown begins. -/
def stopEffect (n : Node) (p : Page) : Node :=
  match p.block with
  | .cas => n.casStop
  | .ref =>
    let (meas, n) := n.freshMeas
    n.refEvent (fun m => m.reselect meas)
  | .dpl => n.refEvent (fun m => m.freeRun p.inst)
  | .aes => n.aesFollow p.inst
  | .tdm => n.tdmStop p.inst
  | .mod => n.modStop p.inst
  | .rail => n.railsLow
  | .drm => { n with dram := { n.dram with selfRefresh := true } }
  | .hng => n.hngStop
  | .mac => n.macStop p.inst
  | _ => n

/-- The block's shutdown sequence has nothing left to run. -/
def stopped (n : Node) (p : Page) : Bool :=
  match p.block with
  | .cas => !n.running
  | .ref | .rail | .mtx | .mgt => true
  | .aes => !(n.flag p Fld.aesTxStatRunning)
  | .mod => n.modIdle p.inst
  | .mac => n.macStopped p.inst
  | .str => (List.range 4).all (fun k => (n.mac k).audio.isEmpty)
  | .hng => decide (n.hng.fencing = 0)
  | _ => true

/-- Blocks whose shutdown takes no time: it completes with the write that begins it (DEDUCED, notes/assumptions/19.md). -/
def stopsAtOnce (n : Node) (p : Page) : Bool :=
  match p.block with
  | .ref | .rail | .mtx | .mgt => true
  | .cas | .aes | .mod => n.stopped p
  | _ => false

/-! Soft reset (R400). -/

/-- A register that captures an event, to be re-armed: it has a VALID flag to clear, or belongs to one that has. -/
def captures (b : Block) (r : RegRow) : Bool :=
  r.fields.any (fun f => decide (f.access = .w1c ∧ f.field.hi = f.field.lo ∧ (f.field.lo = 31 ∨ (b = .mtx ∧ f.field.lo = 16))))
    || decide (b = .mtx ∧ r.off = 0x048) || decide (b = .drm ∧ r.off = 0x06C)

/-- Fields that their chapters keep until the hub is reset. -/
def kept (b : Block) (f : Field) : Bool :=
  decide ((b = .mtx ∧ f = Fld.mtxRemapRemap) ∨ (b = .sil ∧ f = Fld.silWdogEnable))

/-- A word of the page's store after a soft reset (DEDUCED, notes/assumptions/20.md). Buffers without an access type are cleared
(DESIGN CHOICE, notes/assumptions/159.md). -/
def resetStored (key : Nat) (w : Word) : Word :=
  let p := keyPage key
  let off := keyOff key
  if off = 0x01C then w
  else if off < 0x040 then resetKey key
  else match (Reg.rowsOf p.block).find? (fun r => decide (r.off = off)) with
    | none => resetKey key
    | some r => r.fields.foldl (fun w f =>
        if kept p.block f.field then w
        else if decide (f.access = .ro) && !captures p.block r && !(decide (p.block = .mac) && decide (off = 0x08C ∨ off = 0x09C)) then w
        else setWordField w f.field (wordField (resetKey key) f.field)) w

/-- Registers of the page that the store lists take their reset values. -/
def resetRegs (n : Node) (p : Page) : Node :=
  let keys := (n.regs.map (·.1)).filter (fun k => decide (keyPage k = p))
  let regs := keys.foldl (fun s k => Sparse.set resetKey s k (resetStored k (Sparse.get resetKey s k))) n.regs
  { n with regs := regs, active := n.active.filter (fun e => decide (keyPage e.1 ≠ p)) }

/-- What follows from the page's registers taking their reset values, where these act outside the page's store. PAIRED of a pair
is the even MAC's, in both pages (R206) (DESIGN CHOICE, notes/assumptions/200.md). -/
def resetEffect (n : Node) (p : Page) (old : Snap) : Node :=
  match p.block with
  | .phc =>
    let n := { n with phc := { n.phc with permit := false, heldFrac := 0x40000000, incr := 0x140000000 } }
    n.steerWritten
  | .ref =>
    let (meas, n) := n.freshMeas
    n.refEvent (fun m => (List.range 16).foldl (fun a k => a.slotRestart k meas) m)
  | .dpl => n.refEvent (fun m => if 2 ≤ p.inst then m else m.followInput p.inst)
  | .mac =>
    let even := p.inst / 2 * 2
    let n := n.setFld (macPage (even + 1)) Fld.macCfgPaired (n.fld (macPage even) Fld.macCfgPaired)
    (n.modMac p.inst (fun m => { m with counters := [] })).retrain p.inst
  | .dec | .aes | .tdm | .mod | .hng => n.pageEffect p old
  | .sht => n.writeMuteAll false
  | _ => n

/-- The page's registers are reset, and its header is that of an Idle block; a commit it had requested is discarded. -/
def finishReset (n : Node) (p : Page) : Node :=
  let old := n.activeWords p
  let n := n.resetRegs p
  (n.setHdr p {}).resetEffect p old

/-! The states of R33. -/

/-- A shutdown has run to completion. -/
def stopDone (n : Node) (p : Page) : Node :=
  let h := n.hdr p
  let n := match p.block with
    | .aes => n.aesIdle p.inst
    | .tdm => n.tdmIdle p.inst
    | .cas => n.casHalt
    | _ => n
  if h.resetting then n.finishReset p
  else if h.pending then n.pageStart p
  else n.modHdr p (fun h => { h with busy := false })

/-- A shutdown begins: the block goes to Stopping. -/
def pageStop (n : Node) (p : Page) : Node :=
  let n := (n.modHdr p (fun h => { h with active := false, busy := true, pending := false })).stopEffect p
  if n.stopsAtOnce p then n.stopDone p else n

/-- PG_CTRL.ENABLE is written as 1. -/
def enablePage (n : Node) (p : Page) : Node :=
  let n := n.setFld p Fld.pgCtrlEnable 1
  if !enableActs p then n
  else
    let h := n.hdr p
    if h.busy then n.modHdr p (fun h => { h with pending := true })
    else if h.active then n
    else n.pageStart p

/-- PG_CTRL.ENABLE is written as 0. -/
def disablePage (n : Node) (p : Page) : Node :=
  let n := n.setFld p Fld.pgCtrlEnable 0
  if !enableActs p then n
  else
    let h := n.hdr p
    if h.busy then n.modHdr p (fun h => { h with pending := false })
    else if h.active then n.pageStop p
    else n

/-- PG_CTRL.SOFT_RESET is written as 1: an Active block shuts down first, and the key closes (R33, R38). -/
def resetPage (n : Node) (p : Page) : Node :=
  let h := n.hdr p
  let n := (n.modHdr p (fun h => { h with keyHolder := none, keyArmed := [], keyCount := 0, pending := false }))
  if h.busy then n.modHdr p (fun h => { h with resetting := true })
  else if h.active then (n.modHdr p (fun h => { h with resetting := true })).pageStop p
  else n.finishReset p

/-- The boot job has committed: MOD and RAIL are enabled, and the node is RUNNING (R369, R374). -/
def bootCommitted (n : Node) : Node :=
  if n.fld sysPage Fld.sysBootStage = 7 ∧ n.boot.job = some n.rt.forceJob ∧ n.rt.inForce then
    let n := n.setStage 8
    if n.boot.drvPresent then
      ((List.range 24).foldl (fun m k => m.enablePage ⟨.mod, k⟩) n).enablePage railPage
    else n
  else n

end Node

end Sys2Proof.Machine
end

