-- ==== Sys2Proof/Machine/Boundary.lean ====
section
/-! DEFINITION. The casement boundary (R52): everything that the node does at sample 0 of a casement, in one order. -/

namespace Sys2Proof.Machine

open Sys2Proof (Word Byte Sparse Page Block Die Port Src BoundaryIn)

namespace Node

/-- Measured loads of the casement that ends (CAS.LOAD, LNK.LOAD). -/
def runLoads (n : Node) (ev : BoundaryIn) : Node :=
  let n := n.setFld casPage Fld.casLoadEngNow (Nat.min ev.engNow 255)
  let n := (n.peak casPage Fld.casLoadEngPeak ev.engNow).peak casPage Fld.casLoadReservePeak ev.reserveUsed
  ev.linkLoads.foldl (fun m (d, u0, d0, u1, d1) =>
    if d < 6 then
      (((m.peak (lnkPage d) Fld.lnkLoadL0Up u0).peak (lnkPage d) Fld.lnkLoadL0Down d0).peak (lnkPage d) Fld.lnkLoadL1Up u1).peak
        (lnkPage d) Fld.lnkLoadL1Down d1
    else m) n

/-- The casement that ends, in every Shutter, input, delay line and span. -/
def casementEnds (n : Node) (ev : BoundaryIn) : Node :=
  let n := n.endSwaps.runShutters.runInputs
  let n := (n.runLocal ev.decSats).runDelays
  n.runRefills.runSpans

/-- What takes effect at sample 0 of casement `b`: commits, target tables, coefficient swaps and the start of a re-index
sequence. -/
def takesEffect (n : Node) (b : Nat) (ev : BoundaryIn) : Node :=
  let n := (n.commitBoundary b ev.unconfirmed).bootCommitted
  (((List.range 6).foldl (fun m d => m.takeSteer d) n).runSwaps).reindexStart

/-- Fades and restores that start at the boundary (R102 to R106). -/
def protectBoundary (n : Node) : Node :=
  (((n.runFailed n.heldSinks).runBundles).runMute).runRestores

/-- The Hinge partner, streams, drive outputs and DRAM at boundary `b`; `was` lists the Shutters that acted in the casement
that ends. -/
def unitsBoundary (n : Node) (b : Nat) (was : List Sys2Proof.ShutterId) (ev : BoundaryIn) : Node :=
  let n := ((((n.runHinge (b - 1)).leasePorts.launchStreams b ev).finishDigests was).runSluice b).ringsBoundary
  let n := ((n.runStops).runReleases).runMarks
  let n := (n.driveMissing).runRails ((List.range 48).map n.railPeak) ((List.range 48).map n.lookPeak)
    ((List.range 48).filter n.lookShort)
  n.migrateCasement ev.migCopies

end Node

/-- CASEMENT_BOUNDARY (R52): the next casement begins. Time advances to the boundary, and the index by one (R50). The results of
the casement that ends become sink outputs, and gathered blocks its inputs. -/
def casementBoundary (n : Node) (ev : BoundaryIn) : Node :=
  if !n.running then n
  else
    let b := n.clk.index + 1
    let n := n.runModulators ev.sense
    let n := n.advanceTo n.nextBoundary
    let n := { n with clk := { n.clk with index := b, boundaryAt := n.clk.now } }
    let n := { n with sil := { n.sil with
      index := b, epoch := n.phc.epoch, latchAt := n.clk.now, cr := rateCr n.rate, ownTime := false } }
    let was := n.touching
    let n := (n.irq Node.casPage 0).moveSpans.takeResults.casementEnds ev
    let edges := n.sht.edges
    let n := { n with sht := { n.sht with edges := [] } }
    let n := ((n.takesEffect b ev).startSpans.protectBoundary.gatherInputs b ev.inputs).clearProgress
    let n := (n.unitsBoundary b was ev).runAlign (n.alignNs b) (n.alignSlew b)
    let n := (allCores.foldl (fun m c => m.reedBoundary edges c) n).runLoads ev
    n.discardResults.runKeys

def execCasementBoundary (ev : BoundaryIn) (s : State) : Host.Outcome State Fault Refusal :=
  s.hub (fun n => casementBoundary n ev)

end Sys2Proof.Machine
end

