-- ==== Sys2Proof/WellFormed.lean ====
section
/-! DEFINITION. Which commands are well formed: every operand in the range that the spec gives it. -/

namespace Sys2Proof

open Sys2Proof.Machine (pageValid)

/-- Bytes of an engine die's Fen SRAM (R119) and of the Sluice SRAM (R197). -/
def fenBytes : Nat := 0xC00000
def sluiceBytes : Nat := 0x200000

/-- A bus matrix master: the table of the bus matrix. -/
def masterOk (m : Nat) : Bool := decide (m ≤ 8 ∨ (16 ≤ m ∧ m ≤ 29))

/-- A source of an access: only the core port tells masters apart (R40, R45) (DESIGN CHOICE, notes/assumptions/3.md). -/
def Src.wf (s : Src) : Bool := match s.port with
  | .core => masterOk s.master
  | _ => decide (s.master = 0)

/-- A register page that the memory map gives (R29). -/
def pageOk (p : Page) : Bool := pageValid p

/-- A payload word of a mailbox request, and a job number that a service gives out. -/
def wordOk (n : Nat) : Bool := decide (n < 2 ^ 32)
def jobOk (n : Nat) : Bool := decide (1 ≤ n ∧ n ≤ 255)

/-- A strip by kind and number: input strip, bus or output strip (R68). -/
def stripOk (kind index : Nat) : Bool :=
  decide ((kind = 1 ∧ index < 4096) ∨ (kind = 2 ∧ index < 1024) ∨ (kind = 3 ∧ index < 1024))

/-- A Shutter's site (R94, R108): a strip, a crosspoint, or a sink by its kind. -/
def shutterOk (i : ShutterId) : Bool :=
  decide ((i.kind = 0 ∧ i.index < 16384 ∧ i.sinkKind = 0) ∨ (i.kind = 1 ∧ i.index < 4096 ∧ i.sinkKind = 0)
    ∨ (i.kind = 2 ∧ i.index < 1024 ∧ i.sinkKind = 0) ∨ (i.kind = 3 ∧ i.index < 1024 ∧ i.sinkKind = 0)
    ∨ (i.kind = 4 ∧ i.sinkKind < 4 ∧ i.index < 8192))

/-- Shutter settings as SHT.WCFG carries them: LAW, RAMP and RESTORE in their field widths. -/
def shutCfgOk (c : ShutCfg) : Bool := decide (c.law < 4 ∧ c.ramp < 4096 ∧ c.restore < 4096)

/-- A matrix request: 1 to 16 beats, and a bridge where one is named (R41, R44). -/
def reqOk (r : MatrixReq) : Bool :=
  masterOk r.master && decide (1 ≤ r.beats ∧ r.beats ≤ 16) && r.bridge.all (fun b => decide (b = 8 ∨ (16 ≤ b ∧ b ≤ 29)))

/-- Ports that write in one hub cycle: each at most once (R40). -/
def portsOk (srcs : List Src) : Bool := decide ((srcs.map (·.port)).eraseDups.length = srcs.length)

/-- A register write of another port in the same cycle. -/
def portWriteOk (w : PortWrite) : Bool := w.src.wf && decide (w.off < 4096) && decide (w.bytes = 1 ∨ w.bytes = 2 ∨ w.bytes = 4)

/-- A write of 1 to 512 bytes within the 40-bit address space (R26, R41). -/
def burstOk (addr : Nat) (data : List Byte) : Bool := decide (addr + data.length ≤ 2 ^ 40 ∧ 1 ≤ data.length ∧ data.length ≤ 512)

/-- A unit's item as CAS.OVR_INFO codes it. -/
def unfinishedOk (u : Unfinished) : Bool := decide (u.unit < 13 ∧ u.item < 65536)

/-- A reader of DRAM: a strip of the delay-line mover is an output strip (R145). -/
def readerOk : PoisonReader → Bool
  | .delayMover strip => stripOk 3 strip
  | _ => true

/-- A branch displacement of 18 bits (R178). -/
def branchOk (o : Int) : Bool := decide (-131072 ≤ o ∧ o < 131072)
def targetOk : ReedTarget → Bool
  | .off o => branchOk o
  | .ext _ => true

/-- An assignable EID (R15): KIND is not NONE, a node's INDEX holds only its zone and number, and all ones is reserved. -/
def eidOk (e : Nat) : Bool :=
  decide (0x400000 ≤ e ∧ e < 0xFFFFFF ∧ (e < 0x800000 → e < 0x404000))

/-- A lease number (R337). -/
def leaseOk (l : Nat) : Bool := decide (l < 66)

/-- A command is well formed. -/
def Instr.wf : Instr → Bool
  | .registerWrite src page off _ bytes others => src.wf && pageOk page && decide (off < 4096) && decide (bytes = 1 ∨ bytes = 2 ∨ bytes = 4)
      && portsOk (src :: others.map (·.src)) && others.all portWriteOk
  | .rcRead src page off writes => src.wf && pageOk page && decide (off < 4096) && portsOk (writes.map (·.src)) && writes.all portWriteOk
  | .memoryWrite src addr data others => src.wf && burstOk addr data && portsOk (src :: others.map (·.1))
      && others.all (fun e => e.1.wf && burstOk e.2.1 e.2.2)
  | .decodeErrorAccess src addr _ => src.wf && decide (addr < 2 ^ 40)
  | .absentDieAccess src addr _ => src.wf && decide (addr < 2 ^ 40)
  | .poisonedBurstRead reader addr => readerOk reader && decide (addr < 2 ^ 40)
  | .matrixRequest reqs => reqs.all reqOk
  | .heldRequestRelease master _ _ => masterOk master
  | .mtxRemapWrite src _ => src.wf
  | .pageEnable src page => src.wf && pageOk page
  | .pageDisable src page => src.wf && pageOk page
  | .shutdownComplete page => pageOk page
  | .softReset src page => src.wf && pageOk page
  | .pageFreeze src page _ => src.wf && pageOk page
  | .irqTestSet src page _ => src.wf && pageOk page
  | .pageCommitRequest src page => src.wf && pageOk page
  | .groupCommitRequest src => src.wf
  | .commitCutoff => true
  | .keyCodeWrite src page _ => src.wf && pageOk page
  | .keyExpiry page => pageOk page
  | .mailboxDoorbell src _ => src.wf
  | .mailboxResponse _ code detail data => decide (code < 256) && decide (detail < 2 ^ 24) && decide (data.length ≤ 62)
  | .mailboxTimeout _ => true
  | .casementBoundary _ => true
  | .casReindexNow src => src.wf
  | .reindexGenerationStop => true
  | .reindexResume => true
  | .rateReadmitAnswer => true
  | .rateReadmitTimeout => true
  | .casGenerationStop => true
  | .casIndexRead src => src.wf
  | .workDeadline => true
  | .unfinishedItemEnd _ unit item => decide (unit < 13) && decide (item < 65536)
  | .lintelTransferArrival _ _ _ flaw => (match flaw with | some (w, x) => decide (w < 24 ∧ 0 < x ∧ x < 2 ^ 74) | none => true)
  | .workItemStart _ _ item => decide (item < 65536)
  | .workItemComplete _ _ => true
  | .routeCompile _ _ _ => true
  | .routeCompileDone job _ => jobOk job
  | .routeStatus _ job => wordOk job
  | .routeReport _ job first => wordOk job && wordOk first
  | .routeCommit _ job => wordOk job
  | .routeLatency _ job _ => wordOk job
  | .routeDiscard _ job => wordOk job
  | .routeStageStart => true
  | .readmitAfterLoss _ => true
  | .followCopyEnd => true
  | .refillHoldEnd path => shutterOk path
  | .xptObjRead src => src.wf
  | .bundleEventReport bundle _ => decide (1 ≤ bundle ∧ bundle ≤ 255)
  | .shutterRequest id req sample => shutterOk id && shutCfgOk req && decide (sample < 24)
  | .shutterRampEnd id => shutterOk id
  | .protectFadeEnd id => shutterOk id
  | .protectRestoreEnd id => shutterOk id
  | .muteNAssert => true
  | .muteNRelease => true
  | .shtMuteAllWrite src _ => src.wf
  | .shtPush src => src.wf
  | .shtRdRead src => src.wf
  | .residueMismatch _ _ _ _ _ err => decide (err % 3 ≠ 0)
  | .engineSelfTestEnd _ _ _ => true
  | .spareTakeover _ => true
  | .spareVectorFail _ => true
  | .penStestRun src _ _ => src.wf
  | .penInjectArm src _ _ _ => src.wf
  | .fenEccError _ off _ => decide (off < fenBytes)
  | .fenPoisonRewrite _ off => decide (off < fenBytes)
  | .fenBankMarchEnd _ _ _ => true
  | .linkCrcError _ _ flits => decide (flits ≤ 64)
  | .linkReplayComplete _ _ => true
  | .linkLaneTestEnd _ _ _ => true
  | .linkRetrainComplete _ _ _ => true
  | .bqdCancel src _ => src.wf
  | .bqdSwapreq src _ => src.wf
  | .bqdPrep src _ => src.wf
  | .bqdReadInactive src _ => src.wf
  | .bqdReadActive src _ => src.wf
  | .bqdWriteInactive src _ => src.wf
  | .bqdWriteActive src _ => src.wf
  | .bqdPrepEnd _ kind index => stripOk kind index
  | .firCancel src _ => src.wf
  | .firSwapreq src _ => src.wf
  | .firPrep src _ => src.wf
  | .firPrepEnd _ strip => stripOk 3 strip
  | .coeffBankSwap _ => true
  | .steerCopyEnd _ => true
  | .glideEnd _ kind index => stripOk kind index && decide (kind ≠ 2)
  | .jumpEnd _ kind index => stripOk kind index && decide (kind ≠ 2)
  | .waitFillResume _ kind index => stripOk kind index && decide (kind ≠ 2)
  | .delayPrefetchArrival _ strip => stripOk 3 strip
  | .poisonHoldEnd _ strip => stripOk 3 strip
  | .reedSlotEntry _ => true
  | .reedRunComplete _ => true
  | .rcxRestart src _ _ => src.wf
  | .rcxStest src _ => src.wf
  | .reedInterruptEntry _ _ => true
  | .reedIrqBudgetExceeded _ => true
  | .rcxMbxDoorbell src _ => src.wf
  | .reedTransferComplete _ _ _ => true
  | .reedMemEccError _ prog addr _ _ => decide (addr < if prog then 16384 else 32768)
  | .reedCoreTestEnd _ _ => true
  | .rcxMemdataAccess src _ _ => src.wf
  | .reedNop _ => true
  | .reedEnd _ => true
  | .reedB _ _ target => targetOk target
  | .reedCall _ target => targetOk target
  | .reedRet _ => true
  | .reedDbnz _ _ off => branchOk off
  | .reedRep _ _ _ => true
  | .reedReti _ => true
  | .reedAdd _ _ _ _ => true
  | .reedSub _ _ _ _ => true
  | .reedAnd _ _ _ _ => true
  | .reedOr _ _ _ _ => true
  | .reedXor _ _ _ _ => true
  | .reedShl _ _ _ _ => true
  | .reedShr _ _ _ _ => true
  | .reedAsr _ _ _ _ => true
  | .reedMin _ _ _ _ => true
  | .reedMax _ _ _ _ => true
  | .reedAdds _ _ _ _ => true
  | .reedSubs _ _ _ _ => true
  | .reedMull _ _ _ _ => true
  | .reedCmp _ _ _ => true
  | .reedMov _ _ _ => true
  | .reedAbs _ _ _ => true
  | .reedNeg _ _ _ => true
  | .reedLd _ _ _ => true
  | .reedSt _ _ _ => true
  | .reedLd2 _ _ _ => true
  | .reedSt2 _ _ _ => true
  | .reedMac _ _ _ _ _ _ => true
  | .reedMsu _ _ _ _ _ _ => true
  | .reedMpy _ _ _ _ _ _ => true
  | .reedMpyn _ _ _ _ _ _ => true
  | .reedDmacs _ _ _ _ _ _ _ _ => true
  | .reedDmacp _ _ _ _ _ _ _ _ => true
  | .reedClr _ _ => true
  | .reedStq _ _ _ _ => true
  | .reedRdg _ _ _ => true
  | .reedRdh _ _ _ => true
  | .reedRdl _ _ _ => true
  | .reedLda _ _ _ _ => true
  | .reedWrl _ _ _ => true
  | .reedAdda _ _ _ => true
  | .reedSuba _ _ _ => true
  | .reedAsh _ _ _ => true
  | .reedExp _ _ _ => true
  | .reedNorm _ _ _ => true
  | .reedAbsa _ _ => true
  | .reedNega _ _ => true
  | .reedMova _ _ _ => true
  | .reedSetp _ _ _ => true
  | .reedSetm _ _ _ => true
  | .reedSetb _ _ _ => true
  | .reedSetl _ _ _ => true
  | .reedGetp _ _ _ => true
  | .reedGetm _ _ _ => true
  | .reedGetb _ _ _ => true
  | .reedGetl _ _ _ => true
  | .reedAddp _ _ _ => true
  | .reedXrd _ _ _ _ _ => true
  | .reedXwr _ _ _ _ _ => true
  | .reedWaitx _ _ => true
  | .reedXst _ _ => true
  | .reedGets _ _ _ => true
  | .reedSets _ _ _ => true
  | .reedEi _ => true
  | .reedDi _ => true
  | .reedMbxr _ _ _ => true
  | .reedMbxw _ _ _ => true
  | .reedMbxdone _ => true
  | .reedEvt _ _ => true
  | .reedSatclr _ => true
  | .illegalInstruction _ => true
  | .streamSubscribe stream _ _ lowest highest => decide (stream < 256) && decide (lowest ≤ highest)
  | .streamPacketReceived p => decide (p.udpDst < 65536)
  | .slotDeadline stream => decide (stream < 512)
  | .sluiceEccError addr _ => decide (addr < sluiceBytes)
  | .sluiceBankMarchEnd _ _ => true
  | .strDescRead src => src.wf
  | .sluDescRead src => src.wf
  | .frameReceived _ frame => decide (frame.bytes.length ≤ frame.wireLen)
  | .pauseFrameReceived _ quanta => decide (quanta < 65536)
  | .pauseExpiry _ => true
  | .txrTailWrite src _ _ => src.wf
  | .rxrTailWrite src _ _ => src.wf
  | .txDescriptorSend _ => true
  | .txFrameSent _ _ => true
  | .macCounterRead src _ _ => src.wf
  | .linkChange _ _ => true
  | .serdesRetrainComplete _ => true
  | .macBufferEccError _ _ _ => true
  | .macLoopbackTestEnd _ _ => true
  | .phcIncrFracWrite src _ => src.wf
  | .phcIncrNsWrite src _ => src.wf
  | .phcStepGo src => src.wf
  | .phcStepPermit src => src.wf
  | .phcTimeRead src => src.wf
  | .phcSecondsCarry => true
  | .ptpMessageReceived _ _ => true
  | .ptpProfile _ _ => true
  | .ptpPort _ _ _ => true
  | .ptpStatus _ => true
  | .ptpParent _ => true
  | .ptpClock _ _ => true
  | .refpolReload _ _ => true
  | .refCtrlWrite src _ _ => src.wf
  | .refSlotCfgWrite src _ _ _ => src.wf
  | .refSstatRead src => src.wf
  | .refSignalLoss _ _ => true
  | .refSignalPresent _ => true
  | .refValidationDone _ _ => true
  | .refWaitRestoreDone _ _ => true
  | .refFrequencyGate abs _ => decide (abs.length = 16)
  | .refQlChange _ _ _ => true
  | .refDisputeJudge _ => true
  | .refVotedOutReturn _ => true
  | .dpllBwStepDown _ => true
  | .dpllLockLoss _ => true
  | .dpllSlewComplete => true
  | .dpllHoldoverExpiry => true
  | .dpllSynthUnlock _ => true
  | .dpllFreqLimit _ => true
  | .dpllFaultRecover _ => true
  | .xoinLoss => true
  | .missingEdgeHold _ => true
  | .announceReceiptTimeout _ => true
  | .aesRxSignalLoss _ => true
  | .aesRxPreamblesFound _ => true
  | .aesRxRateMeasured _ rate _ => decide (rate < 16)
  | .aesRxSettled _ => true
  | .aesRxFrame _ _ _ => true
  | .aesRxSlip _ _ => true
  | .aesRxBlockEnd _ _ => true
  | .aesCapRead src _ => src.wf
  | .aesTxBlockStart _ => true
  | .tdmFramingError _ => true
  | .tdmSlip _ _ => true
  | .tdmMaskApply _ frame => decide (frame < 24)
  | .tdmSlotFadeEnd _ _ _ => true
  | .sdinStuck _ => true
  | .sdinStuckClear _ => true
  | .decBankSwap _ => true
  | .decSettleEnd _ => true
  | .channelEnable src _ => src.wf
  | .channelDisable src _ => src.wf
  | .channelClear src _ => src.wf
  | .lateMemberTimeout _ => true
  | .identityFrameReceived _ _ _ => true
  | .noStageTimeout _ => true
  | .senseFollowed _ => true
  | .channelRun _ => true
  | .followTimeout _ => true
  | .releaseRetryExpiry _ => true
  | .stopComplete _ => true
  | .channelTrip _ _ => true
  | .senseLost _ => true
  | .coolDownEnd _ => true
  | .carrierApply _ => true
  | .fencingComplete _ => true
  | .driveBlockMissingStop => true
  | .snsIdstatRead src => src.wf
  | .carrierProtect _ _ _ => true
  | .carrierPlan _ _ => true
  | .carrierPlanDone job => jobOk job
  | .carrierStatus _ job => wordOk job
  | .carrierReport _ ch => wordOk ch
  | .carrierCheck _ _ => true
  | .dramRefreshDue _ _ => true
  | .dramRefreshMakeup _ => true
  | .dramHotChange _ => true
  | .dramActivate _ _ _ => true
  | .neighbourRefresh _ => true
  | .dramRefreshCycleEnd _ => true
  | .dramEccError _ _ _ _ => true
  | .dramRereadResult _ _ _ _ => true
  | .dramCaParityError _ => true
  | .dramReplayComplete _ _ _ => true
  | .dramMigrationComplete => true
  | .drmTrainStart src => src.wf
  | .dramTrainingEnd _ => true
  | .dramZqCalibration => true
  | .dramDqsTrack _ => true
  | .faultReport page code _ unit => pageOk page && decide (code < 256) && decide (unit < 256)
  | .faultRecordWrite => true
  | .fltAckWrite src _ => src.wf
  | .fltAckAll src => src.wf
  | .fltRecRead src => src.wf
  | .fatalEthStop => true
  | .fatalHighZ => true
  | .sillOwnTimeStart => true
  | .sillCasementTick => true
  | .leaseSelfFence => true
  | .silSafeForce src => src.wf
  | .silSafeRelease src => src.wf
  | .silWdogWrite src _ => src.wf
  | .silKick src => src.wf
  | .watchdogExpiry => true
  | .thermalSample temps => decide (temps.length ≤ 8)
  | .supplyFault _ => true
  | .faultRead _ _ => true
  | .faultAck _ _ _ => true
  | .faultTest _ _ => true
  | .faultStatus _ job => wordOk job
  | .pairMessageReceived _ => true
  | .partnerLost => true
  | .hngRenew src => src.wf
  | .hingeFrameReceived _ => true
  | .leaseTakeover => true
  | .leaseFenceComplete _ => true
  | .dutyReceived _ eid _ _ => eidOk eid
  | .dutyAnnounce => true
  | .leaseClaim => true
  | .claimReceived leases _ _ => leases.all leaseOk
  | .claimDecision => true
  | .resyncComplete => true
  | .controlMessageReceived _ => true
  | .registerEndpoint eid _ => eidOk eid
  | .registrationRetry refused => refused.all eidOk
  | .configSave _ => true
  | .configSaveDone job _ => jobOk job
  | .configList _ => true
  | .configAdopt _ _ _ _ _ => true
  | .configReload _ => true
  | .configStatus _ job => wordOk job
  | .ranoriKey _ _ _ _ => true
  | .ranoriSessions _ first => wordOk first
  | .ranoriHandover _ lease => wordOk lease
  | .i2cWriteTransaction _ bytes => decide (1 ≤ bytes.length)
  | .i2cReadTransaction _ count => decide (1 ≤ count)
  | .i2cProtocolError => true
  | .i2cSdaTimeout => true
  | .attentionSend _ => true
  | .attentionRetry _ => true
  | .pcieMemoryRequest bar2 off len write => decide (1 ≤ len) && decide (off + len ≤ if bar2 then 2 ^ 35 else 2 ^ 27) && write.all (fun bs => decide (bs.length = len))
  | .pcieHotReset => true
  | .msixMessage _ => true
  | .pciRearm src _ => src.wf
  | .erase4k src => src.wf
  | .erase64k src => src.wf
  | .program src => src.wf
  | .qspiCommandEnd => true
  | .porAssert => true
  | .porRelease => true
  | .strapLatch _ => true
  | .railOutOfRange _ => true
  | .vddSillLoss => true
  | .bootCensus _ _ _ _ _ _ => true
  | .bootImageVerified _ _ => true
  | .firstCommit => true
  | .clockWaitExpiry => true
  | .sysReboot src => src.wf
  | .systemVersion _ => true
  | .systemShutdown _ => true
  | .shutdownStepEnd => true
  | .systemStatus _ job => wordOk job
  | .managementCoresStop => true
  | .managementCoresResume => true
  | .pcieLinkUp _ _ => true
  | .vddSillPowerUp => true
  | .stuckBusRetry _ => true

end Sys2Proof
end

