-- ==== Sys2Proof/Machine/Control.lean ====
section
/-! DEFINITION. Ranori control, the directory and saved configurations (R15 to R18, R344 to R349). -/

namespace Sys2Proof.Machine

open Sys2Proof (Word Byte Sparse Page Src SinkId ControlMsg ControlKind SnapshotInfo TxStreamCfg SinkCfg)

/-- The lowest and highest control protocol versions that the node speaks (R347). -/
def oldestVersion : Nat := 2
def newestVersion : Nat := 4

/-- One message in the token bucket: 32,000,000 Sill cycles are a second. -/
def oneToken : Nat := 32000000

/-- The EID addresses a node, a stream or a group, and may be registered (R15). -/
def registrable (eid : Nat) : Bool := Sys2Proof.eidOk eid

/-- Bytes of a directory record, and of the 2,097,152 records that fit (R17). -/
def recordBytes : Nat := 64
def recordsMost : Nat := 2097152

namespace Node

/-! Sessions (R347, R348). -/

/-- The session of a sender; one that no message has opened is CLOSED, with a full bucket. -/
def sessionOf (n : Node) (peer : Nat) : Session :=
  (n.cfg.sessions.find? (fun (s : Session) => decide (s.peer = peer))).getD
    { peer := peer, state := 3, tokens := Nat.max 1 (n.fld hngPage Fld.hngRateBurst) * oneToken, filledAt := n.sillTime }

def setSession (n : Node) (s : Session) : Node :=
  if n.cfg.sessions.any (fun (x : Session) => decide (x.peer = s.peer)) then
    { n with cfg := { n.cfg with sessions := n.cfg.sessions.map (fun (x : Session) => if x.peer = s.peer then s else x) } }
  else { n with cfg := { n.cfg with sessions := n.cfg.sessions ++ [s] } }

/-- The bucket of a session, filled to now (R348). -/
def fillBucket (n : Node) (s : Session) : Session :=
  let rate := Nat.max 1 (n.fld hngPage Fld.hngRatePerS)
  let depth := Nat.max 1 (n.fld hngPage Fld.hngRateBurst) * oneToken
  { s with tokens := Nat.min depth (s.tokens + (n.sillTime - s.filledAt) * rate), filledAt := n.sillTime }

/-- A session that an accepted message leaves: the replay window of 64, and a version agreed or refused (R347, R348). -/
def sessionTakes (s : Session) (m : ControlMsg) : Session :=
  let high := Nat.max s.highest m.seq
  let s := { s with highest := high, seen := (m.seq :: s.seen).filter (fun q => decide (high < q + 64)), tokens := s.tokens - oneToken }
  match m.kind with
  | .offer lo hi =>
    if lo ≤ hi ∧ lo ≤ newestVersion ∧ oldestVersion ≤ hi then { s with version := Nat.min newestVersion hi, state := 1 }
    else { s with version := 0, state := 2 }
  | .close => { s with state := 3 }
  | .other => s

/-! The directory (R16). -/

/-- Streams under a refused EID are muted by their Shutters, and open again once it is accepted; a Shutter keeps its
settings. -/
def muteRefused (n : Node) (eids : List Nat) : Node :=
  let n := (n.rt.cfg.sinks.filter (fun (s : SinkCfg) => decide (s.id.kind = 0))).foldl (fun m (s : SinkCfg) =>
    let refused := m.eidRefused eids s.id
    if (m.shut (sinkShut s.id)).forced = refused then m else m.forceShutNow (sinkShut s.id) refused) n
  { n with cfg := { n.cfg with refused := eids } }

/-! CONFIG jobs (R346). -/

/-- A new CONFIG job, RUNNING. -/
def newConfigJob (n : Node) (adopted : Option (List Byte)) : Node × Nat :=
  let num := n.cfg.nextJob
  ({ n with cfg := { n.cfg with
      nextJob := num % 255 + 1,
      jobs := n.cfg.jobs.filter (fun (j : ConfigJob) => decide (j.num ≠ num)) ++ [{ num := num, adopted := adopted }] } }, num)

def modConfigJob (n : Node) (num : Nat) (f : ConfigJob → ConfigJob) : Node :=
  { n with cfg := { n.cfg with jobs := n.cfg.jobs.map (fun (j : ConfigJob) => if j.num = num then f j else j) } }

/-- The copy chosen by R345 is given to the ROUTE service. A node that boot has left in CONFIG commits it as boot's job
(R372, R373) (DEDUCED, notes/assumptions/130.md). -/
def reload (n : Node) (num : Nat) : Node :=
  match n.copyChosen with
  | none => n.modConfigJob num (fun j => { j with state := 3 })
  | some (b, seq) =>
    if 4 ≤ (n.rt.jobs.filter (fun (j : Job) => decide (j.num ≠ 0))).length then n.modConfigJob num (fun j => { j with state := 3 })
    else
      let (n, route) := n.newJob (0x80000000 + copyBase b + 16)
      let boots := decide (n.fld sysPage Fld.sysBootStage = 6) && n.boot.job.isNone
      let n := n.modJob route (fun j => { j with copy := some (b, seq), auto := !boots })
      let n := if boots then ({ n with boot := { n.boot with job := some route } }).setFld sysPage Fld.sysBootNocfg 0 else n
      n.modConfigJob num (fun j => { j with route := some route })

/-- The CONFIG service is at work on the flash. -/
def configBusy (n : Node) : Bool := n.cfg.owner.isSome || n.cfg.waiting.isSome

end Node

/-- CONTROL_MESSAGE_RECEIVED (R347, R348): the tag, the replay window and the rate limit are checked in turn; an offer
agrees the highest common version (DESIGN CHOICE, notes/assumptions/126.md) (DESIGN CHOICE, notes/assumptions/151.md). -/
def controlMessage (n : Node) (m : ControlMsg) : Node :=
  let s := n.fillBucket (n.sessionOf m.sender)
  if !m.tagOk then n.bump hngPage Fld.hngSeccntTagFail
  else if m.seq + 64 ≤ s.highest ∨ s.seen.contains m.seq then n.bump hngPage Fld.hngSeccntReplay
  else if s.tokens < oneToken then (n.bump hngPage Fld.hngSeccntRateDrop).setSession s
  else
    let t := Node.sessionTakes s m
    let n := n.setSession t
    match m.kind with
    | .offer _ _ => if t.state = 2 then n.bump hngPage Fld.hngSeccntIncompat else n
    | _ => n

def execControlMessageReceived (m : ControlMsg) (s : State) : Host.Outcome State Fault Refusal :=
  s.hub (fun n => controlMessage n m)

namespace Node

/-- `k` free words, least significant byte first. -/
def freeWords4 (n : Node) : Nat → List Byte × Node
  | 0 => ([], n)
  | k + 1 =>
    let (w, n) := n.fresh
    let (bs, n) := n.freeWords4 k
    (leBytes w.toNat 4 ++ bs, n)

/-- The record of the `k`-th endpoint in DRAM, in the 128 MiB below the top of the windows in service (R17). The spec gives
neither the place nor the layout of a record: its bytes are free values (DESIGN CHOICE, notes/assumptions/155.md). -/
def writeRecordAt (n : Node) (k : Nat) : Node :=
  let a := n.dramTop - recordsMost * recordBytes + recordBytes * k
  if (n.dmaAddr a recordBytes).isNone then n
  else
    let (bs, n) := n.freeWords4 (recordBytes / 4)
    n.dmaWrite a bs

end Node

/-- Data words of an answer of DIRECTORY (R17): the service returns the records that the node holds in DRAM. Which of them a command
asks for is not stated: the first record is a free value (DESIGN CHOICE, notes/assumptions/158.md). -/
def directoryWords (n : Node) (count : Nat) : List Word × Node :=
  let (w, n) := n.fresh
  let base := n.dramTop - recordsMost * recordBytes + recordBytes * (w.toNat % n.cfg.directory.length)
  ((List.range (Nat.min count 62)).map (fun k => n.dmaWord (base + 4 * k)), n)

/-- MAILBOX_RESPONSE (R46, R47): the firmware writes a service's response (DEDUCED, notes/assumptions/35.md). A request of an
unknown service is answered BAD_SERVICE, one of an unknown command of a known service BAD_COMMAND, and one of a wrong length
BAD_LENGTH. -/
def mailboxResponse (n : Node) (slot : Fin 4) (code detail : Nat) (data : List Word) : Node :=
  n.serve (fun n =>
    let head := (n.reg mgtPage (requestOff slot)).toNat
    let service := head / 2 ^ 24
    if !knownService service then n.answer slot badService
    else if !knownCommand service (head / 2 ^ 16 % 256) then n.answer slot badCommand
    else if n.lengthBad slot then n.answer slot badLength
    else if service = 5 ∧ code = okCode ∧ n.cfg.directory ≠ [] then
      let (words, n) := directoryWords n data.length
      n.answer slot okCode detail words
    else n.answer slot code detail data)

def execMailboxResponse (slot : Fin 4) (code detail : Nat) (data : List Word) (s : State) :
    Host.Outcome State Fault Refusal :=
  s.hub (fun n => mailboxResponse n slot code detail data)

/-- REGISTER_ENDPOINT (R16, R17): the directory master accepts an EID and keeps its record, or refuses one that another node
has registered with DUPLICATE_EID. The answer is shown as the response of the access, with the result code of R46 as its
data (DESIGN CHOICE, notes/assumptions/127.md). -/
def endpointRegisters (n : Node) (eid node : Nat) : Node :=
  if !n.dutyLeases.getLsbD 65 then n
  else match n.cfg.directory.find? (fun e => decide (e.1 = eid)) with
    | some e =>
      if e.2 = node then n.respond true (BitVec.ofNat 32 okCode) else n.respond false (BitVec.ofNat 32 duplicateEid)
    | none =>
      if !registrable eid then n.respond false (BitVec.ofNat 32 badArgument)
      else if recordsMost ≤ n.cfg.directory.length then n.respond false (BitVec.ofNat 32 refusedCode)
      else
        let n := n.writeRecordAt n.cfg.directory.length
        ({ n with cfg := { n.cfg with directory := n.cfg.directory ++ [(eid, node)] } }).respond true (BitVec.ofNat 32 okCode)

def execRegisterEndpoint (eid : Nat) (node : Nat) (s : State) : Host.Outcome State Fault Refusal :=
  s.hub (fun n => endpointRegisters n eid node)

/-- REGISTRATION_RETRY (R16): the directory answers a retry with the EIDs that it still refuses. -/
def execRegistrationRetry (refused : List Nat) (s : State) : Host.Outcome State Fault Refusal :=
  s.hub (fun n => n.muteRefused refused)

/-- HNG_RENEW (R339): a write of 1 to HNG.RENEW, from the core port only; while the management cores stand still no renewal
is offered (R25). -/
def hngRenewWrite (n : Node) (src : Src) : Node :=
  if src.port = .core ∧ n.paired ∧ n.mgmt.running then n.offerRenewal else n

/-- CONFIG SAVE (R346): the configuration in force goes to the older copy. -/
def configSave (n : Node) (slot : Fin 4) : Node :=
  n.serveSlot slot (fun n =>
    if n.configBusy then n.answer slot busyCode
    else if !n.rt.inForce then n.answer slot refusedCode
    else
      let (n, num) := n.newConfigJob none
      (n.startSave num).answer slot acceptedCode num)

def execConfigSave (slot : Fin 4) (s : State) : Host.Outcome State Fault Refusal := s.hub (fun n => configSave n slot)

/-- CONFIG_SAVE_DONE (R345): the snapshot has been written, with the other copy's number plus one, or the job has FAILED and
the copy is invalid. An adopted snapshot is then reloaded (R344). -/
def configSaveDone (n : Node) (num : Nat) (snapshot : Option (List Byte)) : Node :=
  match n.cfg.jobs.find? (fun (j : ConfigJob) => decide (j.num = num)) with
  | none => n
  | some j =>
    if n.cfg.owner ≠ some num then n
    else
      let n := ({ n with cfg := { n.cfg with owner := none } }).setFld qspPage Fld.qspStatCfgJob 0
      match snapshot.map (fun bs => j.adopted.getD bs) with
      | none => n.modConfigJob num (fun j => { j with state := 3 })
      | some bs =>
        if copySpace < bs.length + 16 then n.modConfigJob num (fun j => { j with state := 3 })
        else
          let (b, seq) := n.copyToSave
          let n := n.writeCopy b seq bs
          if j.adopted.isSome then n.serve (fun n => n.reload num)
          else
            let n := { n with cfg := { n.cfg with inForceB := b }, hng := { n.hng with cfgSeq := seq } }
            n.modConfigJob num (fun j => { j with state := 2 })

def execConfigSaveDone (job : Nat) (snapshot : Option (List Byte)) (s : State) : Host.Outcome State Fault Refusal :=
  s.hub (fun n => configSaveDone n job snapshot)

/-- CONFIG LIST (R346): a copy's sequence number as its header holds it. -/
def configList (n : Node) (slot : Fin 4) : Node :=
  n.serveSlot slot (fun n =>
    let bit := fun (b : Bool) (k : Nat) => if b then 2 ^ k else 0
    n.answer slot okCode none [n.flashWord (copyBase false + 4), n.flashWord (copyBase true + 4),
      BitVec.ofNat 32 (bit (n.copySeq false).isSome 0 + bit (n.copySeq true).isSome 1 + bit (n.rt.inForce && n.cfg.inForceB) 2)])

def execConfigList (slot : Fin 4) (s : State) : Host.Outcome State Fault Refusal := s.hub (fun n => configList n slot)

/-- What CONFIG ADOPT finds wrong with a snapshot (R346): its result code and DETAIL (DEDUCED, notes/assumptions/129.md). -/
def snapshotRefusal (n : Node) (addr len : Nat) (info : SnapshotInfo) : Option (Nat × Option Nat) :=
  if len < 16 ∨ copySpace < len ∨ (n.dmaAddr addr len).isNone then some (badArgument, none)
  else if n.dmaWord addr ≠ copyMagic ∨ (n.dmaWord (addr + 8)).toNat + 16 ≠ len ∨ !info.formatKnown then some (badArgument, none)
  else if crc32c (n.dmaRead (addr + 16) (len - 16)) ≠ (n.dmaWord (addr + 12)).toNat then some (badArgument, none)
  else match info.dies.find? (fun d => !(decide (d < 6) && n.boot.engPresent.getLsbD d)) with
    | some d => some (refusedCode, some (detailOf 0 dieAbsent (0x80 + d)))
    | none => if info.drive ∧ !n.boot.drvPresent then some (refusedCode, some (detailOf 0 dieAbsent 0x86)) else none

/-- CONFIG ADOPT (R344, R346): the snapshot is checked, saved and then reloaded. It starts with the 16 bytes of R363. -/
def configAdopt (n : Node) (slot : Fin 4) (lo hi length : Word) (info : SnapshotInfo) : Node :=
  n.serveSlot slot (fun n =>
    let addr := lo.toNat + hi.toNat % 256 * 2 ^ 32
    match snapshotRefusal n addr length.toNat info with
    | some (code, detail) => n.answer slot code detail
    | none =>
      if n.configBusy then n.answer slot busyCode
      else
        let (n, num) := n.newConfigJob (some (n.dmaRead (addr + 16) (length.toNat - 16)))
        (n.startSave num).answer slot acceptedCode num)

def execConfigAdopt (slot : Fin 4) (addrLo addrHi length : Word) (info : SnapshotInfo) (s : State) :
    Host.Outcome State Fault Refusal :=
  s.hub (fun n => configAdopt n slot addrLo addrHi length info)

/-- CONFIG RELOAD (R346): the copy chosen by R345 as a route change; BUSY where the ROUTE service has no job left. -/
def configReload (n : Node) (slot : Fin 4) : Node :=
  n.serveSlot slot (fun n =>
    if 4 ≤ (n.rt.jobs.filter (fun (j : Job) => decide (j.num ≠ 0))).length ∨ n.configBusy then n.answer slot busyCode
    else
      let (n, num) := n.newConfigJob none
      (n.reload num).answer slot acceptedCode num)

def execConfigReload (slot : Fin 4) (s : State) : Host.Outcome State Fault Refusal := s.hub (fun n => configReload n slot)

/-- CONFIG STATUS (R346). -/
def configStatus (n : Node) (slot : Fin 4) (num : Nat) : Node :=
  n.serveSlot slot (fun n => match n.cfg.jobs.find? (fun (j : ConfigJob) => decide (j.num = num)) with
    | some j => n.answer slot okCode (some j.state)
    | none => n.answer slot badArgument)

def execConfigStatus (slot : Fin 4) (job : Nat) (s : State) : Host.Outcome State Fault Refusal :=
  s.hub (fun n => configStatus n slot job)

/-- RANORI KEY (R349): only from the PCIe and I²C slots; SEC holds 256 keys. -/
def ranoriKey (n : Node) (slot : Fin 4) (eid lo hi : Word) : Node :=
  n.serveSlot slot (fun n =>
    let e := eid.toNat
    let addr := lo.toNat + hi.toNat % 256 * 2 ^ 32
    let known := n.cfg.keys.any (fun k => decide (k.1 = e))
    if 1 < slot.val then n.answer slot notPermitted
    else if (e ≠ 0xFFFFFF ∧ (e < 0x400000 ∨ 0x800000 ≤ e ∨ !Sys2Proof.eidOk e)) ∨ (n.dmaAddr addr 32).isNone then n.answer slot badArgument
    else if !known ∧ 256 ≤ n.cfg.keys.length then n.answer slot refusedCode
    else
      let keys := n.cfg.keys.filter (fun k => decide (k.1 ≠ e)) ++ [(e, n.dmaRead addr 32)]
      ((({ n with cfg := { n.cfg with keys := keys } }).setFld secPage Fld.secStatKeys keys.length)).answer slot okCode)

def execRanoriKey (slot : Fin 4) (eid addrLo addrHi : Word) (s : State) : Host.Outcome State Fault Refusal :=
  s.hub (fun n => ranoriKey n slot eid addrLo addrHi)

/-- RANORI SESSIONS (R349). -/
def ranoriSessions (n : Node) (slot : Fin 4) (first : Nat) : Node :=
  n.serveSlot slot (fun n =>
    n.answer slot okCode none (((n.cfg.sessions.drop first).take 31).flatMap (fun (s : Session) =>
      [BitVec.ofNat 32 s.peer, BitVec.ofNat 32 (s.version % 16 + s.state % 16 * 16)])))

def execRanoriSessions (slot : Fin 4) (first : Nat) (s : State) : Host.Outcome State Fault Refusal :=
  s.hub (fun n => ranoriSessions n slot first)

/-- RANORI HANDOVER (R340, R349): the holder fences the lease. -/
def ranoriHandover (n : Node) (slot : Fin 4) (lease : Nat) : Node :=
  n.serveSlot slot (fun n =>
    if 66 ≤ lease then n.answer slot badArgument
    else if !n.dutyLeases.getLsbD lease then n.answer slot refusedCode
    else (n.fenceLease lease).answer slot okCode)

def execRanoriHandover (slot : Fin 4) (lease : Nat) (s : State) : Host.Outcome State Fault Refusal :=
  s.hub (fun n => ranoriHandover n slot lease)

end Sys2Proof.Machine
end

