-- ==== Sys2Proof/Machine/Power.lean ====
section
/-! DEFINITION. Power, resets, boot and shutdown (R365 to R377), the management cores (R25), and the PCIe link. -/

namespace Sys2Proof.Machine

open Sys2Proof (Word Byte Sparse Page Block Die Port Src)

namespace Node

/-- A hub reset (R367): the hub outside the Sill island, every engine die and the drive die take their reset state. The
island keeps its registers but for the watchdog (R329), its ring, its count, its lease fences and MUTE_N (R106); SYS.STRAPS holds the
latched straps (R368); what memories and flash hold is not touched (DEDUCED, notes/assumptions/119.md). -/
def hubReset (n : Node) : Node :=
  let n := n.flashInterrupted
  let sill := fun (k : Nat) => decide (keyPage k = fltPage ∨ keyPage k = silPage) || decide (k = regKey sysPage 0x048 0)
  let regs := n.regs.filter (fun e => sill e.1)
  let reeds := n.reeds.map (fun e => (e.1, ({ poisonedData := e.2.poisonedData, poisonedProg := e.2.poisonedProg } : ReedCore)))
  let poisoned := n.dies.map (fun e => (e.1, ({ poisoned := e.2.poisoned } : DieSt)))
  let m : Node := {
    regs := regs, mem := n.mem, clk := { now := n.clk.now },
    dies := poisoned.filter (fun e => decide (e.2 ≠ {})), reeds := reeds.filter (fun e => decide (e.2 ≠ {})),
    reedMem := n.reedMem, reedProg := n.reedProg,
    str := { poisoned := n.str.poisoned }, dram := { poisoned := n.dram.poisoned },
    flt := n.flt, sil := { n.sil with wdogRunning := false }, sht := { mutePin := n.sht.mutePin, cause3 := n.sht.mutePin },
    hng := { fencing := n.hng.fencing }, flash := n.flash,
    boot := { engHeld := n.boot.engHeld, drvHeld := n.boot.drvHeld, engPresent := n.boot.engHeld, drvPresent := n.boot.drvHeld,
              strapped := n.boot.strapped, railOut := n.boot.railOut, shutdownJob := n.boot.shutdownJob },
    i2c := { straps := n.i2c.straps, ptrSill := n.i2c.ptrSill, rseq := n.i2c.rseq, ackseq := n.i2c.ackseq },
    rsp := n.rsp, free := n.free, pins := { refHeld := n.pins.refHeld } }
  m.setFld silPage Fld.silWdogEnable 0

/-- The straps give an address that I2C.STAT.ADDR_ERR marks (R351). -/
def addrReserved (s : BitVec 6) : Bool := decide (s.toNat < 4 ∨ 60 ≤ s.toNat)

/-- The node address in force (R351): 0x50 in place of a reserved one. -/
def nodeAddr (n : Node) : Nat :=
  match n.i2c.straps with
  | some s => if addrReserved s then 0x50 else 2 * s.toNat
  | none => 0

/-- Boot leaves RESET once the straps are latched and no rail holds the dies. -/
def leaveReset (n : Node) : Node :=
  if n.boot.strapped ∧ !n.boot.railOut ∧ n.fld sysPage Fld.sysBootStage = 0 then n.setStage 1 else n

end Node

/-- POR_ASSERT (R376, R23, R24): POR_N falls; REFSTAT and REFNUM are strap inputs again. -/
def porAssert (n : Node) : Node :=
  if n.sil.powered then
    let n := { n with sil := { n.sil with por := true } }.hubReset
    { n with boot := { n.boot with strapped := false, railOut := false }, pins := { n.pins with rail := .highZ } }
  else n

def execPorAssert (s : State) : Host.Outcome State Fault Refusal := s.act porAssert

/-- POR_RELEASE (R322, R369): POR_N rises. RAIL_DMD stays high-impedance, and the pulls hold it low, until the RAIL page drives it (R23,
R374, R388). The island acknowledges every corrected and contained record; a fatal state
stands until power-off (R325). -/
def porRelease (n : Node) : Node :=
  if n.sil.powered ∧ n.sil.por then
    let n := { n with sil := { n.sil with por := false }, pins := { n.pins with rail := .highZ } }
    let n := n.ackWhere (fun r => decide (r.cls < 3))
    { n with flt := { n.flt with queue := n.flt.queue.map (fun r => if r.cls < 3 then { r with ack := true } else r) } }
  else n

def execPorRelease (s : State) : Host.Outcome State Fault Refusal := s.act porRelease

/-- STRAP_LATCH (R24, R368): the balls are REFSTAT2 to REFSTAT0 and REFNUM3 to REFNUM0; the supply monitor is armed (R366). -/
def strapLatch (n : Node) (balls : BitVec 7) : Node :=
  if n.sil.por ∨ n.boot.strapped then n
  else
    let bits : BitVec 6 := balls.setWidth 6
    let n := { n with
      boot := { n.boot with strapped := true }
      i2c := { n.i2c with straps := some bits } }
    (n.setFld sysPage Fld.sysStrapsRaw balls.toNat).leaveReset

def execStrapLatch (balls : BitVec 7) (s : State) : Host.Outcome State Fault Refusal := s.sill (fun n => strapLatch n balls)

/-- RAIL_OUT_OF_RANGE (R366): before the supply monitor is armed, a rail out of range holds the dies in reset for as long
as it stays out (DEDUCED, notes/assumptions/134.md). -/
def railOutOfRange (n : Node) (out : Bool) : Node :=
  if n.sil.por then n
  else if out then
    if n.boot.strapped ∨ n.boot.railOut then n
    else { n with boot := { n.boot with railOut := true } }.hubReset
  else if n.boot.railOut then { n with boot := { n.boot with railOut := false } }.leaveReset
  else n

def execRailOutOfRange (out : Bool) (s : State) : Host.Outcome State Fault Refusal := s.sill (fun n => railOutOfRange n out)

/-- A node without VDD_SILL, or just after it came up: the ring and every memory are lost, and flash and the dies that the
package holds remain. -/
def withoutPower (n : Node) : Node :=
  let n := n.flashInterrupted
  { clk := { now := n.clk.now }, flash := n.flash, free := n.free, rsp := n.rsp
    boot := { engHeld := n.boot.engHeld, drvHeld := n.boot.drvHeld, engPresent := n.boot.engHeld, drvPresent := n.boot.drvHeld } }

/-- VDD_SILL_LOSS (R23, R376): every ball is undriven, those of the drive channels included, and the fault ring is lost. -/
def vddSillLoss (n : Node) : Node :=
  { withoutPower n with
      sil := { powered := false, por := true }, pins := { rail := .undriven, clocked := .undriven }
      drive := { ch := if n.boot.drvHeld then (List.range 192).map (fun k => (k, { pins := .undriven })) else [] } }

def execVddSillLoss (s : State) : Host.Outcome State Fault Refusal := s.act vddSillLoss

/-- VDD_SILL_POWER_UP (R320, R351, R365): VDD_SILL comes up with POR_N low (DEDUCED, notes/assumptions/139.md). -/
def vddSillPowerUp (n : Node) : Node :=
  if n.sil.powered then n
  else { withoutPower n with sil := { por := true }, pins := { rail := .highZ } }

def execVddSillPowerUp (s : State) : Host.Outcome State Fault Refusal := s.act vddSillPowerUp

/-- VARIANT of a census (R1, R371). -/
def variantOf (present : BitVec 6) (drive : Bool) : Nat :=
  if present = 0x01 ∧ !drive then 2
  else if present = 0x07 ∧ drive then 5
  else if present = 0x3F ∧ drive then 8
  else 0xF

/-- The training of one link at the census (R124, R371): a link with a lane that fails retrains on a half of its lanes; one of a
die whose links both fail is down. -/
def Node.trainLink (n : Node) (node l : Nat) (failed : Bool) (lanes : Word) : Node :=
  n.modLink node l (fun k =>
    if failed then { k with down := true, trained := true }
    else { k with lanes := k.lanes ||| lanes, trained := true, training := decide (k.lanes ||| lanes ≠ 0) })

/-- BOOT_CENSUS (R371): a present die is failed when both of its links fail training (DEDUCED, notes/assumptions/135.md);
`lanes` gives the lanes of a link that fail training (R124). -/
def bootCensus (n : Node) (present : BitVec 6) (drive : Bool) (linksFailed : BitVec 6) (driveFailed : Bool)
    (stepping : BitVec 4) (lanes : List (Fin 7 × Fin 2 × Word)) : Node :=
  if n.fld sysPage Fld.sysBootStage ≠ 1 then n
  else
    let failed := present &&& linksFailed
    let drvFailed := drive && driveFailed
    let v := variantOf present drive
    let word := stepping.toNat * 2 ^ 28 + v * 2 ^ 24 + (if drvFailed then 2 ^ 22 else 0) + failed.toNat * 2 ^ 16
      + (if drive then 64 else 0) + present.toNat
    let n := { n with boot := { n.boot with
      engHeld := present, drvHeld := drive, engPresent := present &&& ~~~failed, drvPresent := drive && !driveFailed, census := true } }
    let n := (List.range 7).foldl (fun m node =>
      if if node = 6 then drive else present.getLsbD node then
        let bad := fun (l : Nat) => (lanes.filter (fun e => decide (e.1.val = node ∧ e.2.1.val = l))).foldl (fun w e => w ||| e.2.2) 0
        let fails := if node = 6 then driveFailed else linksFailed.getLsbD node
        (m.trainLink node 0 fails (bad 0)).trainLink node 1 fails (bad 1)
      else m) n
    let n := (n.setReg sysPage 0x04C (BitVec.ofNat 32 word)).setStage 2
    let n := if v = 0xF then (n.raiseFault sysPage 3).irq sysPage 1 else n
    let bad := ((List.range 6).filter (fun d => failed.getLsbD d)).length + (if drvFailed then 1 else 0)
    (List.range bad).foldl (fun m _ => (m.raiseFault sysPage 4).irq sysPage 1) n

def execBootCensus (present : BitVec 6) (drive : Bool) (linksFailed : BitVec 6) (driveFailed : Bool) (stepping : BitVec 4)
    (lanes : List (Fin 7 × Fin 2 × Word)) (s : State) : Host.Outcome State Fault Refusal :=
  s.hub (fun n => bootCensus n present drive linksFailed driveFailed stepping lanes)

namespace Node

/-- An image's header makes it a candidate (R370). -/
def imageCandidate (n : Node) (b : Bool) : Bool :=
  decide (n.flashWord (imageBase b) = imageMagic ∧ (n.flashWord (imageBase b + 12)).toNat ≤ 7339776)

/-- SYS.BOOT.RESULT of an image. -/
def setResult (n : Node) (b : Bool) (v : Nat) : Node :=
  n.setFld sysPage (if b then Fld.sysBootResultB else Fld.sysBootResultA) v

/-- A verified image runs (R28, R369, R370): its body is copied into working SRAM, MTX.REMAP is set, and the management cores
start the firmware. -/
def runImage (n : Node) (b : Bool) : Node :=
  let base := imageBase b
  let body := n.flashBytes (base + 256) (n.flashWord (base + 12)).toNat
  let n := (n.setResult b 1).wrBytes workBase body
  let n := (n.setFld secPage Fld.secStatImage (if b then 1 else 0)).setReg secPage 0x044 (n.flashWord (base + 8))
  { n.remap with mgmt := { running := true } }.setStage 3

/-- The ROM tries candidates in turn; one that fails its check raises code 0x02 (R370). With none left the node enters
RECOVERY, in which CAS runs with no objects (DEDUCED, notes/assumptions/136.md). -/
def tryImages (n : Node) (sig : Bool → Bool) : List Bool → Node
  | [] => (((n.raiseFault sysPage 1).irq sysPage 1).setStage 9).enablePage casPage
  | b :: rest =>
    if sig b && !n.flashBroken (imageBase b) (256 + (n.flashWord (imageBase b + 12)).toNat) then n.runImage b
    else (((n.setResult b 3).raiseFault sysPage 2 (if b then 1 else 0)).irq sysPage 1).tryImages sig rest

end Node

/-- BOOT_IMAGE_VERIFIED (R370): `sigA` and `sigB` are the outcomes that the signature checks of the images have. -/
def bootImageVerified (n : Node) (sigA sigB : Bool) : Node :=
  if n.fld sysPage Fld.sysBootStage ≠ 2 then n
  else
    let seq := fun (b : Bool) => (n.flashWord (imageBase b + 8)).toNat
    let order := if seq false < seq true then [true, false] else [false, true]
    let n := order.foldl (fun m b => if m.imageCandidate b then m else m.setResult b 2) n
    n.tryImages (fun b => if b then sigB else sigA) (order.filter n.imageCandidate)

def execBootImageVerified (sigA sigB : Bool) (s : State) : Host.Outcome State Fault Refusal :=
  s.hub (fun n => bootImageVerified n sigA sigB)

/-- FIRST_COMMIT (R373): the firmware commits the job that boot compiled, at lock, when CLOCK_WAIT has passed, or at once
under MODE FREE. -/
def firstCommit (n : Node) : Node :=
  n.serve (fun n =>
    match n.boot.job with
    | none => n
    | some num =>
      let may := decide (n.refState = 2) || n.boot.clockWaited || decide (n.boot.clockWait = 0)
        || decide (n.fld refPage Fld.refCtrlMode = 3)
      if n.fld sysPage Fld.sysBootStage = 7 ∧ may ∧ n.rt.jobs.any (fun (j : Job) => decide (j.num = num ∧ j.state = .admitted)) then
        ((stageWaiting (n.modJob num (fun j => { j with auto := true }))).settleCommits).bootCommitted
      else n)

def execFirstCommit (s : State) : Host.Outcome State Fault Refusal := s.hub firstCommit

/-- CLOCK_WAIT_EXPIRY (R373): CLOCK_WAIT seconds have passed since REF was enabled. -/
def execClockWaitExpiry (s : State) : Host.Outcome State Fault Refusal :=
  s.hub (fun n => if (n.hdr refPage).active then { n with boot := { n.boot with clockWaited := true } } else n)

/-! The SYSTEM service (R377). -/

/-- SYSTEM VERSION. -/
def systemVersion (n : Node) (slot : Fin 4) : Node :=
  n.serveSlot slot (fun n =>
    let base := imageBase (n.flag secPage Fld.secStatImage)
    n.answer slot okCode none [Config.bootRomVersion, n.flashWord (base + 4), n.reg secPage 0x044, n.reg sysPage 0x04C,
      Config.eui.setWidth 32, (Config.eui >>> 32).setWidth 32])

def execSystemVersion (slot : Fin 4) (s : State) : Host.Outcome State Fault Refusal := s.hub (fun n => systemVersion n slot)

namespace Node

/-- Pages that a step of the orderly shutdown disables, in order (R375). -/
def shutdownPages (k : Nat) : List Page :=
  match k with
  | 1 => [hngPage]
  | 2 => (List.range 24).map (fun i => ⟨.mod, i⟩)
  | 3 => [casPage]
  | 4 => ⟨.str, 0⟩ :: (List.range 4).map (fun i => ⟨.mac, i⟩)
  | 5 => [drmPage]
  | _ => []

/-- A step of the orderly shutdown starts; the sixth ends in OFF_READY (R375). -/
def shutdownStep (n : Node) (k : Nat) : Node :=
  let n : Node := { n with boot := { n.boot with shutdown := k } }
  let n : Node := ((shutdownPages k).filter n.pagePresent).foldl (fun (m : Node) p => m.disablePage p) n
  if k = 6 then
    let n : Node := n.setStage 0xB
    if decide (n.boot.shutdownSlot = 1) then n.attnCause 2 else n
  else n

end Node

/-- SYSTEM SHUTDOWN (R375): BUSY while a ROUTE job is STAGED or a shutdown has begun. -/
def systemShutdown (n : Node) (slot : Fin 4) : Node :=
  n.serveSlot slot (fun n =>
    if !n.slotBusy slot then n
    else if n.stagedJob.isSome ∨ n.boot.shutdown ≠ 0 then n.answer slot busyCode
    else
      let num := n.boot.shutdownJob % 255 + 1
      let n := { n with boot := { n.boot with shutdownJob := num, shutdownSlot := slot } }
      ((n.setStage 0xA).answer slot acceptedCode num).shutdownStep 1)

def execSystemShutdown (slot : Fin 4) (s : State) : Host.Outcome State Fault Refusal := s.hub (fun n => systemShutdown n slot)

/-- SHUTDOWN_STEP_END (R375): the blocks of the step have stopped, and the next step starts. -/
def shutdownStepEnd (n : Node) : Node :=
  n.serve (fun n =>
    let k := n.boot.shutdown
    if 1 ≤ k ∧ k ≤ 5 ∧ (Node.shutdownPages k).all (fun p => !(n.hdr p).busy) then n.shutdownStep (k + 1) else n)

def execShutdownStepEnd (s : State) : Host.Outcome State Fault Refusal := s.hub shutdownStepEnd

/-- SYSTEM STATUS. -/
def systemStatus (n : Node) (slot : Fin 4) (job : Nat) : Node :=
  n.serveSlot slot (fun n =>
    if job ≠ 0 ∧ job = n.boot.shutdownJob then n.answer slot okCode (some (n.fld sysPage Fld.sysBootStage))
    else n.answer slot badArgument)

def execSystemStatus (slot : Fin 4) (job : Nat) (s : State) : Host.Outcome State Fault Refusal :=
  s.hub (fun n => systemStatus n slot job)

/-- MANAGEMENT_CORES_STOP (R25). -/
def execManagementCoresStop (s : State) : Host.Outcome State Fault Refusal :=
  s.hub (fun n => { n with mgmt := { running := false } })

/-- MANAGEMENT_CORES_RESUME (R25, R183): the cores run again, and rewrite the words that were poisoned meanwhile. They run
only where an image does (R370). -/
def managementResume (n : Node) : Node :=
  if n.imageRuns.isNone then n
  else
    let n := { n with mgmt := { running := true } }
    allCores.foldl (fun m c =>
      let m := (m.reed c).poisonedData.foldl (fun m a => m.locStore c a 0) m
      (m.reed c).poisonedProg.foldl (fun m a => m.progRewrite c a) m) n

def execManagementCoresResume (s : State) : Host.Outcome State Fault Refusal := s.hub managementResume

/-- PCIE_LINK_UP (R359): the link has trained at Gen1 to Gen3, x1 or x2. -/
def pcieLinkUp (n : Node) (gen : Fin 4) (width : Fin 3) : Node :=
  if gen = 0 ∨ width = 0 ∨ !n.outOfReset then n
  else (n.setReg Node.pciPage 0x040 (BitVec.ofNat 32 (width.val * 8 + gen.val * 2 + 1))).irq Node.pciPage 0

def execPcieLinkUp (gen : Fin 4) (width : Fin 3) (s : State) : Host.Outcome State Fault Refusal :=
  s.hub (fun n => pcieLinkUp n gen width)

/-- PCIE_HOT_RESET (R359): the endpoint's configuration space is reset, and the link is down until it has trained again
(DEDUCED, notes/assumptions/138.md). -/
def pcieHotReset (n : Node) : Node :=
  if n.flag Node.pciPage Fld.pciStatLink then (n.setReg Node.pciPage 0x040 0).irq Node.pciPage 0 else n

def execPcieHotReset (s : State) : Host.Outcome State Fault Refusal := s.hub pcieHotReset

end Sys2Proof.Machine
end

