-- ==== Sys2Proof/Machine/Bus.lean ====
section
/-! DEFINITION. What the registers read as: the header (R31), registers that show one object at a time, views of state held
elsewhere, FREEZE (R31, R32), and a register read with its side effects. -/

namespace Sys2Proof.Machine

open Sys2Proof (Word Byte Sparse Page Block Die Port Src CoreId)

/-! Registers that show one object at a time. -/

/-- Offset of a block's select register. -/
def selectReg : Block → Option Nat
  | .cas => some 0x06C | .xpt => some 0x054 | .sht => some 0x048 | .bqd => some 0x040 | .fir => some 0x040 | .dly => some 0x040
  | .rcx => some 0x044 | .str => some 0x040 | .slu => some 0x040 | .ref => some 0x06C | .aes => some 0x054 | .dec => some 0x040
  | .sns => some 0x040 | .rail => some 0x040 | .flt => some 0x058
  | _ => none

/-- Registers of state that follow the select register. -/
def selected (b : Block) (off : Nat) : Bool :=
  match b with
  | .cas => decide (off = 0x070)
  | .xpt => decide (0x058 ≤ off ∧ off ≤ 0x064)
  | .sht => decide (0x05C ≤ off ∧ off ≤ 0x068)
  | .bqd => decide (0x064 ≤ off ∧ off ≤ 0x074 ∧ off ≠ 0x068)
  | .fir => decide (0x04C ≤ off ∧ off ≤ 0x058)
  | .dly => decide (0x044 ≤ off ∧ off ≤ 0x050)
  | .rcx => decide (0x048 ≤ off ∧ off ≤ 0x058)
  | .str => decide (0x044 ≤ off ∧ off ≤ 0x058)
  | .slu => decide (0x044 ≤ off ∧ off ≤ 0x06C)
  | .ref => decide (0x084 ≤ off ∧ off ≤ 0x094)
  | .aes => decide (0x058 ≤ off ∧ off ≤ 0x06C)
  | .dec => decide (off = 0x048 ∨ off = 0x04C)
  | .sns => decide (0x044 ≤ off ∧ off ≤ 0x068)
  | .rail => decide (off = 0x048)
  | .flt => decide (0x060 ≤ off ∧ off ≤ 0x07C)
  | _ => false

/-- Most registers are stored once for the page; those that lists below name are stored once per object. BQD.LIM is a meter of
output strips alone (R144). -/
def Node.storeIndex (n : Node) (p : Page) (off : Nat) : Nat :=
  match p.block with
  | .str => if off = 0x054 ∨ off = 0x058 then n.fld p Fld.strSelStream else 0
  | .slu => if 0x058 ≤ off ∧ off ≤ 0x06C then n.fld p Fld.sluSelStream else 0
  | .bqd => if off = 0x074 then n.fld p Fld.bqdSelIndex + (if n.fld p Fld.bqdSelKind = 2 then 0 else 4096) else 0
  | .rcx => if off = 0x050 ∨ off = 0x054 ∨ off = 0x058 then n.fld p Fld.rcxSelSlot else 0
  | .ref => if 0x070 ≤ off ∧ off ≤ 0x080 then n.fld p Fld.refSelSlot else 0
  | .dec => if off = 0x044 ∨ off = 0x048 then n.fld p Fld.decSelChannel else 0
  | .sns => if off = 0x044 ∨ off = 0x068 then n.fld p Fld.snsSelChannel else 0
  | .rail => if off = 0x044 ∨ off = 0x048 then n.fld p Fld.railSelGroup else 0
  | .pci => if off = 0x048 then n.fld p Fld.pciVecSelRegion * 256 + n.fld p Fld.pciVecSelPage else 0
  | _ => 0

/-- Where one field is stored: RCX.PCNT.REPCLAMP counts for the whole core. -/
def Node.fieldIndex (n : Node) (p : Page) (f : Field) : Nat :=
  if p.block = .rcx ∧ f = Fld.rcxPcntRepclamp then 255 else n.storeIndex p f.off

/-- Rows of a block's register at an offset (DEDUCED, notes/assumptions/33.md). -/
def regRow (b : Block) (off : Nat) : Option RegRow := (Reg.rowsOf b).find? (fun r => decide (r.off = off))

/-- Buffers of a page that hold words without fields: the mailbox buffers (R45) and QSP.BUF. -/
def bufferAt (b : Block) (off : Nat) : Bool :=
  decide ((b = .mgt ∧ 0x100 ≤ off ∧ off < 0x900) ∨ (b = .qsp ∧ 0x100 ≤ off ∧ off < 0x200))

/-- The core whose page it is. -/
def coreOf (p : Page) : CoreId := ⟨Fin.ofNat 6 (p.inst / 4), Fin.ofNat 4 p.inst⟩

namespace Node

/-- The word of RCX.MEMDATA (RCX.MEMSEL); a word that is uncorrectable reads as a free value. -/
def memData (n : Node) (p : Page) : Word × Node :=
  let c := coreOf p
  let a := n.fld p Fld.rcxMemselAddr
  if n.flag p Fld.rcxMemselProg then
    if (n.reed c).poisonedProg.contains (a % 16384) then n.fresh else (n.progRead c a, n)
  else if (n.reed c).poisonedData.contains a then n.fresh else (n.locRead c a, n)

/-- Words of the header (R31). PG_STAT.BLOCK_STAT has no meaning in any chapter and reads 0
(DESIGN CHOICE, notes/assumptions/23.md). -/
def headerWord (n : Node) (p : Page) (off : Nat) : Word :=
  let h := n.hdr p
  let bit := fun (b : Bool) (k : Nat) => if b then 2 ^ k else 0
  match off with
  | 0x000 => BitVec.ofNat 32 (blockType p.block * 2 ^ 20 + pageInstance p * 2 ^ 12 + 0x100)
  | 0x004 =>
    let fs := (Reg.rowsOf p.block).flatMap (·.fields)
    BitVec.ofNat 32 ((Config.blockCap p.block).toNat * 2 ^ 16 + blockIrqs p.block * 2 ^ 8 + bit (fs.any (·.keyed)) 2
      + bit (fs.any (fun f => decide (f.access = .sh))) 1 + 1)
  | 0x00C =>
    let retired := match p.block with
      | .rcx => (n.reed (coreOf p)).retired
      | .mac => (n.mac p.inst).retired
      | _ => false
    BitVec.ofNat 32 (bit h.frozen.isSome 7 + bit h.keyHolder.isSome 6 + bit (n.commitWaits p) 5 + bit (n.shadowDirty p) 4
      + bit (retired || (n.pageFaults p).any (fun r => decide (2 ≤ r.cls))) 3 + bit h.pending 2 + bit (h.busy || h.resetting) 1
      + bit h.active 0)
  | 0x018 => 0
  | 0x01C => n.fltcapWord p
  | 0x028 =>
    let holder := match h.keyHolder with | some q => q.code * 2 ^ 9 + 2 ^ 8 | none => 0
    BitVec.ofNat 32 (n.fld p Fld.pgKeyDrops * 2 ^ 16 + holder)
  | _ => n.reg p off

/-- RCX registers that show a core's state: STAT, PDESC0, PDESC1, PCNT and IRQ_STAT. -/
def rcxView (n : Node) (p : Page) (off : Nat) : Word :=
  let c := coreOf p
  let r := n.reed c
  let stored := n.reg p off (n.storeIndex p off)
  let slot := n.fld p Fld.rcxSelSlot
  match off with
  | 0x040 =>
    let state := if r.stall.isSome then 3 else match r.mode with | .idle => 0 | .handler => 2 | _ => 1
    let run := ((List.range 8).map (fun k => if n.slotRunnable c k then 2 ^ k else 0)).sum
    BitVec.ofNat 32 (run * 2 ^ 24 + r.stopped.toNat * 2 ^ 16 + (if r.retired then 2 ^ 15 else 0) + r.slot % 8 * 2 ^ 8 + state)
  | 0x048 => match n.reedCfg c slot with
    | some g => BitVec.ofNat 32 (2 ^ 31 + (if g.hook then 2 ^ 30 else 0) + g.budget % 2 ^ 18)
    | none => 0
  | 0x04C => match n.reedCfg c slot with
    | some g => BitVec.ofNat 32 (g.nout % 128 * 2 ^ 24 + g.nin % 128 * 2 ^ 16 + g.entry % 2 ^ 14)
    | none => 0
  | 0x058 => setWordField stored Fld.rcxPcntRepclamp (n.fld p Fld.rcxPcntRepclamp 255)
  | 0x06C => setWordField stored Fld.rcxIrqStatPend r.ipend.toNat
  | _ => stored

/-- I2C.STAT. -/
def i2cView (n : Node) : Word :=
  let busy := n.flag i2cPage Fld.i2cCfgAttnEn && decide (n.i2c.pend ≠ 0) && !n.i2c.given
  BitVec.ofNat 32 ((if n.i2c.stuck then 2 ^ 13 else 0) + (if busy then 2 ^ 12 else 0) + n.i2c.pend.toNat * 2 ^ 8
    + (match n.i2c.straps with | some b => if addrReserved b then 2 ^ 7 else 0 | none => 0) + n.nodeAddr % 128)

/-- RD0 to RD3 of the selected Shutter at the end of the last casement (R109). -/
def shutDesc (n : Node) : List Word :=
  shutWords n.selShutter (Sparse.get (fun _ => {}) n.sht.ended (shutKey n.selShutter))

/-- SHT registers that show state: STAT, QSTAT and RD0 (R106, R108, R109). -/
def shtView (n : Node) (p : Page) (off : Nat) : Word :=
  match off with
  | 0x044 =>
    let faded := (n.sht.bundles.filter (fun e => e.2.faded || e.2.restoring)).length
    BitVec.ofNat 32 (Nat.min faded 255 * 2 ^ 16 + (if n.sht.mutePin then 2 else 0) + (if n.muted then 1 else 0))
  | 0x058 => setWordField (n.reg p off) Fld.shtQstatQueued n.sht.queue.length
  | 0x05C => n.shutDesc.getD 0 0
  | _ => n.reg p off

/-- A block-specific register as it reads while FREEZE is 0. -/
def blockWord (n : Node) (p : Page) (off : Nat) : Word :=
  let k := p.inst
  let stored := n.reg p off (n.storeIndex p off)
  match p.block with
  | .cas => if off = 0x04C then BitVec.ofNat 32 n.clk.index else if off = 0x070 then n.latVal else stored
  | .xpt => n.xptView off
  | .sht => n.shtView p off
  | .pen => if off = 0x040 ∨ off = 0x044 then n.penView k off else stored
  | .fen => if off = 0x048 ∨ off = 0x04C then n.fenView k off else stored
  | .lnk => if off = 0x040 ∨ off = 0x04C ∨ off = 0x050 then n.lnkView k off else stored
  | .bqd => if off = 0x064 ∨ off = 0x06C ∨ off = 0x070 then n.bqdView k off else stored
  | .fir => if 0x04C ≤ off ∧ off ≤ 0x05C then n.firView k off else stored
  | .dly => if (0x044 ≤ off ∧ off ≤ 0x050) ∨ off = 0x05C ∨ off = 0x060 then n.dlyView k off else stored
  | .rcx => n.rcxView p off
  | .str => (n.strView off).getD stored
  | .slu => (n.sluView off).getD stored
  | .mac => (n.macView k off).getD stored
  | .phc => (n.phcView off).getD stored
  | .ref => (n.refView off (n.fld p Fld.refSelSlot)).getD stored
  | .dpl => (n.dplView k off).getD stored
  | .aes => if 0x058 ≤ off ∧ off ≤ 0x06C then n.aesView k off else stored
  | .dec => if off = 0x04C then n.decDelayView else stored
  | .mod => (n.modView k off).getD stored
  | .sns =>
    if 0x048 ≤ off ∧ off ≤ 0x064 then n.drive.idLatch.getD ((off - 0x048) / 4) 0
    else if off = 0x06C then n.snsLinkView else stored
  | .rail => (n.railView off (n.fld p Fld.railSelGroup)).getD stored
  | .drm => (n.drmView off).getD stored
  | .flt => (n.fltView off).getD stored
  | .sil => (n.silView off).getD stored
  | .hng => (n.hngView off).getD stored
  | .i2c => if off = 0x044 then n.i2cView else stored
  | _ => stored

/-- A register as it reads while FREEZE is 0; an offset that holds none reads 0 (R30) (DEDUCED, notes/assumptions/17.md). -/
def liveWord (n : Node) (p : Page) (off : Nat) : Word :=
  if off < 0x040 then (if off ≤ 0x028 then n.headerWord p off else 0)
  else if (regRow p.block off).isSome || bufferAt p.block off then n.blockWord p off
  else 0

/-- A read that latches other registers of its page (R49, R93, R109, R204, R219, R227, R236, R260, R284, R321); the counters of a
MAC latch when they are cleared. -/
def latch (n : Node) (p : Page) (off : Nat) : Node :=
  match p.block, off with
  | .cas, 0x04C => n.setReg p 0x050 (BitVec.ofNat 32 (n.clk.index / 2 ^ 32))
  | .xpt, 0x058 => n.latchObj
  | .sht, 0x05C => n.setRegs p 0x060 (n.shutDesc.drop 1)
  | .str, 0x044 => n.latchStrDesc
  | .slu, 0x044 => n.latchSluDesc
  | .phc, 0x044 => n.latchTime
  | .ref, 0x084 => n.latchSlot
  | .aes, 0x058 => n.latchAesCap p.inst
  | .flt, 0x060 => n.latchRecord
  | .sns, 0x044 =>
    let c := n.fld p Fld.snsSelChannel
    let ws := (List.range 8).map (fun j => n.reg p (0x048 + 4 * j) c)
    { n with drive := { n.drive with idLatch := ws } }
  | _, _ => n

/-! FREEZE (R31, R32). -/

/-- Fields of a register that FREEZE holds: RO and RC fields of the block, and the header's RC fields. -/
def heldFields (b : Block) (off : Nat) : List (Field × Bool) :=
  if off = 0x020 then [(Fld.pgFltcntContained, true), (Fld.pgFltcntCorrected, true)]
  else if off = 0x028 then [(Fld.pgKeyDrops, true)]
  else match regRow b off with
    | none => []
    | some r => r.fields.filterMap (fun f => match f.access with
        | .ro => some (f.field, false)
        | .rc => some (f.field, true)
        | _ => none)

/-- The object that a register shows, as the word of the select register; 0 where it shows none. -/
def selWord (n : Node) (p : Page) (off : Nat) : Nat :=
  if selected p.block off then
    match selectReg p.block with
    | some r => if p.block = .bqd then (n.reg p r).toNat / 2 ^ 16 * 2 ^ 16 else (n.reg p r).toNat
    | none => 0
  else 0

/-- Key of a captured word. -/
def capKey (n : Node) (p : Page) (off : Nat) : Nat := off + 4096 * n.selWord p off

/-- Every object that a page can show, as words of its select register. -/
def objects (n : Node) (p : Page) : List Nat :=
  let cfg := n.rt.cfg
  match p.block with
  | .cas => cfg.sinks.flatMap (fun k => cfg.sources.map (fun (r : Sys2Proof.SourceCfg) =>
      k.id.kind % 8 * 2 ^ 29 + k.id.num % 8192 * 2 ^ 16 + r.num % 4096))
  | .xpt =>
    cfg.sources.map (fun (r : Sys2Proof.SourceCfg) => r.num % 8192)
      ++ cfg.buses.map (fun (r : Sys2Proof.BusCfg) => 2 ^ 28 + r.num % 8192)
      ++ cfg.strips.map (fun (r : Sys2Proof.StripCfg) => 2 * 2 ^ 28 + r.num % 8192)
      ++ cfg.sinks.map (fun (r : Sys2Proof.SinkCfg) => 3 * 2 ^ 28 + r.id.kind % 8 * 2 ^ 25 + r.id.num % 8192)
      ++ cfg.bundles.map (fun (r : Sys2Proof.BundleCfg) => 4 * 2 ^ 28 + r.num % 8192)
  | .sht => n.sht.ended.map (fun e =>
      let kind := e.1 / 2 ^ 17
      kind % 16 * 2 ^ 28 + (if kind = 4 then e.1 / 2 ^ 14 % 8 * 2 ^ 25 else 0) + e.1 % 2 ^ 14)
  | .bqd => (n.dieStrips p.inst).map (fun e => (e.1 - 1) % 4 * 2 ^ 30 + e.2 % 4096 * 2 ^ 16)
  | .fir => ((n.dieStrips p.inst).filter (fun e => decide (e.1 = 3))).map (fun e => e.2 % 1024)
  | .dly => (n.dieStrips p.inst).filterMap (fun e =>
      if e.1 = 1 then some (e.2 % 4096) else if e.1 = 3 then some (2 ^ 30 + e.2 % 4096) else none)
  | .rcx => List.range 8
  | .str => cfg.tx.map (fun (r : Sys2Proof.TxStreamCfg) => r.num % 256)
  | .slu => cfg.rx.map (fun (r : Sys2Proof.RxStreamCfg) => r.num % 512)
  | .ref => List.range 16
  | .aes => List.range 4
  | .dec => List.range 64
  | .sns => List.range 192
  | .rail => List.range 48
  | .flt => n.flt.ring.map (fun r => r.seq)
  | _ => []

/-- Offsets of the registers that FREEZE holds. -/
def heldOffs (b : Block) : List Nat :=
  [0x020, 0x028] ++ ((Reg.rowsOf b).map (·.off)).filter (fun o => !(heldFields b o).isEmpty)

/-- The capture of a page: each held register with the values of the moment, registers that another read latches included,
for every object. -/
def capture (n : Node) (p : Page) : List (Nat × Word) :=
  let offs := heldOffs p.block
  let latched := fun (m : Node) =>
    let m := offs.foldl (fun (m : Node) o => m.latch p o) m
    if p.block = .mac then
      (List.range 16).foldl (fun (m : Node) c => m.setReg p (0x104 + 8 * c) (BitVec.ofNat 32 (m.macCounter p.inst c / 2 ^ 32))) m
    else m
  let words := fun (m : Node) (os : List Nat) => os.map (fun o => (m.capKey p o, m.liveWord p o))
  let fixed := words (latched n) (offs.filter (fun o => !selected p.block o))
  match selectReg p.block with
  | none => fixed
  | some r =>
    let objs := ((n.reg p r).toNat :: n.objects p).eraseDups
    fixed ++ objs.flatMap (fun w => words (latched (n.setReg p r (BitVec.ofNat 32 w))) (offs.filter (fun o => selected p.block o)))

/-- FREEZE is written (DEDUCED, notes/assumptions/22.md). -/
def setFreeze (n : Node) (p : Page) (on : Bool) : Node :=
  let n := n.setFld p Fld.pgCtrlFreeze (if on then 1 else 0)
  if !on then n.modHdr p (fun h => { h with frozen := none, consumed := [] })
  else if (n.hdr p).frozen.isSome then n
  else
    let cap := n.capture p
    n.modHdr p (fun h => { h with frozen := some cap, consumed := [] })

/-- RC fields that keep a largest or smallest value, not a count. -/
def keepsPeak (b : Block) (f : Field) : Bool :=
  match b with
  | .cas => decide (f = Fld.casLoadReservePeak ∨ f = Fld.casLoadEngPeak)
  | .lnk => decide (f.off = 0x054)
  | .bqd => decide (f = Fld.bqdLimGrPeak)
  | .rcx => decide (f = Fld.rcxPcycPeakCycles ∨ f = Fld.rcxIrqStatHoldoffPeak)
  | .str => decide (f = Fld.strLaunchPeak)
  | .slu => decide (f = Fld.sluMarginMinUs)
  | .sns => decide (f.off = 0x068)
  | .rail => decide (f = Fld.railStatPeak)
  | .drm => decide (f = Fld.drmRefstatPeak)
  | _ => false

/-- Reading clears a field: it takes its reset value (R9, SLU.MARGIN). -/
def clearField (n : Node) (p : Page) (f : Field) : Node :=
  n.setFld p f (wordField (resetWord p f.off 0) f) (n.fieldIndex p f)

/-- A captured value of a field is subtracted from the count within (R32); a largest value goes with it unless a new one has
come. -/
def subtractField (n : Node) (p : Page) (f : Field) (v : Nat) : Node :=
  let idx := n.fieldIndex p f
  let now := n.fld p f idx
  if keepsPeak p.block f then (if now = v then n.clearField p f else n)
  else n.setFld p f (now - v) idx

/-- Under which key a field's one read is noted while FREEZE is 1 (R32): RCX.PCNT.REPCLAMP is one field for the whole core,
whichever slot is selected. -/
def useKey (n : Node) (p : Page) (off : Nat) (f : Field) : Nat :=
  if p.block = .rcx ∧ f = Fld.rcxPcntRepclamp then off else n.capKey p off

/-- A MAC counter's number, at its LO register. -/
def counterAt (p : Page) (off : Nat) : Option Nat :=
  if p.block = .mac ∧ 0x100 ≤ off ∧ off < 0x180 ∧ off % 8 = 0 then some ((off - 0x100) / 8) else none

/-- A word of a capture. -/
def capWord (cap : List (Nat × Word)) (key : Nat) (other : Word) : Word :=
  match cap.find? (fun e => decide (e.1 = key)) with
  | some e => e.2
  | none => other

/-- The word that a frozen page shows: the held fields as captured, RC fields once (R32). -/
def frozenWord (n : Node) (p : Page) (off : Nat) (cap : List (Nat × Word)) (used : List (Nat × Nat)) : Word :=
  let key := n.capKey p off
  let w := capWord cap key (resetWord p off 0)
  (heldFields p.block off).foldl (fun v f =>
    setWordField v f.1 (if f.2 && used.contains (n.useKey p off f.1, f.1.lo) then 0 else wordField w f.1)) (n.liveWord p off)

/-- RC fields of a register that is read on a frozen page are consumed, and subtracted within. -/
def consume (n : Node) (p : Page) (off : Nat) (cap : List (Nat × Word)) (used : List (Nat × Nat)) : Node :=
  let key := n.capKey p off
  let w := capWord cap key (resetWord p off 0)
  let fs : List Field := ((heldFields p.block off).filter (fun f => f.2 && !used.contains (n.useKey p off f.1, f.1.lo))).map (·.1)
  let n := match counterAt p off with
    | some c =>
      let hi := capWord cap (off + 4) 0
      if fs.isEmpty then n
      else
        let left := n.macCounter p.inst c - (hi.toNat * 2 ^ 32 + w.toNat)
        (n.setReg p (off + 4) hi).modMac p.inst (fun m => { m with counters := Sparse.set (fun _ => 0) m.counters c left })
    | none => fs.foldl (fun (m : Node) f => m.subtractField p f (wordField w f)) n
  n.modHdr p (fun h => { h with consumed := h.consumed ++ fs.map (fun f => (n.useKey p off f, f.lo)) })

/-- RC fields of a register that is read are cleared (R9, R219) (DEDUCED, notes/assumptions/16.md). -/
def clearRead (n : Node) (p : Page) (off : Nat) : Node :=
  match counterAt p off with
  | some c => n.clearCounter p.inst c
  | none => ((heldFields p.block off).filter (·.2)).foldl (fun (m : Node) f => m.clearField p f.1) n

/-- Read a register (R9, R30 to R32): of any size, the containing word. A page of an absent die, or none, is a decode error
(R4, R27). -/
def regRead (n : Node) (src : Src) (p : Page) (off : Nat) : Node :=
  if !pageValid p || !n.pagePresent p then n.decodeError src (pageAddr p + off)
  else
    let off := off / 4 * 4
    if 4096 ≤ off then n.respond true 0
    else if p.block = .rcx ∧ off = 0x0B8 then
      let (w, n) := n.memData p
      (n.setFld p Fld.rcxMemselAddr (n.fld p Fld.rcxMemselAddr + 1)).respond true w
    else
      let h := n.hdr p
      match h.frozen with
      | some cap => (n.consume p off cap h.consumed).respond true (n.frozenWord p off cap h.consumed)
      | none => ((n.latch p off).clearRead p off).respond true (n.liveWord p off)

end Node

end Sys2Proof.Machine
end

