-- ==== Sys2Proof/Machine/BusWrite.lean ====
section
/-! DEFINITION. Register writes by access type (R9) with the actions that they carry, and reads and writes of the memory
regions (R26, R30, R399). -/

namespace Sys2Proof.Machine

open Sys2Proof (Word Byte Sparse Page Block Die Port Src CoreId RefMeas)

/-- The fields of a register that writes of this page reach (DEDUCED, notes/assumptions/26.md). -/
def writable (p : Page) (r : RegRow) : List FieldRow :=
  r.fields.filter (fun f => f.only.isEmpty || f.only.contains p.inst)

/-- Structural fields of the AES, TDM and DEC pages (R255). -/
def structural (b : Block) (f : Field) : Bool :=
  match b with
  | .aes => decide (f = Fld.aesCfgRxOn ∨ f = Fld.aesCfgTxOn ∨ f = Fld.aesCfgRxSync ∨ f = Fld.aesCfgTxDiv)
  | .tdm => decide (f.off = 0x040)
  | .dec => decide (f.off = 0x044)
  | _ => false

/-- The MASKED count of a page with structural fields (DEDUCED, notes/assumptions/25.md). -/
def maskedCount (b : Block) : Field :=
  match b with
  | .tdm => Fld.tdmErrMasked
  | .dec => Fld.decErrMasked
  | _ => Fld.aesErrMasked

namespace Node

/-- A write would change a keyed field, or triggers one (R9). -/
def keyedChange (n : Node) (p : Page) (r : RegRow) (v : Word) : Bool :=
  (writable p r).any (fun f => f.keyed && decide
    (if f.access = .w1t then wordField v f.field ≠ 0 else wordField v f.field ≠ n.fld p f.field (n.fieldIndex p f.field)))

/-- A register is written, field by field (R9): a keyed field without the key is discarded, with one drop counted; a
structural field from a masked port likewise (R255). -/
def writeRow (n : Node) (src : Src) (p : Page) (r : RegRow) (v : Word) : Node :=
  let keyed := n.keyOpenFor p src.port
  let n := if !keyed && n.keyedChange p r v then n.bump p Fld.pgKeyDrops else n
  let fs := (writable p r).filter (fun f => keyed || !f.keyed)
  let cut := maskedPort src.port && fs.any (fun f => structural p.block f.field)
  let n := if cut then n.bump p (maskedCount p.block) else n
  let fs := if cut then fs.filter (fun f => !structural p.block f.field) else fs
  let idx := n.storeIndex p r.off
  let n := fs.foldl (fun (m : Node) f =>
    let x := wordField v f.field
    match f.access with
    | .rw => m.setFld p f.field x idx
    | .w1c => m.setFld p f.field (m.fld p f.field idx - (m.fld p f.field idx &&& x)) idx
    | _ => m) n
  n.writeShadows p ((fs.filter (fun f => decide (f.access = .sh))).map (fun f => (f.field, wordField v f.field))) idx

/-- A register whose write does nothing beside its fields; an offset that holds none ignores writes (R30). -/
def plainWrite (n : Node) (src : Src) (p : Page) (off : Nat) (v : Word) : Node :=
  match regRow p.block off with
  | some r => n.writeRow src p r v
  | none => if p.block = .qsp ∧ bufferAt .qsp off then n.setReg p off v else n

/-- A keyed trigger bit that is written as 1 under the key. -/
def keyedBit (n : Node) (src : Src) (p : Page) (v : Word) (k : Nat) : Bool := n.keyOpenFor p src.port && v.getLsbD k

/-- A mailbox buffer is written (R45): a request buffer by its owner while the slot is not BUSY, a response buffer by the
management cores while the request is in service, a later response being discarded (R47)
(DEDUCED, notes/assumptions/29.md). -/
def bufferWrite (n : Node) (src : Src) (off : Nat) (v : Word) : Node :=
  let slot := (off - 0x100) / 0x200
  if (off - 0x100) % 0x200 < 0x100 then
    if ownsSlot src slot && !n.slotBusy slot then n.setReg mgtPage off v else n.bump mgtPage Fld.mgtMbxStatDrops
  else if src.port = .core ∧ src.master < 4 ∧ n.slotBusy slot then n.setReg mgtPage off v
  else n

/-- PEN.STEST.RUN (R116): engines run their golden vectors in their next self-test slice. -/
def askEngines (n : Node) (d : Nat) (bits : Nat) : Node :=
  ((List.range 9).filter (fun k => bits.testBit k)).foldl (fun (m : Node) k =>
    if (m.engine d k).state = .retired then m else m.modEngine d k (fun e => { e with testAsked := true })) n

/-- PEN.INJECT.ARM (R115): mismatches for the selected engine's next item, as COUNT gives. -/
def armInject (n : Node) (d : Nat) : Node :=
  let k := n.fld (penPage d) Fld.penInjectEngine
  let c := n.fld (penPage d) Fld.penInjectCount
  if (c = 1 ∨ c = 2) ∧ k < 9 then n.modEngine d k (fun e => { e with inject := c }) else n

/-- RCX.ACT.RESTART (R165): the count of a slot clears, and a STOPPED slot is entered from the next casement
(DEDUCED, notes/assumptions/21.md). -/
def restartSlots (n : Node) (c : CoreId) (slots : Nat) : Node :=
  ((List.range 8).filter (fun k => slots.testBit k)).foldl (fun (m : Node) k =>
    let m := m.setFld (rcxPage c) Fld.rcxPcntConsec 0 k
    if (m.reed c).stopped.getLsbD k then
      m.modReed c (fun r => { r with stopped := r.stopped &&& ~~~(1#8 <<< k), restarted := r.restarted ||| (1#8 <<< k) })
    else m) n

/-- RCX.MBX_CTL.DB (R175): the MBX interrupt, or a drop while FULL. -/
def ringCore (n : Node) (c : CoreId) : Node :=
  let p := rcxPage c
  if n.flag p Fld.rcxMbxCtlFull then n.bump p Fld.rcxMbxCtlDrops
  else (n.setFld p Fld.rcxMbxCtlFull 1).reedRaise c 1

/-- A write of RCX.MEMDATA: it takes effect at once, in program SRAM only under the key; the address increments
(DESIGN CHOICE, notes/assumptions/28.md). -/
def memDataWrite (n : Node) (src : Src) (p : Page) (v : Word) : Node :=
  let c := coreOf p
  let a := n.fld p Fld.rcxMemselAddr
  let n :=
    if n.flag p Fld.rcxMemselProg then
      if n.keyOpenFor p src.port then
        (n.progWrite c a v).modReed c (fun r => { r with poisonedProg := r.poisonedProg.filter (fun x => decide (x ≠ a % 16384)) })
      else if n.progRead c a = v then n else n.bump p Fld.pgKeyDrops
    else (n.locWrite c a v).modReed c (fun r => { r with poisonedData := r.poisonedData.filter (fun x => decide (x ≠ a)) })
  n.setFld p Fld.rcxMemselAddr (a + 1)

/-- The registers of RCX whose writes act. -/
def rcxWrite (n : Node) (src : Src) (p : Page) (off : Nat) (v : Word) : Node :=
  let c := coreOf p
  match off with
  | 0x074 =>
    let n := n.plainWrite src p off v
    if v.getLsbD 0 then n.ringCore c else n
  | 0x078 =>
    let n := n.restartSlots c (v.toNat / 256 % 256)
    if v.getLsbD 0 then n.modReed c (fun r => { r with stest := true }) else n
  | 0x080 | 0x084 | 0x088 | 0x08C =>
    if n.flag p Fld.rcxMbxCtlFull then n.bump p Fld.rcxMbxCtlDrops else n.plainWrite src p off v
  | 0x0B8 => n.memDataWrite src p v
  | _ => n.plainWrite src p off v

/-- PHC registers whose writes act (R223 to R225, R240): PERMIT arms before GO of the same write
(DEDUCED, notes/assumptions/27.md). -/
def phcWrite (n : Node) (src : Src) (p : Page) (off : Nat) (v : Word) : Node :=
  match off with
  | 0x040 =>
    let was := n.steering
    let n := n.plainWrite src p off v
    if n.steering = was then n else n.steerWritten
  | 0x054 => n.writeIncrFrac v
  | 0x058 => n.writeIncrNs v.toNat
  | 0x068 =>
    let arm := n.keyedBit src p v 1
    let n := n.plainWrite src p off v
    let n := if arm then n.stepPermit else n
    if v.getLsbD 0 then n.stepGo else n
  | _ => n.plainWrite src p off v

/-- A REF register is written (R235, R238, R239): CTRL re-evaluates the selection, and a slot's configuration restarts
the slot. -/
def refWrite (n : Node) (src : Src) (off : Nat) (v : Word) (meas : RefMeas) : Node :=
  n.refEvent (fun n =>
    let n := n.plainWrite src refPage off v
    if off = 0x040 then n.reselect meas
    else if 0x070 ≤ off ∧ off ≤ 0x080 then n.slotRestart (n.fld refPage Fld.refSelSlot) meas
    else n)

/-- A DPLL's CFG or PSL is written (R241, R245): a general DPLL meets the input that it now follows, and DP1 works off the rest of a
phase step at the new slope. -/
def dplWrite (n : Node) (src : Src) (p : Page) (off : Nat) (v : Word) : Node :=
  n.refEvent (fun n =>
    let was := (n.fld p Fld.dplCfgSlot, n.fld p Fld.dplCfgInput)
    let left := n.slewNow p.inst
    let n := n.plainWrite src p off v
    let at_ := n.clk.now
    let n := if off = 0x044 ∧ p.inst = 1 ∧ (n.dpll 1).state = .switching then
        (n.modDpll 1 (fun d => { d with slewLeft := left, slewAt := at_ })).steerDp1
      else n
    if 2 ≤ p.inst ∧ (n.fld p Fld.dplCfgSlot, n.fld p Fld.dplCfgInput) ≠ was then n.followInput p.inst else n)

/-- A channel's CHCTL is written (R288, R292, R294). -/
def chctlWrite (n : Node) (src : Src) (p : Page) (off : Nat) (v : Word) : Node :=
  let c := 8 * p.inst + (off - 0x040) / 0x20
  let n := n.plainWrite src p off v
  let n := if v.getLsbD 30 then clearChan n c else n
  if v.getLsbD 31 then enableChan n c else disableChan n c

/-- SIL.WDOG is written (R329): keyed, and ENABLE once 1 stays 1. -/
def silWdog (n : Node) (src : Src) (v : Word) : Node :=
  if n.keyOpenFor silPage src.port then n.wdogWrite v
  else if wordField v Fld.silWdogTimeoutMs ≠ n.fld silPage Fld.silWdogTimeoutMs
      ∨ (v.getLsbD 31 ∧ !n.flag silPage Fld.silWdogEnable) then n.bump silPage Fld.pgKeyDrops
  else n

/-- SIL registers whose writes act (R328, R329). -/
def silWrite (n : Node) (src : Src) (p : Page) (off : Nat) (v : Word) : Node :=
  match off with
  | 0x044 =>
    let m := n.plainWrite src p off v
    m.safeWrite (n.keyedBit src p v 0) (n.keyedBit src p v 1)
  | 0x048 => n.silWdog src v
  | 0x04C => if v.getLsbD 0 then n.kick src.port else n
  | _ => n.plainWrite src p off v

/-- DRM.CFG and DRM.XOR are held while DRM is Active or BUSY (R302). -/
def drmWrite (n : Node) (src : Src) (p : Page) (off : Nat) (v : Word) : Node :=
  if off ≤ 0x054 then
    if (n.hdr p).active || (n.hdr p).busy then n.setFld p Fld.drmStatCfgDrop 1 else n.plainWrite src p off v
  else if off = 0x080 then (if v.getLsbD 0 then n.trainStart else n)
  else n.plainWrite src p off v

/-- PCI.REARM (R362): a message is owed again for each vector written. -/
def rearm (n : Node) (v : Word) : Node := { n with pci := { n.pci with told := n.pci.told &&& ~~~v } }

/-- SYS.CTRL.REBOOT (R367): a hub reset, with which boot starts again. -/
def reboot (n : Node) : Node := (n.hubReset).setStage 1

/-- A block-specific register is written. -/
def blockWrite (n : Node) (src : Src) (p : Page) (off : Nat) (v : Word) : Node :=
  let k := p.inst
  match p.block with
  | .mtx => if off = 0x040 then (if v.getLsbD 0 then n.remap else n) else n.plainWrite src p off v
  | .mgt =>
    if off = 0x040 then doorbell n src (v.toNat % 16)
    else if bufferAt .mgt off then n.bufferWrite src off v
    else n.plainWrite src p off v
  | .cas =>
    let now := decide (off = 0x044) && n.keyedBit src p v 1
    let n := n.plainWrite src p off v
    if now then n.reindexTrigger else if off = 0x058 then n.limitAlign else n
  | .sht =>
    if off = 0x040 then n.writeMuteAll (v.getLsbD 0)
    else if off = 0x054 then (if v.getLsbD 0 then n.shtPush else n)
    else n.plainWrite src p off v
  | .pen =>
    if off = 0x058 then n.askEngines k v.toNat
    else
      let arm := decide (off = 0x05C) && n.keyedBit src p v 31
      let n := n.plainWrite src p off v
      if arm then n.armInject k else n
  | .bqd => if off = 0x05C then (n.bqdAct k v.toNat).rerunItems n k else n.plainWrite src p off v
  | .fir => if off = 0x044 then n.firAct k v.toNat else n.plainWrite src p off v
  | .rcx => n.rcxWrite src p off v
  | .mac =>
    if off = 0x040 then n.macCfgWrite k v
    else if off = 0x080 ∨ off = 0x084 ∨ off = 0x090 ∨ off = 0x094 then n.ringBaseWrite k off v
    else n.plainWrite src p off v
  | .phc => n.phcWrite src p off v
  | .ref =>
    let (meas, n) := n.freshMeas
    n.refWrite src off v meas
  | .dpl => n.dplWrite src p off v
  | .mod =>
    if off < 0x140 ∧ off % 0x20 = 0 then n.chctlWrite src p off v
    else if off < 0x140 ∧ off % 0x20 = 8 then (n.plainWrite src p off v).loopFollows (8 * p.inst + (off - 0x040) / 0x20)
    else n.plainWrite src p off v
  | .drm => n.drmWrite src p off v
  | .flt =>
    if off = 0x080 then n.ackWhere (fun r => decide (BitVec.ofNat 32 r.seq = v))
    else if off = 0x084 then (if v.getLsbD 0 then n.ackWhere (fun _ => true) else n)
    else n.plainWrite src p off v
  | .sil => n.silWrite src p off v
  | .hng => if off = 0x070 then (if v.getLsbD 0 then hngRenewWrite n src else n) else n.plainWrite src p off v
  | .pci =>
    if off = 0x050 then n.rearm v
    else if off = 0x054 then n.plainWrite src p off (v &&& 0xC0000000)
    else n.plainWrite src p off v
  | .qsp => if off = 0x040 then n.qspCommand src (v.toNat % 8) else n.plainWrite src p off v
  | .sys =>
    let go := decide (off = 0x040) && n.keyedBit src p v 0
    let n := n.plainWrite src p off v
    if go then n.reboot else n
  | _ => n.plainWrite src p off v

/-- PG_CTRL is written: SOFT_RESET alone, or its RW fields (R31, R33). -/
def ctrlWrite (n : Node) (p : Page) (v : Word) : Node :=
  if v.getLsbD 1 then n.resetPage p
  else
    let n := (n.setFld p Fld.pgCtrlCommitMode (wordField v Fld.pgCtrlCommitMode)).setFreeze p (v.getLsbD 2)
    if v.getLsbD 0 then n.enablePage p else n.disablePage p

/-- PG_IRQSET: bits below NIRQ are set in PG_IRQ (R31). -/
def irqSet (n : Node) (p : Page) (v : Word) : Node :=
  n.setReg p 0x010 (n.reg p 0x010 ||| (v &&& BitVec.ofNat 32 (2 ^ blockIrqs p.block - 1)))

/-- A header register is written (R31). -/
def headerWrite (n : Node) (p : Page) (off : Nat) (v : Word) : Node :=
  match off with
  | 0x008 => n.ctrlWrite p v
  | 0x010 => n.setReg p 0x010 (n.reg p 0x010 &&& ~~~v)
  | 0x014 => if blockIrqs p.block = 0 then n else n.setReg p 0x014 v
  | 0x018 => n.irqSet p v
  | 0x024 => if v.getLsbD 0 then (if p = casPage then n.requestGroup else n.requestCommit p) else n
  | _ => n

/-- A write of a register page is taken: the page exists, its die is usable, and no soft reset of it is in progress (R4,
R27, R34). The effect runs on the state in which a key sequence of the port has ended. -/
def pageWrite (n : Node) (src : Src) (p : Page) (off : Nat) (f : Node → Node) : Node :=
  if !pageValid p || !n.pagePresent p then n.decodeError src (pageAddr p + off)
  else if (n.hdr p).resetting then n.respond false
  else (f (n.keyTouched p src.port)).respond true

/-- Write a register (R9, R30, R34, R38): a write narrower than a word is discarded with an error response. -/
def regWrite (n : Node) (src : Src) (p : Page) (off : Nat) (v : Word) (bytes : Nat := 4) : Node :=
  if !pageValid p || !n.pagePresent p then n.decodeError src (pageAddr p + off)
  else if bytes < 4 ∨ off % 4 ≠ 0 then n.respond false
  else if off = 0x028 then
    if (n.hdr p).resetting then n.respond false else (n.keyCode p src.port (v.toNat % 256)).respond true
  else n.pageWrite src p off (fun n =>
    if off < 0x040 then n.headerWrite p off v else if off < 4096 then n.blockWrite src p off v else n)

/-! Memory regions. -/

/-- The 32-byte beats of `k` bytes at an address (R399): address and length of each. -/
def beats (a k : Nat) : List (Nat × Nat) :=
  (List.range ((a + k + 31) / 32 - a / 32)).map (fun j =>
    let lo := Nat.max a ((a / 32 + j) * 32)
    (lo, Nat.min (a + k) ((a / 32 + j) * 32 + 32) - lo))

/-- The 32-bit words that `k` bytes at an address touch. -/
def wordsOf (a k : Nat) : List Nat := (List.range ((a + k + 3) / 4 - a / 4)).map (fun j => (a / 4 + j) * 4)

/-- Byte of a list of bytes that lies at `a0`, for address `a`. -/
def byteAt (a0 : Nat) (bs : List Byte) (a : Nat) : Option Byte := if a0 ≤ a then bs[a - a0]? else none

/-- The word and byte-enable mask that bytes at `a0` give the 32-bit word at `a`. -/
def maskedWord (a0 : Nat) (bs : List Byte) (a : Nat) : Word × Word :=
  [0, 1, 2, 3].foldl (fun (e : Word × Word) j =>
    match byteAt a0 bs (a + j) with
    | some b => (e.1 ||| (b.setWidth 32 <<< (8 * j)), e.2 ||| (0xFF#32 <<< (8 * j)))
    | none => e) (0, 0)

/-- Note a response that another joins: the whole is normal only where both are. -/
def join (n : Node) (ok : Bool) : Node := n.respond (ok && n.rsp.ok)

/-- One beat of a write (R399): exactly the bytes enabled. A write that the crosspoint table refuses completes with an error
response (R77, R80). -/
def writeBeat (n : Node) (src : Src) (a : Nat) (bs : List Byte) : Node :=
  match n.decode a with
  | .work off => n.wrBytes (workBase + off) bs
  | .sluice off => n.sluiceWrite off bs
  | .xpt _ => (wordsOf a bs.length).foldl (fun (m : Node) w =>
      let e := maskedWord a bs w
      let r := m.xptWrite src.port w e.1 e.2
      r.1.join r.2) n
  | .fen d off => (n.fenWrite d off bs).rerunItems n d
  | .dram x => n.wrBytes x bs
  | .page p off => ((wordsOf off bs.length).foldl (fun (m : Node) w =>
      let e := maskedWord off bs w
      let ok := m.rsp.ok
      (m.regWrite src p w e.1 (if e.2 = 0xFFFFFFFF then 4 else 1)).join ok) n)
  | _ => n.join false

/-- Host address of an outbound access (R361) (DESIGN CHOICE, notes/assumptions/146.md). -/
def hostAddr (n : Node) (a : Nat) : Nat :=
  (n.reg pciPage 0x054).toNat + (n.reg pciPage 0x058).toNat * 2 ^ 32 + (a - 0x4000000000)

/-- PCIe inbound, bus matrix master 8, may not reach PCIe outbound (R44). -/
def hairpin (src : Src) : Bool := decide (src.port = .core ∧ src.master = 8)

/-- A hairpin is refused with an error response, and counted alone (R44). -/
def hairpinRefused (n : Node) : Node := (n.bump mtxPage Fld.mtxDecerrHairpin).respond false

/-- The first beat of an access that is a decode error counts for the whole access (R27). -/
def missedBeat (n : Node) (src : Src) (write : Bool) (before : Node) (bs : List (Nat × Nat)) : Node :=
  match bs.find? (fun b => before.undecoded write b.1) with
  | some b => n.countDecode (masterNum src) b.1
  | none => n

/-- A write by a port or a bus matrix master (R399). A write of a whole poisoned burst of DRAM clears its mark (R307). -/
def busWrite (n : Node) (src : Src) (a : Nat) (bs : List Byte) : Node :=
  let n := n.respond true
  let whole := fun (m : Node) =>
    ((beats a bs.length).foldl (fun (m : Node) b => m.writeBeat src b.1 ((bs.drop (b.1 - a)).take b.2)) m).missedBeat src true n
      (beats a bs.length)
  match n.decode a with
  | .outbound x => if hairpin src then n.hairpinRefused
      else { n with pci := { n.pci with outbound := some (n.hostAddr x, bs) } }
  | .dram x => (whole n).unpoison x bs.length
  | _ => whole n

/-- Free bytes, for a value that the spec leaves open (DESIGN CHOICE, notes/assumptions/32.md). -/
def freeBytes (n : Node) : Nat → List Byte × Node
  | 0 => ([], n)
  | k + 1 =>
    let (w, n) := n.fresh
    let (bs, n) := n.freeBytes k
    (w.setWidth 8 :: bs, n)

/-- One beat of a read: the bytes, and whether they meet poison. A read of the flash while a command runs is refused
(R364), and a poisoned DRAM burst gives 0 with an error response (R308). Bytes that nothing states, of uncorrectable words,
undefined flash and the host's memory, are free. -/
def readBeat (n : Node) (src : Src) (a k : Nat) : List Byte × Node :=
  let zeros := List.replicate k (0 : Byte)
  match n.decode a with
  | .rom off => ((List.range k).map (fun j => Config.bootRom (off + j)), n)
  | .work off => (n.rdBytes (workBase + off) k, n)
  | .sluice off =>
    if n.str.poisoned.any (fun w => decide (w < off + k ∧ off < w + 8)) then n.freeBytes k else (n.rdBytes (sluiceBase + off) k, n)
  | .xpt _ => (n.rdBytes a k, n)
  | .fen d off => if n.fenPoisoned d off k then n.freeBytes k else (n.rdBytes (fenAddr d off) k, n)
  | .flash off =>
    if n.flash.running.isSome then (zeros, (n.bump qspPage Fld.qspStatBusyrd).respond false)
    else if n.flashBroken off k then n.freeBytes k else (n.flashBytes off k, n)
  | .dram x =>
    if n.burstPoisoned x k then (zeros, (n.bump drmPage Fld.drmPoisonReads).respond false) else (n.rdBytes x k, n)
  | .outbound _ => n.freeBytes k
  | .page p off =>
    (wordsOf off k).foldl (fun (e : List Byte × Node) w =>
      let ok := e.2.rsp.ok
      let m := e.2.regRead src p w
      let bs := ((List.range 4).map (fun j => (m.rsp.data >>> (8 * j)).setWidth 8)).zip [w, w + 1, w + 2, w + 3]
      (e.1 ++ (bs.filter (fun b => decide (off ≤ b.2 ∧ b.2 < off + k))).map (·.1), m.join ok)) ([], n)
  | _ => (zeros, n.join false)

/-- A read by a port or a bus matrix master (R399). -/
def busRead (n : Node) (src : Src) (a k : Nat) : List Byte × Node :=
  match n.decode a with
  | .outbound _ => if hairpin src then (List.replicate k 0, n.hairpinRefused) else (n.respond true).freeBytes k
  | _ =>
    let r := (beats a k).foldl (fun (e : List Byte × Node) b =>
      let r := e.2.readBeat src b.1 b.2
      (e.1 ++ r.1, r.2)) ([], n.respond true)
    (r.1, r.2.missedBeat src false n (beats a k))

end Node

end Sys2Proof.Machine
end

