-- ==== Sys2Proof/Machine/Matrix.lean ====
section
/-! DEFINITION. The bus matrix (R41 to R44): ranks, round-robin arbitration, outstanding and held requests. -/

namespace Sys2Proof.Machine

open Sys2Proof (Word Byte Sparse Page Block Die Port Src MatrixReq)

/-- Rank of a master (R41). -/
def masterRank (m : Nat) : Nat := if m < 4 then 1 else if m = 7 ∨ m = 8 then 2 else 0

/-- A bridge: the Lintel bridges and PCIe (R44). -/
def isBridge (m : Nat) : Bool := decide (m = 8 ∨ (16 ≤ m ∧ m ≤ 29))

/-- Outstanding bridge-to-bridge requests. -/
def bridgeEdges (rs : List MatrixReq) : List (Nat × Nat) :=
  rs.filterMap (fun r => match r.bridge with
    | some b => if isBridge r.master then some (r.master, b) else none
    | none => none)

/-- Bridges to which a chain of at most `fuel` requests leads from those given. -/
def bridgeReach (es : List (Nat × Nat)) : Nat → List Nat → List Nat
  | 0, bs => bs
  | fuel + 1, bs => bridgeReach es fuel (bs ++ ((es.filter (fun e => bs.contains e.1 && !bs.contains e.2)).map (·.2)).eraseDups)

/-- The request would close a chain of bridge-to-bridge requests (R44). -/
def closesChain (out : List MatrixReq) (r : MatrixReq) : Bool :=
  match r.bridge with
  | some b => isBridge r.master && decide (b ≠ r.master) && (bridgeReach (bridgeEdges out) 15 [b]).contains r.master
  | none => false

/-- A request of the same master and ID waits, or is outstanding at another target (R43). -/
def sameId (out held : List MatrixReq) (r : MatrixReq) : Bool :=
  out.any (fun o => decide (o.master = r.master ∧ o.id = r.id ∧ o.target ≠ r.target))
    || held.any (fun o => decide (o.master = r.master ∧ o.id = r.id))

/-- The master already has 16 transactions outstanding (R42). -/
def full (out : List MatrixReq) (r : MatrixReq) : Bool := decide (16 ≤ (out.filter (fun o => decide (o.master = r.master))).length)

/-- Place of a master in the round-robin order after the one last granted (R41). -/
def turn (last m : Nat) : Nat := (m + 31 - last % 32) % 32

/-- `a` goes before `b` at their target. -/
def goesBefore (last : Nat) (a b : MatrixReq) : Bool :=
  decide (masterRank a.master < masterRank b.master
    ∨ (masterRank a.master = masterRank b.master ∧ turn last a.master < turn last b.master))

/-- The first of requests for one target. -/
def nextGrant (last : Nat) : MatrixReq → List MatrixReq → MatrixReq
  | r, [] => r
  | r, x :: xs => nextGrant last (if goesBefore last x r then x else r) xs

namespace Node

/-- The master last granted at a target. -/
def lastAt (n : Node) (t : Nat) : Nat := Sparse.get (fun _ => 31) n.mtx.last t

/-- A request is granted at a cycle: PCIe inbound to outbound is refused as a hairpin (R44), and any other is outstanding. -/
def grant (n : Node) (r : MatrixReq) (at_ : Nat) : Node :=
  if r.master = 8 ∧ r.outbound then n.hairpinRefused
  else { n with mtx := { n.mtx with
    outstanding := n.mtx.outstanding ++ [r], last := Sparse.set (fun _ => 31) n.mtx.last r.target r.master,
    order := n.mtx.order ++ [r.master], cycles := n.mtx.cycles ++ [at_] } }

/-- The requests of one target are granted, whose path is free from cycle `busy` on (R41): of those presented by then, the
first by rank and then in turn. A grant costs a cycle unless its master is the parked one, and its burst holds the path to
the last beat. -/
def grantTarget : Nat → Node → Nat → Nat → List MatrixReq → Node
  | 0, n, _, _, _ => n
  | fuel + 1, n, t, busy, rs =>
    let now := match rs with
      | [] => busy
      | r :: xs => Nat.max busy (xs.foldl (fun a x => Nat.min a x.arrive) r.arrive)
    match rs.filter (fun r => decide (r.arrive ≤ now)) with
    | [] => n
    | r :: xs =>
      let g := nextGrant (n.lastAt t) r xs
      let start := if g.master = n.lastAt t then now else now + 1
      grantTarget fuel (n.grant g start) t (if g.master = 8 ∧ g.outbound then start else start + g.beats) (rs.erase g)

/-- Each target arbitrates on its own. -/
def grantAll (n : Node) (rs : List MatrixReq) : Node :=
  ((rs.map (·.target)).eraseDups).foldl (fun m t =>
    grantTarget (rs.length + 1) m t 0 (rs.filter (fun r => decide (r.target = t)))) n

/-- A request at its master's interface: held with its count (R42 to R44), or passed on, ahead of those presented with it. -/
def present (n : Node) (ahead : List MatrixReq) (r : MatrixReq) : Node × Bool :=
  let out := n.mtx.outstanding ++ ahead
  let hold := fun (m : Node) => { m with mtx := { m.mtx with held := m.mtx.held ++ [r] } }
  if sameId out n.mtx.held r then (hold (n.bump mtxPage Fld.mtxHoldOrder), false)
  else if closesChain out r then (hold (n.bump mtxPage Fld.mtxHoldCycle), false)
  else if full out r then (hold n, false)
  else (n, true)

/-- Requests presented together. -/
def presentAll (n : Node) : List MatrixReq → List MatrixReq → Node × List MatrixReq
  | ahead, [] => (n, ahead)
  | ahead, r :: rs =>
    let e := n.present ahead r
    e.1.presentAll (if e.2 then ahead ++ [r] else ahead) rs

/-- The oldest outstanding transaction completes (DESIGN CHOICE, notes/assumptions/31.md). -/
def completeOldest (n : Node) : Node := { n with mtx := { n.mtx with outstanding := n.mtx.outstanding.drop 1 } }

end Node

/-- MATRIX_REQUEST (R41 to R44): requests presented from one cycle on, each at its own. -/
def matrixRequest (n : Node) (reqs : List MatrixReq) : Node :=
  let e := ({ n with mtx := { n.mtx with order := [], cycles := [] } }).presentAll [] reqs
  e.1.grantAll e.2

def execMatrixRequest (reqs : List MatrixReq) (s : State) : Host.Outcome State Fault Refusal :=
  s.hub (fun n => matrixRequest n reqs)

/-- HELD_REQUEST_RELEASE (R42 to R44): what held a request back has completed, and it is granted. A held request that an
earlier one of its master and ID precedes stays held. -/
def heldRequestRelease (n : Node) (master id target : Nat) : Node :=
  match n.mtx.held.find? (fun r => decide (r.master = master ∧ r.id = id)) with
  | none => n
  | some r =>
    if r.target ≠ target then n
    else
      let gone := fun (o : MatrixReq) => decide (o.master = r.master ∧ o.id = r.id ∧ o.target ≠ r.target)
        || (closesChain n.mtx.outstanding r && decide (some o.master = r.bridge) && o.bridge.isSome)
      let out := n.mtx.outstanding.filter (fun o => !gone o)
      let out := if full out r then (match out.find? (fun o => decide (o.master = r.master)) with | some o => out.erase o | none => out)
        else out
      ({ n with mtx := { n.mtx with outstanding := out, held := n.mtx.held.erase r, order := [], cycles := [] } }).grant r (if r.master = n.lastAt r.target then 0 else 1)

def execHeldRequestRelease (master : Nat) (id : Nat) (target : Nat) (s : State) : Host.Outcome State Fault Refusal :=
  s.hub (fun n => heldRequestRelease n master id target)

end Sys2Proof.Machine
end

