-- ==== Sys2Proof/Machine/BusCmds.lean ====
section
/-! DEFINITION. The commands that are accesses to registers and memory, each by the generic read and write of its register,
and the ends of shutdowns. -/

namespace Sys2Proof.Machine

open Sys2Proof (Word Byte Sparse Page Block Die Port Src CoreId Chan RefMeas PoisonReader PortWrite)

/-- Puts a write into a list of writes in the order of port codes, in which those of one hub cycle complete (R40, R81). -/
def inPortOrder {α : Type} (src : α → Src) (w : α) : List α → List α
  | [] => [w]
  | x :: xs => if (src w).port.code < (src x).port.code then w :: x :: xs else x :: inPortOrder src w xs

namespace Node

/-- Accesses of one hub cycle in the order of R40; the response shown is that of the access `own`. -/
def inCycle {α : Type} [DecidableEq α] (src : α → Src) (f : Node → α → Node) (own : α) (others : List α) (n : Node) : Node :=
  let all := others.foldl (fun ws w => inPortOrder src w ws) [own]
  let r := all.foldl (fun (e : Node × Rsp) w =>
    let m := f e.1 w
    (m, if w = own then m.rsp else e.2)) (n, n.rsp)
  { r.1 with rsp := r.2 }

/-- A register write as an access of one cycle. -/
def portWrite (p : Page) (n : Node) (w : PortWrite) : Node := n.regWrite w.src p w.off w.value w.bytes

end Node

/-- REGISTER_WRITE (R9), with the writes of other ports that reach the page in the same hub cycle (R40). -/
def registerWrite (n : Node) (src : Src) (p : Page) (off : Nat) (v : Word) (bytes : Nat) (others : List PortWrite) : Node :=
  n.inCycle PortWrite.src (Node.portWrite p) ⟨src, off, v, bytes⟩ others

def execRegisterWrite (src : Src) (page : Page) (off : Nat) (value : Word) (bytes : Nat) (others : List PortWrite) (s : State) :
    Host.Outcome State Fault Refusal :=
  s.hub (fun n => registerWrite n src page off value bytes others)

/-- RC_READ (R9, R32): it returns the state from before the writes of its cycle (R40). -/
def rcRead (n : Node) (src : Src) (p : Page) (off : Nat) (writes : List PortWrite) : Node :=
  let n := n.regRead src p off
  { (writes.foldl (fun ws w => inPortOrder PortWrite.src w ws) []).foldl (Node.portWrite p) n with rsp := n.rsp }

def execRcRead (src : Src) (page : Page) (off : Nat) (writes : List PortWrite) (s : State) : Host.Outcome State Fault Refusal :=
  s.hub (fun n => rcRead n src page off writes)

/-- MEMORY_WRITE (R399), with the writes that reach the region in the same hub cycle (R40, R81). -/
def memoryWrite (n : Node) (src : Src) (addr : Nat) (data : List Byte) (others : List (Src × Nat × List Byte)) : Node :=
  n.inCycle (fun (w : Src × Nat × List Byte) => w.1) (fun m w => m.busWrite w.1 w.2.1 w.2.2) (src, addr, data) others

def execMemoryWrite (src : Src) (addr : Nat) (data : List Byte) (others : List (Src × Nat × List Byte)) (s : State) :
    Host.Outcome State Fault Refusal :=
  s.hub (fun n => memoryWrite n src addr data others)

/-- The access at an address is a decode error of R27, or of R4 where `absent` asks for one
(DEDUCED, notes/assumptions/34.md). -/
def Node.erroneous (n : Node) (absent write : Bool) (a : Nat) : Bool :=
  match n.decode a with
  | .absent => absent
  | .none => !absent
  | .rom _ | .flash _ => !absent && write
  | _ => false

/-- DECODE_ERROR_ACCESS (R27). -/
def decodeErrorAccess (n : Node) (src : Src) (a : Nat) (write : Bool) : Node :=
  if n.erroneous false write a then n.decodeError src a else n

def execDecodeErrorAccess (src : Src) (addr : Nat) (write : Bool) (s : State) : Host.Outcome State Fault Refusal :=
  s.hub (fun n => decodeErrorAccess n src addr write)

/-- ABSENT_DIE_ACCESS (R4). -/
def absentDieAccess (n : Node) (src : Src) (a : Nat) (write : Bool) : Node :=
  if n.erroneous true write a then n.decodeError src a else n

def execAbsentDieAccess (src : Src) (addr : Nat) (write : Bool) (s : State) : Host.Outcome State Fault Refusal :=
  s.hub (fun n => absentDieAccess n src addr write)

/-- POISONED_BURST_READ (R308): by its master; the delay-line mover's strip is muted where it reads samples of the burst (R157) (DEDUCED, notes/assumptions/96.md). -/
def poisonedBurstRead (n : Node) (reader : PoisonReader) (a : Nat) : Node :=
  if !n.burstPoisoned a 1 then n
  else
    let n := n.bump drmPage Fld.drmPoisonReads
    match reader with
    | .streamEngine port => macBufferError n port true false
    | .delayMover strip => match n.stripOf strip with
      | some c => if c.dram then n.muteReads 3 c (n.burstReads c a) else n
      | none => n
    | .other => n.respond false 0

def execPoisonedBurstRead (reader : PoisonReader) (addr : Nat) (s : State) : Host.Outcome State Fault Refusal :=
  s.hub (fun n => poisonedBurstRead n reader addr)

/-- MTX_REMAP_WRITE (R28). -/
def execMtxRemapWrite (src : Src) (value : Bool) (s : State) : Host.Outcome State Fault Refusal :=
  s.hub (fun n => n.regWrite src mtxPage 0x040 (if value then 1 else 0))

/-! The header. -/

/-- PAGE_ENABLE and PAGE_DISABLE (R33): a write of PG_CTRL that changes ENABLE alone. -/
def execPageEnable (src : Src) (page : Page) (s : State) : Host.Outcome State Fault Refusal :=
  s.hub (fun n => n.pageWrite src page 0x008 (fun m => m.enablePage page))
def execPageDisable (src : Src) (page : Page) (s : State) : Host.Outcome State Fault Refusal :=
  s.hub (fun n => n.pageWrite src page 0x008 (fun m => m.disablePage page))

/-- SHUTDOWN_COMPLETE (R33): a block that has nothing left to run goes on from its shutdown. CAS completes by
CAS_GENERATION_STOP. -/
def shutdownComplete (n : Node) (p : Page) : Node :=
  if (n.hdr p).busy && decide (p ≠ Node.casPage) && n.stopped p then n.stopDone p else n

def execShutdownComplete (page : Page) (s : State) : Host.Outcome State Fault Refusal :=
  s.hub (fun n => shutdownComplete n page)

/-- SOFT_RESET (R33, R400). -/
def execSoftReset (src : Src) (page : Page) (s : State) : Host.Outcome State Fault Refusal :=
  s.hub (fun n => n.pageWrite src page 0x008 (fun m => m.resetPage page))

/-- PAGE_FREEZE (R31, R32). -/
def execPageFreeze (src : Src) (page : Page) (on : Bool) (s : State) : Host.Outcome State Fault Refusal :=
  s.hub (fun n => n.pageWrite src page 0x008 (fun m => m.setFreeze page on))

/-- IRQ_TEST_SET (R31). -/
def execIrqTestSet (src : Src) (page : Page) (bits : Word) (s : State) : Host.Outcome State Fault Refusal :=
  s.hub (fun n => n.regWrite src page 0x018 bits)

/-- MAILBOX_DOORBELL (R45, R47). -/
def execMailboxDoorbell (src : Src) (ring : BitVec 4) (s : State) : Host.Outcome State Fault Refusal :=
  s.hub (fun n => n.regWrite src mgtPage 0x040 (ring.setWidth 32))

/-! The casement, crosspoints and Shutters. -/

/-- CAS_GENERATION_STOP (R33, R37, R100): every sink has faded, and CAS's shutdown completes. -/
def casGenerationStop (n : Node) : Node := if (n.hdr Node.casPage).busy then n.stopDone Node.casPage else n

def execCasGenerationStop (s : State) : Host.Outcome State Fault Refusal := s.hub casGenerationStop

/-- CAS_INDEX_READ (R49). -/
def execCasIndexRead (src : Src) (s : State) : Host.Outcome State Fault Refusal :=
  s.hub (fun n => n.regRead src Node.casPage 0x04C)

/-- XPT_OBJ_READ (R93). -/
def execXptObjRead (src : Src) (s : State) : Host.Outcome State Fault Refusal :=
  s.hub (fun n => n.regRead src xptPage 0x058)

/-- SHT_MUTE_ALL_WRITE (R106). -/
def execShtMuteAllWrite (src : Src) (on : Bool) (s : State) : Host.Outcome State Fault Refusal :=
  s.hub (fun n => n.regWrite src shtPage 0x040 (if on then 1 else 0))

/-- SHT_PUSH (R108). -/
def execShtPush (src : Src) (s : State) : Host.Outcome State Fault Refusal :=
  s.hub (fun n => n.regWrite src shtPage 0x054 1)

/-- SHT_RD_READ (R109). -/
def execShtRdRead (src : Src) (s : State) : Host.Outcome State Fault Refusal :=
  s.hub (fun n => n.regRead src shtPage 0x05C)

/-! Engine dies. -/

/-- PEN_STEST_RUN (R116). -/
def execPenStestRun (src : Src) (die : Die) (engines : BitVec 9) (s : State) : Host.Outcome State Fault Refusal :=
  s.hub (fun n => n.regWrite src ⟨.pen, die⟩ 0x058 (engines.setWidth 32))

/-- PEN_INJECT_ARM (R115). -/
def execPenInjectArm (src : Src) (die : Die) (engine : BitVec 4) (count : BitVec 2) (s : State) :
    Host.Outcome State Fault Refusal :=
  s.hub (fun n => n.regWrite src ⟨.pen, die⟩ 0x05C (0x80000000 ||| (count.setWidth 32 <<< 8) ||| engine.setWidth 32))

/-- The actions of BQD.ACT (R134 to R137). -/
def bqdCommand (src : Src) (die : Die) (bit : Nat) (n : Node) : Node := n.regWrite src ⟨.bqd, die⟩ 0x05C (1#32 <<< bit)

def execBqdWriteActive (src : Src) (die : Die) (s : State) : Host.Outcome State Fault Refusal := s.hub (bqdCommand src die 0)
def execBqdWriteInactive (src : Src) (die : Die) (s : State) : Host.Outcome State Fault Refusal := s.hub (bqdCommand src die 1)
def execBqdReadActive (src : Src) (die : Die) (s : State) : Host.Outcome State Fault Refusal := s.hub (bqdCommand src die 2)
def execBqdReadInactive (src : Src) (die : Die) (s : State) : Host.Outcome State Fault Refusal := s.hub (bqdCommand src die 3)
def execBqdPrep (src : Src) (die : Die) (s : State) : Host.Outcome State Fault Refusal := s.hub (bqdCommand src die 4)
def execBqdSwapreq (src : Src) (die : Die) (s : State) : Host.Outcome State Fault Refusal := s.hub (bqdCommand src die 5)
def execBqdCancel (src : Src) (die : Die) (s : State) : Host.Outcome State Fault Refusal := s.hub (bqdCommand src die 6)

/-- The actions of FIR.ACT (R142). -/
def firCommand (src : Src) (die : Die) (bit : Nat) (n : Node) : Node := n.regWrite src ⟨.fir, die⟩ 0x044 (1#32 <<< bit)

def execFirPrep (src : Src) (die : Die) (s : State) : Host.Outcome State Fault Refusal := s.hub (firCommand src die 0)
def execFirSwapreq (src : Src) (die : Die) (s : State) : Host.Outcome State Fault Refusal := s.hub (firCommand src die 1)
def execFirCancel (src : Src) (die : Die) (s : State) : Host.Outcome State Fault Refusal := s.hub (firCommand src die 2)

/-- RCX_RESTART (R165). -/
def execRcxRestart (src : Src) (c : CoreId) (slots : Byte) (s : State) : Host.Outcome State Fault Refusal :=
  s.hub (fun n => n.regWrite src (rcxPage c) 0x078 (slots.setWidth 32 <<< 8))

/-- RCX_STEST (R183). -/
def execRcxStest (src : Src) (c : CoreId) (s : State) : Host.Outcome State Fault Refusal :=
  s.hub (fun n => n.regWrite src (rcxPage c) 0x078 1)

/-- RCX_MBX_DOORBELL (R175). -/
def execRcxMbxDoorbell (src : Src) (c : CoreId) (s : State) : Host.Outcome State Fault Refusal :=
  s.hub (fun n => n.regWrite src (rcxPage c) 0x074 1)

/-- RCX_MEMDATA_ACCESS (R90): a write of the word given, or a read. -/
def rcxMemdataAccess (n : Node) (src : Src) (c : CoreId) (write : Option Word) : Node :=
  match write with
  | some w => n.regWrite src (rcxPage c) 0x0B8 w
  | none => n.regRead src (rcxPage c) 0x0B8

def execRcxMemdataAccess (src : Src) (c : CoreId) (write : Option Word) (s : State) : Host.Outcome State Fault Refusal :=
  s.hub (fun n => rcxMemdataAccess n src c write)

/-! Streams, Ethernet and time. -/

/-- STR_DESC_READ and SLU_DESC_READ (R204). -/
def execStrDescRead (src : Src) (s : State) : Host.Outcome State Fault Refusal := s.hub (fun n => n.regRead src strPage 0x044)
def execSluDescRead (src : Src) (s : State) : Host.Outcome State Fault Refusal := s.hub (fun n => n.regRead src sluPage 0x044)

/-- TXR_TAIL_WRITE and RXR_TAIL_WRITE (R214). -/
def execTxrTailWrite (src : Src) (port : Fin 4) (tail : Word) (s : State) : Host.Outcome State Fault Refusal :=
  s.hub (fun n => n.regWrite src (macPage port) 0x088 tail)
def execRxrTailWrite (src : Src) (port : Fin 4) (tail : Word) (s : State) : Host.Outcome State Fault Refusal :=
  s.hub (fun n => n.regWrite src (macPage port) 0x098 tail)

/-- MAC_COUNTER_READ (R219): the LO register of a counter. -/
def execMacCounterRead (src : Src) (port : Fin 4) (counter : Fin 16) (s : State) : Host.Outcome State Fault Refusal :=
  s.hub (fun n => n.regRead src (macPage port) (0x100 + 8 * counter.val))

/-- PHC_INCR_FRAC_WRITE and PHC_INCR_NS_WRITE (R223). -/
def execPhcIncrFracWrite (src : Src) (value : Word) (s : State) : Host.Outcome State Fault Refusal :=
  s.hub (fun n => n.regWrite src phcPage 0x054 value)
def execPhcIncrNsWrite (src : Src) (value : Word) (s : State) : Host.Outcome State Fault Refusal :=
  s.hub (fun n => n.regWrite src phcPage 0x058 value)

/-- PHC_STEP_PERMIT and PHC_STEP_GO (R224, R225). -/
def execPhcStepPermit (src : Src) (s : State) : Host.Outcome State Fault Refusal :=
  s.hub (fun n => n.regWrite src phcPage 0x068 2)
def execPhcStepGo (src : Src) (s : State) : Host.Outcome State Fault Refusal :=
  s.hub (fun n => n.regWrite src phcPage 0x068 1)

/-- PHC_TIME_READ (R227). -/
def execPhcTimeRead (src : Src) (s : State) : Host.Outcome State Fault Refusal :=
  s.hub (fun n => n.regRead src phcPage 0x044)

/-- REF_CTRL_WRITE (R238). -/
def execRefCtrlWrite (src : Src) (value : Word) (meas : RefMeas) (s : State) : Host.Outcome State Fault Refusal :=
  s.hub (fun n => n.pageWrite src refPage 0x040 (fun m => m.refWrite src 0x040 value meas))

/-- REF_SLOT_CFG_WRITE (R233, R235): SCFG0 to SCFG3 and SOFFSET of the selected slot. -/
def execRefSlotCfgWrite (src : Src) (reg : Fin 5) (value : Word) (meas : RefMeas) (s : State) :
    Host.Outcome State Fault Refusal :=
  s.hub (fun n => n.pageWrite src refPage (0x070 + 4 * reg.val) (fun m => m.refWrite src (0x070 + 4 * reg.val) value meas))

/-- REF_SSTAT_READ (R236). -/
def execRefSstatRead (src : Src) (s : State) : Host.Outcome State Fault Refusal :=
  s.hub (fun n => n.regRead src refPage 0x084)

/-! Local audio, drive outputs and DRAM. -/

/-- AES_CAP_READ (R260). -/
def execAesCapRead (src : Src) (rx : Fin 16) (s : State) : Host.Outcome State Fault Refusal :=
  s.hub (fun n => n.regRead src ⟨.aes, rx⟩ 0x058)

/-- CHANNEL_ENABLE, CHANNEL_DISABLE and CHANNEL_CLEAR (R288, R292, R294): writes of CHCTL that change CH_EN alone, or write
CLEAR alone. -/
def chanWrite (n : Node) (src : Src) (ch : Chan) (f : Node → Node) : Node :=
  n.pageWrite src (modPage (ch.val / 8)) (0x040 + 0x20 * (ch.val % 8)) f

def execChannelEnable (src : Src) (ch : Chan) (s : State) : Host.Outcome State Fault Refusal :=
  s.hub (fun n => chanWrite n src ch (fun m => enableChan m ch))
def execChannelDisable (src : Src) (ch : Chan) (s : State) : Host.Outcome State Fault Refusal :=
  s.hub (fun n => chanWrite n src ch (fun m => disableChan m ch))
def execChannelClear (src : Src) (ch : Chan) (s : State) : Host.Outcome State Fault Refusal :=
  s.hub (fun n => chanWrite n src ch (fun m => clearChan m ch))

/-- SNS_IDSTAT_READ (R284). -/
def execSnsIdstatRead (src : Src) (s : State) : Host.Outcome State Fault Refusal :=
  s.hub (fun n => n.regRead src snsPage 0x044)

/-- DRM_TRAIN_START (R313). -/
def execDrmTrainStart (src : Src) (s : State) : Host.Outcome State Fault Refusal :=
  s.hub (fun n => n.regWrite src drmPage 0x080 1)

/-! Faults, the Sill island and hinges. -/

/-- FLT_ACK_WRITE and FLT_ACK_ALL (R322). -/
def execFltAckWrite (src : Src) (seq : Word) (s : State) : Host.Outcome State Fault Refusal :=
  s.hub (fun n => n.regWrite src fltPage 0x080 seq)
def execFltAckAll (src : Src) (s : State) : Host.Outcome State Fault Refusal :=
  s.hub (fun n => n.regWrite src fltPage 0x084 1)

/-- FLT_REC_READ (R321): REC0 of the record that RD_SEQ names. -/
def execFltRecRead (src : Src) (s : State) : Host.Outcome State Fault Refusal :=
  s.hub (fun n => n.regRead src fltPage 0x060)

/-- A trigger bit of SIL.SAFE alone: AUTO_THERM keeps its value. -/
def safeCommand (src : Src) (bit : Nat) (n : Node) : Node :=
  n.regWrite src silPage 0x044 ((n.reg silPage 0x044 &&& 0x100) ||| (1#32 <<< bit))

/-- SIL_SAFE_FORCE and SIL_SAFE_RELEASE (R328). -/
def execSilSafeForce (src : Src) (s : State) : Host.Outcome State Fault Refusal := s.hub (safeCommand src 0)
def execSilSafeRelease (src : Src) (s : State) : Host.Outcome State Fault Refusal := s.hub (safeCommand src 1)

/-- SIL_WDOG_WRITE and SIL_KICK (R329). -/
def execSilWdogWrite (src : Src) (value : Word) (s : State) : Host.Outcome State Fault Refusal :=
  s.hub (fun n => n.regWrite src silPage 0x048 value)
def execSilKick (src : Src) (s : State) : Host.Outcome State Fault Refusal :=
  s.hub (fun n => n.regWrite src silPage 0x04C 1)

/-- HNG_RENEW (R339). -/
def execHngRenew (src : Src) (s : State) : Host.Outcome State Fault Refusal :=
  s.hub (fun n => n.regWrite src hngPage 0x070 1)

/-! PCI, flash and system. -/

/-- PCI_REARM (R362). -/
def execPciRearm (src : Src) (vectors : Word) (s : State) : Host.Outcome State Fault Refusal :=
  s.hub (fun n => n.regWrite src Node.pciPage 0x050 vectors)

/-- ERASE_4K, ERASE_64K and PROGRAM (R364): codes 1 to 3 of QSP.CMD (PRESUMED, notes/assumptions/132.md). -/
def flashWrite (src : Src) (code : Nat) (n : Node) : Node := n.regWrite src qspPage 0x040 (BitVec.ofNat 32 code)

def execErase4k (src : Src) (s : State) : Host.Outcome State Fault Refusal := s.hub (flashWrite src 1)
def execErase64k (src : Src) (s : State) : Host.Outcome State Fault Refusal := s.hub (flashWrite src 2)
def execProgram (src : Src) (s : State) : Host.Outcome State Fault Refusal := s.hub (flashWrite src 3)

/-- SYS_REBOOT (R367). -/
def execSysReboot (src : Src) (s : State) : Host.Outcome State Fault Refusal :=
  s.hub (fun n => n.regWrite src sysPage 0x040 1)

end Sys2Proof.Machine
end

