-- ==== Sys2Proof/Machine/Carrier.lean ====
section
/-! DEFINITION. The CARRIER service (R278 to R280): protected frequencies, the distance of a carrier period, and the
carrier planner. -/

namespace Sys2Proof.Machine

open Sys2Proof (Word Page)

/-- A distance from a protected frequency: `num` / `den` Hz, the frequency's index, the term kind and the other channel. -/
structure CarrierTerm where
  num : Nat
  den : Nat
  freq : Nat := 0
  kind : Nat := 0
  other : Nat := 0
deriving DecidableEq, Repr

/-- Distance of a term of frequency `num` / `den` from a protected frequency. -/
def termDistance (num den f : Nat) : Nat := if f * den ≤ num then num - f * den else f * den - num

/-- The nearer of two terms; the first where they are equally near (DESIGN CHOICE, notes/assumptions/112.md). -/
def nearer (a b : CarrierTerm) : CarrierTerm := if b.num * a.den < a.num * b.den then b else a

/-- A distance is at least 10 kHz (R278). -/
def isClear (t : CarrierTerm) : Bool := decide (10000 * t.den ≤ t.num)

/-- The nearest of several terms. -/
def nearest : List CarrierTerm → Option CarrierTerm
  | [] => none
  | t :: ts => some (ts.foldl nearer t)

/-- The frequencies that period `pa` of a channel makes (R278): the first 8 harmonics, and the products with every other
channel and period of `others`; kind, other channel, numerator and denominator in Hz. -/
def carrierFreqs (pa : Nat) (others : List (Nat × Nat)) : List (Nat × Nat × Nat × Nat) :=
  (List.range 8).map (fun k => (k + 1, 0, (k + 1) * timingHz, pa)) ++
  others.flatMap (fun o =>
    let b := o.1
    let pb := o.2
    let far := fun (x y : Nat) => if y ≤ x then x - y else y - x
    [(0x10, b, (pb + pa) * timingHz, pa * pb), (0x11, b, far pb pa * timingHz, pa * pb),
     (0x12, b, far (2 * pb) pa * timingHz, pa * pb), (0x13, b, far (2 * pa) pb * timingHz, pa * pb)])

/-- Periods to test, in the order of R280: P0, P0 + 1, P0 − 1 and so on within the mode's range. -/
def planOrder (p0 : Nat) : List Nat :=
  (p0 :: (List.range 1728).flatMap (fun k => [p0 + (k + 1), p0 - (k + 1)])).filter (fun p => decide (894 ≤ p ∧ p ≤ 2621))

namespace Node

/-- Other enabled channels of a channel's rail group (R278), with their periods by `chosen` or else in force. -/
def railOthers (n : Node) (chosen : List (Nat × Nat)) (c : Nat) : List (Nat × Nat) :=
  ([0, 1, 2, 3].map (fun j => c / 4 * 4 + j)).filterMap (fun b =>
    if b ≠ c ∧ n.chEnabled b then
      some (b, ((chosen.find? (fun e => decide (e.1 = b))).map (·.2)).getD (n.drv b).period)
    else none)

/-- The distance of a period of a channel, with its worst term (R278); none while no frequency is protected. -/
def carrierDistance (n : Node) (chosen : List (Nat × Nat)) (c pa : Nat) : Option CarrierTerm :=
  let fs := carrierFreqs pa (n.railOthers chosen c)
  nearest ((n.drive.protectedFreqs.zipIdx).flatMap (fun f => fs.map (fun t =>
    (⟨termDistance t.2.2.1 t.2.2.2 f.1, t.2.2.2, f.2, t.1, t.2.1⟩ : CarrierTerm))))

/-- The distance of a period for every member of a group, all taking it together. -/
def groupDistance (n : Node) (chosen : List (Nat × Nat)) (members : List Nat) (p : Nat) : Option CarrierTerm :=
  let all := members.map (fun c => (c, p)) ++ chosen
  nearest (members.filterMap (fun c => n.carrierDistance all c p))

/-- The period of a release group (R280), and whether it is clear: the first clear for every member, else that of the largest
distance. -/
def planGroup (n : Node) (chosen : List (Nat × Nat)) (members : List Nat) : Nat × Bool :=
  let p0 := (clampPeriod true (n.chFld (members.headD 0) Fld.modCarrierPeriod)).1
  let tried := (planOrder p0).map (fun p => (p, n.groupDistance chosen members p))
  match tried.find? (fun t => t.2.all isClear) with
  | some t => (t.1, true)
  | none =>
    ((tried.foldl (fun (best : Nat × CarrierTerm) t => match t.2 with
      | some d => if best.2.num * d.den < d.num * best.2.den then (t.1, d) else best
      | none => best) (p0, ⟨0, 1, 0, 0, 0⟩)).1, false)

/-- The plan of some groups in order: the period of each channel, and whether every group found a clear one. -/
def planPeriods (n : Node) (groups : List (List Nat)) : List (Nat × Nat) × Bool :=
  groups.foldl (fun acc g =>
    let p := n.planGroup acc.1 g
    (acc.1 ++ g.map (fun c => (c, p.1)), acc.2 && p.2)) ([], true)

/-- The station-avoid channels of a range, by release group in order of lowest channel (R280). -/
def planGroups (n : Node) (first count : Nat) : List (List Nat) :=
  let cs := (List.range count).map (fun i => first + i)
  let cs := cs.filter (fun c => decide (c < 192 ∧ n.chFld c Fld.modCarrierCmode = 1))
  ((cs.map n.chGroup).eraseDups).map (fun g => cs.filter (fun c => decide (n.chGroup c = g)))

/-- Data words of REPORT and CHECK (R279). With no frequency protected there is no distance and no worst term: both are
free values. -/
def carrierReport (n : Node) (c p : Nat) : List Word × Node :=
  match n.carrierDistance [] c p with
  | some t => ([BitVec.ofNat 32 p, BitVec.ofNat 32 (t.num / t.den), BitVec.ofNat 32 (t.freq + t.kind * 256 + t.other * 65536)], n)
  | none =>
    let (d, n) := n.fresh
    let (w, n) := n.fresh
    ([BitVec.ofNat 32 p, d, w], n)

/-- A command of the service: NOT_PRESENT without a drive die (R279) (DESIGN CHOICE, notes/assumptions/113.md). -/
def carrierServe (n : Node) (slot : Fin 4) (f : Node → Node) : Node :=
  n.serveSlot slot (fun n => if n.boot.drvPresent then f n else n.answer slot notPresent)

end Node

/-- CARRIER PROTECT (R279). -/
def carrierProtect (n : Node) (slot : Fin 4) (word : Word) (freqs : List Word) : Node :=
  n.carrierServe slot (fun n =>
    let k := word.toNat % 64
    let fs := (freqs.take k).map (fun w => w.toNat % 2 ^ 24)
    if 32 < k ∨ fs.length < k ∨ fs.any (fun f => decide (f < 100000 ∨ 16000000 < f)) then n.answer slot badArgument
    else ({ n with drive := { n.drive with protectedFreqs := fs } }).answer slot okCode)

def execCarrierProtect (slot : Fin 4) (word : Word) (freqs : List Word) (s : State) : Host.Outcome State Fault Refusal :=
  s.hub (fun n => carrierProtect n slot word freqs)

/-- CARRIER PLAN (R279, R280). -/
def carrierPlan (n : Node) (slot : Fin 4) (word : Word) : Node :=
  n.carrierServe slot (fun n =>
    let first := word.toNat % 256
    let count := word.toNat / 256 % 256
    if 192 < first + count then n.answer slot badArgument
    else if n.drive.jobs.any (fun (j : PlanJob) => decide (j.state = 1)) then n.answer slot busyCode
    else
      let num := n.drive.nextJob
      let jobs := n.drive.jobs.filter (fun (j : PlanJob) => decide (j.num ≠ num)) ++ [{ num := num, first := first, count := count }]
      ({ n with drive := { n.drive with jobs := jobs, nextJob := num % 255 + 1 } }).answer slot acceptedCode num)

def execCarrierPlan (slot : Fin 4) (word : Word) (s : State) : Host.Outcome State Fault Refusal :=
  s.hub (fun n => carrierPlan n slot word)

/-- CARRIER_PLAN_DONE (R280): the planner writes the periods that it has chosen to the shadows and requests the commits. -/
def carrierPlanDone (n : Node) (num : Nat) : Node :=
  n.serve (fun n => match n.drive.jobs.find? (fun (j : PlanJob) => decide (j.num = num ∧ j.state = 1)) with
    | none => n
    | some j =>
      let plan := n.planPeriods (n.planGroups j.first j.count)
      let chosen := plan.1
      let dist := chosen.map (fun e => n.carrierDistance chosen e.1 e.2)
      let short := (dist.filter (fun d => !d.all isClear)).length
      let (free, n) := n.fresh
      let smallest := match nearest (dist.filterMap id) with
        | some t => t.num / t.den
        | none => free.toNat
      let done : PlanJob := { j with state := if plan.2 then 2 else 3, smallest := smallest, short := short }
      let n := { n with drive := { n.drive with jobs := n.drive.jobs.map (fun (x : PlanJob) => if x.num = num then done else x) } }
      let n := chosen.foldl (fun m e =>
        if (m.hdr (modPage (e.1 / 8))).resetting then m else m.writeShadow (modPage (e.1 / 8)) (Fld.modCarrierPeriod (e.1 % 8)) e.2 0) n
      ((chosen.map (fun e => e.1 / 8)).eraseDups).foldl (fun m k =>
        if (m.hdr (modPage k)).resetting then m else m.requestCommit (modPage k)) n)

def execCarrierPlanDone (job : Nat) (s : State) : Host.Outcome State Fault Refusal := s.hub (fun n => carrierPlanDone n job)

/-- CARRIER STATUS (R279). While the job runs it has no distance and no count to give: free values. -/
def carrierStatus (n : Node) (slot : Fin 4) (num : Nat) : Node :=
  n.carrierServe slot (fun n => match n.drive.jobs.find? (fun (j : PlanJob) => decide (j.num = num)) with
    | none => n.answer slot badArgument
    | some j =>
      if j.state = 1 then
        let (d, n) := n.fresh
        let (k, n) := n.fresh
        n.answer slot okCode j.state [d, k]
      else n.answer slot okCode j.state [BitVec.ofNat 32 j.smallest, BitVec.ofNat 32 j.short])

def execCarrierStatus (slot : Fin 4) (job : Nat) (s : State) : Host.Outcome State Fault Refusal :=
  s.hub (fun n => carrierStatus n slot job)

/-- CARRIER REPORT (R279). -/
def carrierReported (n : Node) (slot : Fin 4) (c : Nat) : Node :=
  n.carrierServe slot (fun n =>
    if 192 ≤ c then n.answer slot badArgument
    else
      let (ws, n) := n.carrierReport c (n.drv c).period
      n.answer slot okCode none ws)

def execCarrierReport (slot : Fin 4) (ch : Nat) (s : State) : Host.Outcome State Fault Refusal :=
  s.hub (fun n => carrierReported n slot ch)

/-- CARRIER CHECK (R279). A PERIOD outside the range of the channel's mode acts as the nearest limit (R277). -/
def carrierCheck (n : Node) (slot : Fin 4) (word : Word) : Node :=
  n.carrierServe slot (fun n =>
    let c := word.toNat % 256
    if 192 ≤ c then n.answer slot badArgument
    else
      let cmode := decide (n.chFld c Fld.modCarrierCmode = 1)
      let (ws, n) := n.carrierReport c (clampPeriod cmode (word.toNat / 2 ^ 16 % 2 ^ 12)).1
      n.answer slot okCode none ws)

def execCarrierCheck (slot : Fin 4) (word : Word) (s : State) : Host.Outcome State Fault Refusal :=
  s.hub (fun n => carrierCheck n slot word)

end Sys2Proof.Machine
end

