-- ==== Sys2Proof/Machine/Ports.lean ====
section
/-! DEFINITION. The I²C port with its window and attention messages (R350 to R358), and the PCIe endpoint (R359 to R362). -/

namespace Sys2Proof.Machine

open Sys2Proof (Word Byte Sparse Page Block Die Port Src BusOutcome)

/-- Who the I²C port is. -/
def i2cSrc : Src := ⟨.i2c, 0⟩

/-- First address of the pages of a REGION (R26, R321). -/
def regionBase (region : Nat) : Nat :=
  if region = 0 then 0x40000000 else if region = 7 then 0x60000000 else 0x50C00000 + (region - 1) * 0x01000000

namespace Node

/-- An address is acknowledged (R351, R23): the Sill address from the first strap latch on, the node address while the hub
is in service and in the fatal state (DEDUCED, notes/assumptions/140.md). -/
def i2cServes (n : Node) (sill : Bool) : Bool :=
  n.sil.powered && n.i2c.straps.isSome && (sill || n.sil.fatal || (n.alive && n.i2c.nodeServed))

/-- BANK as an address sees it (R353). -/
def bankOf (n : Node) (sill : Bool) : Word := if sill then 0x40000000 else n.i2c.bank

/-- KIND of what the aperture shows; in the fatal state every kind but the fault ring reads 0xFF. -/
def kindOf (n : Node) (sill : Bool) : Nat := (n.bankOf sill).toNat / 2 ^ 30

/-- Address that an aperture word reaches under KINDs 0 and 2; none where REGION names nothing. -/
def apertureAddr (n : Node) (sill : Bool) (off : Nat) : Option Nat :=
  let b := (n.bankOf sill).toNat
  if n.kindOf sill = 2 then some (n.i2c.memaddr.toNat / 128 * 128 + off)
  else if n.kindOf sill = 0 ∧ b / 2 ^ 24 % 16 ≤ 7 then
    some (regionBase (b / 2 ^ 24 % 16) + b / 2 ^ 16 % 256 * 0x1000 + b % 32 * 128 + off)
  else none

/-- An access with an error response counts as partial (R354). -/
def i2cError (n : Node) : Node := n.bump i2cPage Fld.i2cErrPartial

/-- The window's STAT byte (R353). -/
def windowStat (n : Node) : Nat :=
  (if n.errHeld then 1 else 0) + (if n.sil.fatal then 2 else 0) + (if n.sil.safe then 4 else 0) + (if n.i2c.pend ≠ 0 then 8 else 0)

/-- An aperture word as a transaction first reads it (R354). -/
def apertureRead (n : Node) (sill : Bool) (off : Nat) : Word × Node :=
  match n.kindOf sill with
  | 1 =>
    let seq := n.i2c.rseq + BitVec.ofNat 32 (off / 32)
    (match n.flt.ring.find? (fun r => decide (BitVec.ofNat 32 r.seq = seq)) with
     | some r => recordWord r (off % 32 / 4)
     | none => 0, n)
  | k =>
    if n.sil.fatal then (0xFFFFFFFF, n)
    else if k = 3 then (0, n)
    else match n.apertureAddr sill off with
      | none => (0, n.i2cError)
      | some a =>
        let (bs, m) := n.busRead i2cSrc a 4
        if m.rsp.ok then (BitVec.ofNat 32 (leNat bs), m) else (0, m.i2cError)

/-- A window word outside the aperture. -/
def windowWord (n : Node) (sill : Bool) (off : Nat) : Word :=
  match off with
  | 0xE8 => n.i2c.memaddr.setWidth 32
  | 0xEC => (n.i2c.memaddr >>> 32).setWidth 32
  | 0xF0 => n.bankOf sill
  | 0xF4 => n.i2c.rseq
  | 0xF8 => n.i2c.ackseq
  | 0xFC => BitVec.ofNat 32 n.windowStat
  | _ => 0

/-- Read `k` bytes of the window from a pointer; each aperture word is read once in a transaction (R352, R354). -/
def windowRead (sill : Bool) : Nat → Nat → List (Nat × Word) → Node → List Byte × Nat × Node
  | 0, ptr, _, n => ([], ptr, n)
  | k + 1, ptr, latched, n =>
    let off := ptr / 4 * 4
    let e : Word × List (Nat × Word) × Node :=
      if 0x80 ≤ off then (n.windowWord sill off, latched, n)
      else match latched.find? (fun (l : Nat × Word) => decide (l.1 = off)) with
        | some l => (l.2, latched, n)
        | none =>
          let r := n.apertureRead sill off
          (r.1, (off, r.1) :: latched, r.2)
    let rest := windowRead sill k ((ptr + 1) % 256) e.2.1 e.2.2
    ((e.1 >>> (8 * (ptr % 4))).setWidth 8 :: rest.1, rest.2)

/-- A gathered aperture word is written (R354). -/
def apertureWrite (n : Node) (sill : Bool) (off : Nat) (v : Nat) : Node :=
  let k := n.kindOf sill
  if n.sil.fatal ∨ k = 1 ∨ k = 3 then n
  else match n.apertureAddr sill off with
    | none => n.i2cError
    | some a =>
      let m := n.busWrite i2cSrc a (leBytes v 4)
      if m.rsp.ok then m else m.i2cError

/-- The first and the last byte of the window field or word that a byte belongs to. -/
def windowField (ptr : Nat) : Nat × Nat := if 0xE8 ≤ ptr ∧ ptr ≤ 0xEC then (0xE8, 0xEC) else (ptr / 4 * 4, ptr / 4 * 4 + 3)

/-- A window field takes effect with its last byte (R353); the Sill address writes RSEQ and ACKSEQ alone
(DEDUCED, notes/assumptions/143.md). -/
def fieldWritten (n : Node) (sill : Bool) (last : Nat) (v : Nat) : Node :=
  let w := BitVec.ofNat 32 v
  match last with
  | 0xEC => if sill then n else { n with i2c := { n.i2c with memaddr := BitVec.ofNat 40 v } }
  | 0xF3 => if sill then n else { n with i2c := { n.i2c with bank := w } }
  | 0xF7 => { n with i2c := { n.i2c with rseq := w } }
  | 0xFB => { n with i2c := { n.i2c with ackseq := w } }.ackWhere (fun r => decide (BitVec.ofNat 32 r.seq = w))
  | _ => if last < 0x80 then n.apertureWrite sill (last - 3) v else n

/-- Write bytes of the window from a pointer (R352 to R354): `acc` holds the bytes gathered of the word or field being
written, those not written in the transaction as 0. A word left partly gathered is discarded and counted
(DEDUCED, notes/assumptions/142.md). -/
def windowWrite (sill : Bool) : List Byte → Nat → Nat → Bool → Node → Nat × Node
  | [], ptr, _, part, n => (ptr, if part then n.i2cError else n)
  | b :: bs, ptr, acc, _, n =>
    let f := windowField ptr
    let acc := (if ptr = f.1 then 0 else acc) + b.toNat * 256 ^ (ptr - f.1)
    let kind := n.kindOf sill
    if ptr = f.2 then windowWrite sill bs ((ptr + 1) % 256) 0 false (n.fieldWritten sill ptr acc)
    else windowWrite sill bs ((ptr + 1) % 256) acc (decide (ptr < 0x80) && !n.sil.fatal && (kind == 0 || kind == 2)) n

/-- The pointer of an address (R352). -/
def i2cPtr (n : Node) (sill : Bool) : Nat := (if sill then n.i2c.ptrSill else n.i2c.ptrNode).toNat
def setI2cPtr (n : Node) (sill : Bool) (p : Nat) : Node :=
  if sill then { n with i2c := { n.i2c with ptrSill := BitVec.ofNat 8 p } } else { n with i2c := { n.i2c with ptrNode := BitVec.ofNat 8 p } }

end Node

/-- I2C_WRITE_TRANSACTION (R352 to R354). -/
def i2cWrite (n : Node) (sill : Bool) (bytes : List Byte) : Node :=
  let ok := n.i2cServes sill
  let n := { n with i2c := { n.i2c with acked := ok } }
  if !ok then n
  else match bytes with
    | [] => n
    | p :: bs =>
      let e := Node.windowWrite sill bs p.toNat 0 false n
      e.2.setI2cPtr sill e.1

def execI2cWriteTransaction (sill : Bool) (bytes : List Byte) (s : State) : Host.Outcome State Fault Refusal :=
  s.act (fun n => i2cWrite n sill bytes)

/-- I2C_READ_TRANSACTION (R352, R354). -/
def i2cRead (n : Node) (sill : Bool) (count : Nat) : Node :=
  let ok := n.i2cServes sill
  let n := { n with i2c := { n.i2c with acked := ok } }
  if !ok then n
  else
    let e := Node.windowRead sill count (n.i2cPtr sill) [] n
    let n := e.2.2.setI2cPtr sill e.2.1
    { n with i2c := { n.i2c with read := e.1 } }

def execI2cReadTransaction (sill : Bool) (count : Nat) (s : State) : Host.Outcome State Fault Refusal :=
  s.act (fun n => i2cRead n sill count)

/-- I2C_PROTOCOL_ERROR (R355). -/
def execI2cProtocolError (s : State) : Host.Outcome State Fault Refusal :=
  s.hub (fun n => (n.bump Node.i2cPage Fld.i2cErrProtocol).irq Node.i2cPage 0)

/-- I2C_SDA_TIMEOUT (R356). -/
def execI2cSdaTimeout (s : State) : Host.Outcome State Fault Refusal :=
  s.hub (fun n => (n.bump Node.i2cPage Fld.i2cErrTimeout).irq Node.i2cPage 2)

namespace Node

/-- An attention message is due (R357): none in reset, and in the fatal state one with cause 1. -/
def attnDue (n : Node) : Bool :=
  n.flag i2cPage Fld.i2cCfgAttnEn && decide (n.i2c.pend ≠ 0) && !n.i2c.given
    && ((n.sil.fatal && n.i2c.pend.getLsbD 1) || (n.alive && n.i2c.nodeServed))

/-- The 4 bytes of an attention message. -/
def attnBytes (n : Node) : List Byte :=
  [BitVec.ofNat 8 n.nodeAddr, n.i2c.pend.setWidth 8, BitVec.ofNat 8 n.flt.nextSeq, BitVec.ofNat 8 (n.flt.nextSeq / 256)]

/-- An attempt to send the attention message, by what the bus made of it (R356 to R358)
(DEDUCED, notes/assumptions/144.md). -/
def attention (n : Node) (outcome : BusOutcome) : Node :=
  if !n.attnDue then n
  else match outcome with
    | .acknowledged => { n with i2c := { n.i2c with
        pend := 0, attempts := 0, message := n.attnBytes, messages := n.i2c.messages + 1, stuck := false } }
    | .arbitrationLost | .namedAsTarget => n
    | .notAcknowledged =>
      if 7 ≤ n.i2c.attempts then
        ({ n with i2c := { n.i2c with attempts := 0, given := true, message := n.attnBytes } }.bump i2cPage Fld.i2cErrAttnFail).irq i2cPage 1
      else { n with i2c := { n.i2c with attempts := n.i2c.attempts + 1, message := n.attnBytes } }
    | .sdaStuck => { n with i2c := { n.i2c with stuck := true } }

end Node

/-- ATTENTION_SEND (R357). -/
def execAttentionSend (outcome : BusOutcome) (s : State) : Host.Outcome State Fault Refusal :=
  s.sill (fun n => n.attention outcome)

/-- ATTENTION_RETRY (R358): another attempt at the same message. -/
def execAttentionRetry (outcome : BusOutcome) (s : State) : Host.Outcome State Fault Refusal :=
  s.sill (fun n => n.attention outcome)

/-- STUCK_BUS_RETRY (R356): the node clocks SCL again; with SDA high it issues a STOP and goes on. -/
def stuckBusRetry (n : Node) (sdaHigh : Bool) : Node :=
  if n.i2c.stuck then { n with i2c := { n.i2c with stuck := !sdaHigh } } else n

def execStuckBusRetry (sdaHigh : Bool) (s : State) : Host.Outcome State Fault Refusal :=
  s.sill (fun n => stuckBusRetry n sdaHigh)

/-! PCIe. -/

/-- Byte of an MSI-X table entry that nothing has written: vectors are masked, as the MSI-X rules of PCI Express reset
them (PRESUMED, notes/assumptions/141.md). -/
def msixReset (k : Nat) : Byte := if k % 16 = 12 then 1 else 0

/-- What BAR0 maps an offset to (R360): a hub address, or nothing. -/
def bar0 (n : Node) (o : Nat) : Option Nat :=
  if o < 0x40000 then some (0x40000000 + o)
  else if 0x80000 ≤ o ∧ o < 0x100000 then some (0x48000000 + (o - 0x80000))
  else if 0x100000 ≤ o ∧ o < 0x11C000 then some (0x60000000 + (o - 0x100000))
  else if 0x200000 ≤ o ∧ o < 0x260000 then
    if (o - 0x200000) % 0x10000 < 0xC000 then
      some (0x50C00000 + (o - 0x200000) / 0x10000 * 0x01000000 + (o - 0x200000) % 0x10000)
    else none
  else if 0x400000 ≤ o ∧ o < 0x600000 then some (0x20000000 + (o - 0x400000))
  else if 0x800000 ≤ o ∧ o < 0x1000000 then some ((if n.remapped then 0 else 0x10000000) + (o - 0x800000))
  else if 0x1000000 ≤ o ∧ o < 0x7000000 then
    if o % 0x1000000 < 0xC00000 then some (0x50000000 + (o / 0x1000000 - 1) * 0x01000000 + o % 0x1000000) else none
  else none

namespace Node

/-- The completion of a request. -/
def complete (n : Node) (c : Completion) (data : List Byte) : Node := { n with pci := { n.pci with completion := c, data := data } }

/-- A read with an error response completes with 0, or with the EP bit where it met poison, and counts (R361). -/
def pciReadError (n : Node) (len : Nat) (poison : Bool) : Node :=
  (n.bump pciPage Fld.pciErrRead).complete (if poison then .poisoned else .success) (List.replicate len 0)

/-- A request that the matrix carries (R361) (DEDUCED, notes/assumptions/145.md). -/
def pciCarry (n : Node) (src : Src) (a len : Nat) (write : Option (List Byte)) : Node :=
  match write with
  | some bs =>
    let m := (n.busWrite src a bs).complete .none []
    let narrow : Bool := match n.decode a with
      | .page _ _ => decide (src.port = .pcie ∧ (a % 4 ≠ 0 ∨ bs.length % 4 ≠ 0))
      | _ => false
    if m.rsp.ok then m
    else if narrow then m.bump pciPage Fld.pciErrNarrow else m.bump pciPage Fld.pciErrWrite
  | none =>
    let poison : Bool := match n.decode a with
      | .dram x => n.burstPoisoned x len
      | _ => false
    let (bs, m) := n.busRead src a len
    if m.rsp.ok then m.complete .success bs else m.pciReadError len poison

/-- A request to the MSI-X table or the pending bits, which the endpoint serves itself; the pending bits ignore writes. -/
def pciMsix (n : Node) (o len : Nat) (write : Option (List Byte)) : Node :=
  if o < 0x51000 then
    match write with
    | some bs =>
      let t := ((List.range bs.length).zip bs).foldl (fun (t : Sparse Byte) e =>
        if o - 0x50000 + e.1 < 512 then Sparse.set msixReset t (o - 0x50000 + e.1) e.2 else t) n.pci.table
      { n with pci := { n.pci with table := t } }.complete .none []
    | none => n.complete .success ((List.range len).map (fun j => Sparse.get msixReset n.pci.table (o - 0x50000 + j)))
  else match write with
    | some _ => n.complete .none []
    | none => n.complete .success ((List.range len).map (fun j =>
        if o - 0x51000 + j < 4 then (n.pci.pba >>> (8 * (o - 0x51000 + j))).setWidth 8 else 0))

end Node

/-- PCIE_MEMORY_REQUEST (R360, R361): `write` holds the bytes of a write, and `len` the bytes that a read asks for. -/
def pcieRequest (n : Node) (bar2 : Bool) (o len : Nat) (write : Option (List Byte)) : Node :=
  if !n.flag Node.pciPage Fld.pciStatLink then n
  else if n.sil.fatal then n.complete .abort []
  else if !n.alive then n
  else if bar2 then n.pciCarry ⟨.core, 8⟩ (0x100000000 + o) len write
  else if (0x50000 ≤ o ∧ o < 0x50200) ∨ (0x51000 ≤ o ∧ o < 0x51008) then n.pciMsix o len write
  else match bar0 n o with
    | some a => n.pciCarry ⟨.pcie, 0⟩ a len write
    | none => match write with
      | some _ => (n.bump Node.pciPage Fld.pciErrWrite).complete .none []
      | none => n.pciReadError len false

def execPcieMemoryRequest (bar2 : Bool) (off len : Nat) (write : Option (List Byte)) (s : State) :
    Host.Outcome State Fault Refusal :=
  s.sill (fun n => pcieRequest n bar2 off len write)

/-- MSIX_MESSAGE (R362): a message owed for a vector is sent; a masked vector's waits in the pending bits. -/
def msixMessage (n : Node) (v : Nat) : Node :=
  let owed := n.vectors.getLsbD v && (!n.pci.told.getLsbD v || n.pci.pba.getLsbD v)
  if !owed || !n.flag Node.pciPage Fld.pciStatLink then n
  else
    let bit : Word := 1#32 <<< v
    let told := n.pci.told ||| bit
    if (Sparse.get msixReset n.pci.table (16 * v + 12)).getLsbD 0 then
      { n with pci := { n.pci with told := told, pba := n.pci.pba ||| bit } }
    else { n with pci := { n.pci with told := told, pba := n.pci.pba &&& ~~~bit, sent := n.pci.sent ++ [v] } }

def execMsixMessage (vector : Fin 32) (s : State) : Host.Outcome State Fault Refusal :=
  s.hub (fun n => msixMessage n vector)

/-- What a hub cycle with no command brings (DESIGN CHOICE, notes/assumptions/1.md): time and the PHC advance, and the
matrix completes its oldest outstanding transaction. -/
def idleCycle (n : Node) : Node := if n.alive then (hubCycleTick n).completeOldest else hubCycleTick n

end Sys2Proof.Machine
end

