-- ==== Sys2Proof/Machine/ReedInstr.lean ====
section
/-! DEFINITION. The Reed instructions (R179), one meaning each. A command gives the instruction that its core reaches; it
has effect only while the core executes. -/

namespace Sys2Proof.Machine

open Sys2Proof (Word Byte Sparse CoreId Opnd ReedAddr ReedTarget RepCount Cond MacLoad PairLoad Special)

/-- NOP (R179). -/
def reedNop (n : Node) (c : CoreId) : Node :=
  n.reedPlain c 1 id

def execReedNop (c : CoreId) (s : State) : Host.Outcome State Fault Refusal :=
  s.hub (fun n => reedNop n c)

/-- END (R163, R172): the program ends after two delay slots. -/
def reedEnd (n : Node) (c : CoreId) : Node :=
  n.reedPlain c 1 (fun r => Node.reedJumpTo r .end_)

def execReedEnd (c : CoreId) (s : State) : Host.Outcome State Fault Refusal :=
  s.hub (fun n => reedEnd n c)

/-- B (R172): a conditional branch after two delay slots. -/
def reedB (n : Node) (c : CoreId) (cond : Cond) (target : ReedTarget) : Node :=
  let pc := (n.reed c).pc
  n.reedPlain c (Node.targetLen target) (fun r =>
    if Node.condHolds r.st cond then Node.reedJumpTo r (.to (Node.targetOf pc target))
    else Node.reedJumpTo r (.to (n.skipInstrs c r.pc 2)))

def execReedB (c : CoreId) (cond : Cond) (target : ReedTarget) (s : State) : Host.Outcome State Fault Refusal :=
  s.hub (fun n => reedB n c cond target)

/-- CALL (R172): LR takes the address after the second delay slot. -/
def reedCall (n : Node) (c : CoreId) (target : ReedTarget) : Node :=
  let pc := (n.reed c).pc
  n.reedPlain c (Node.targetLen target) (fun r =>
    Node.reedJumpTo { r with lr := BitVec.ofNat 32 (n.skipInstrs c r.pc 2) } (.to (Node.targetOf pc target)))

def execReedCall (c : CoreId) (target : ReedTarget) (s : State) : Host.Outcome State Fault Refusal :=
  s.hub (fun n => reedCall n c target)

/-- RET (R172): a return to LR after two delay slots. -/
def reedRet (n : Node) (c : CoreId) : Node :=
  n.reedPlain c 1 (fun r => Node.reedJumpTo r (.to (r.lr.toNat % 16384)))

def execReedRet (c : CoreId) (s : State) : Host.Outcome State Fault Refusal :=
  s.hub (fun n => reedRet n c)

/-- DBNZ (R172): decrement, and branch if the result is not 0. -/
def reedDbnz (n : Node) (c : CoreId) (x : Fin 16) (off : Int) : Node :=
  let pc := (n.reed c).pc
  n.reedPlain c 1 (fun r =>
    let w := xr r x - 1
    let r := setX r x.val w
    if w ≠ 0 then Node.reedJumpTo r (.to (Node.targetOf pc (.off off)))
    else Node.reedJumpTo r (.to (n.skipInstrs c r.pc 2)))

def execReedDbnz (c : CoreId) (x : Fin 16) (off : Int) (s : State) : Host.Outcome State Fault Refusal :=
  s.hub (fun n => reedDbnz n c x off)

/-- REP (R173): the next LEN instructions run COUNT times; a register count is clamped, and one of 0 or below skips the
body. -/
def reedRep (n : Node) (c : CoreId) (len : Fin 64) (count : RepCount) : Node :=
  let body := len.val + 1
  n.reedIssue c 1 (fun n r =>
    match count with
    | .imm k => .ok n { r with reps := ⟨r.pc, body, body, k.val + 1⟩ :: r.reps } []
    | .reg x =>
      let v := (xr r x).toInt
      let most := 256 / body
      if v ≤ 0 then .ok n { r with pc := n.skipInstrs c r.pc body } []
      else if (most : Int) < v then
        .ok (n.bump (rcxPage c) Fld.rcxPcntRepclamp 1 255) { r with reps := ⟨r.pc, body, body, most⟩ :: r.reps } []
      else .ok n { r with reps := ⟨r.pc, body, body, v.toNat⟩ :: r.reps } [])

def execReedRep (c : CoreId) (len : Fin 64) (count : RepCount) (s : State) : Host.Outcome State Fault Refusal :=
  s.hub (fun n => reedRep n c len count)

/-- RETI (R176): ST from IST and a return to IPC after two delay slots. Outside a handler it is a NOP (DESIGN CHOICE,
notes/assumptions/198.md). -/
def reedReti (n : Node) (c : CoreId) : Node :=
  n.reedPlain c 1 (fun r => if r.mode = .handler then Node.reedJumpTo r .reti else r)

def execReedReti (c : CoreId) (s : State) : Host.Outcome State Fault Refusal :=
  s.hub (fun n => reedReti n c)

/-- ADD (R179). Sets Z, N, V and C. -/
def reedAdd (n : Node) (c : CoreId) (d a : Fin 16) (b : Opnd) : Node :=
  n.reedArith c d a b addWord

def execReedAdd (c : CoreId) (d a : Fin 16) (b : Opnd) (s : State) : Host.Outcome State Fault Refusal :=
  s.hub (fun n => reedAdd n c d a b)

/-- SUB (R179). Sets Z, N, V and C. -/
def reedSub (n : Node) (c : CoreId) (d a : Fin 16) (b : Opnd) : Node :=
  n.reedArith c d a b subWord

def execReedSub (c : CoreId) (d a : Fin 16) (b : Opnd) (s : State) : Host.Outcome State Fault Refusal :=
  s.hub (fun n => reedSub n c d a b)

/-- AND (R179): sets Z and N. -/
def reedAnd (n : Node) (c : CoreId) (d a : Fin 16) (b : Opnd) : Node :=
  n.reedAlu c d a b (· &&& ·) flagsZN

def execReedAnd (c : CoreId) (d a : Fin 16) (b : Opnd) (s : State) : Host.Outcome State Fault Refusal :=
  s.hub (fun n => reedAnd n c d a b)

/-- OR (R179): sets Z and N. -/
def reedOr (n : Node) (c : CoreId) (d a : Fin 16) (b : Opnd) : Node :=
  n.reedAlu c d a b (· ||| ·) flagsZN

def execReedOr (c : CoreId) (d a : Fin 16) (b : Opnd) (s : State) : Host.Outcome State Fault Refusal :=
  s.hub (fun n => reedOr n c d a b)

/-- XOR (R179): sets Z and N. -/
def reedXor (n : Node) (c : CoreId) (d a : Fin 16) (b : Opnd) : Node :=
  n.reedAlu c d a b (· ^^^ ·) flagsZN

def execReedXor (c : CoreId) (d a : Fin 16) (b : Opnd) (s : State) : Host.Outcome State Fault Refusal :=
  s.hub (fun n => reedXor n c d a b)

/-- SHL (R179): sets Z and N. -/
def reedShl (n : Node) (c : CoreId) (d a : Fin 16) (b : Opnd) : Node :=
  n.reedAlu c d a b (fun x y => x <<< (y.toNat % 32)) flagsZN

def execReedShl (c : CoreId) (d a : Fin 16) (b : Opnd) (s : State) : Host.Outcome State Fault Refusal :=
  s.hub (fun n => reedShl n c d a b)

/-- SHR (R179): sets Z and N. -/
def reedShr (n : Node) (c : CoreId) (d a : Fin 16) (b : Opnd) : Node :=
  n.reedAlu c d a b (fun x y => x >>> (y.toNat % 32)) flagsZN

def execReedShr (c : CoreId) (d a : Fin 16) (b : Opnd) (s : State) : Host.Outcome State Fault Refusal :=
  s.hub (fun n => reedShr n c d a b)

/-- ASR (R179): sets Z and N. -/
def reedAsr (n : Node) (c : CoreId) (d a : Fin 16) (b : Opnd) : Node :=
  n.reedAlu c d a b (fun x y => x.sshiftRight (y.toNat % 32)) flagsZN

def execReedAsr (c : CoreId) (d a : Fin 16) (b : Opnd) (s : State) : Host.Outcome State Fault Refusal :=
  s.hub (fun n => reedAsr n c d a b)

/-- MIN, signed (R179): sets Z and N. -/
def reedMin (n : Node) (c : CoreId) (d a : Fin 16) (b : Opnd) : Node :=
  n.reedAlu c d a b (fun x y => if x.toInt ≤ y.toInt then x else y) flagsZN

def execReedMin (c : CoreId) (d a : Fin 16) (b : Opnd) (s : State) : Host.Outcome State Fault Refusal :=
  s.hub (fun n => reedMin n c d a b)

/-- MAX, signed (R179): sets Z and N. -/
def reedMax (n : Node) (c : CoreId) (d a : Fin 16) (b : Opnd) : Node :=
  n.reedAlu c d a b (fun x y => if x.toInt ≤ y.toInt then y else x) flagsZN

def execReedMax (c : CoreId) (d a : Fin 16) (b : Opnd) (s : State) : Host.Outcome State Fault Refusal :=
  s.hub (fun n => reedMax n c d a b)

/-- ADDS (R166): the sum saturates to the signed 32-bit range. -/
def reedAdds (n : Node) (c : CoreId) (d a : Fin 16) (b : Opnd) : Node :=
  n.reedSat c d a b (· + ·)

def execReedAdds (c : CoreId) (d a : Fin 16) (b : Opnd) (s : State) : Host.Outcome State Fault Refusal :=
  s.hub (fun n => reedAdds n c d a b)

/-- SUBS (R166): the difference saturates to the signed 32-bit range. -/
def reedSubs (n : Node) (c : CoreId) (d a : Fin 16) (b : Opnd) : Node :=
  n.reedSat c d a b (· - ·)

def execReedSubs (c : CoreId) (d a : Fin 16) (b : Opnd) (s : State) : Host.Outcome State Fault Refusal :=
  s.hub (fun n => reedSubs n c d a b)

/-- MULL (R179): the low 32 bits of the product; no flag is set. -/
def reedMull (n : Node) (c : CoreId) (d a : Fin 16) (b : Opnd) : Node :=
  n.reedAlu c d a b (· * ·) (fun _ r => r)

def execReedMull (c : CoreId) (d a : Fin 16) (b : Opnd) (s : State) : Host.Outcome State Fault Refusal :=
  s.hub (fun n => reedMull n c d a b)

/-- CMP (R179): the flags of A − B. -/
def reedCmp (n : Node) (c : CoreId) (a : Fin 16) (b : Opnd) : Node :=
  n.reedPlain c (opndLen b) (fun r => flagsZNVC (subWord (xr r a) (opnd r b)) r)

def execReedCmp (c : CoreId) (a : Fin 16) (b : Opnd) (s : State) : Host.Outcome State Fault Refusal :=
  s.hub (fun n => reedCmp n c a b)

/-- MOV (R179): no flags are set. -/
def reedMov (n : Node) (c : CoreId) (d : Fin 16) (b : Opnd) : Node :=
  n.reedPlain c (opndLen b) (fun r => setX r d.val (opnd r b))

def execReedMov (c : CoreId) (d : Fin 16) (b : Opnd) (s : State) : Host.Outcome State Fault Refusal :=
  s.hub (fun n => reedMov n c d b)

/-- ABS (R179). -/
def reedAbs (n : Node) (c : CoreId) (d a : Fin 16) : Node :=
  n.reedNegate c d a (fun v => if v < 0 then -v else v)

def execReedAbs (c : CoreId) (d a : Fin 16) (s : State) : Host.Outcome State Fault Refusal :=
  s.hub (fun n => reedAbs n c d a)

/-- NEG (R179). -/
def reedNeg (n : Node) (c : CoreId) (d a : Fin 16) : Node :=
  n.reedNegate c d a (fun v => -v)

def execReedNeg (c : CoreId) (d a : Fin 16) (s : State) : Host.Outcome State Fault Refusal :=
  s.hub (fun n => reedNeg n c d a)

/-- LD (R169, R171): the loaded word is seen from the second instruction after. -/
def reedLd (n : Node) (c : CoreId) (x : Fin 16) (addr : ReedAddr) : Node :=
  n.reedIssue c (addrLen addr) (fun n r =>
    let (as, r) := access r false addr
    n.doLoads c (as.map (fun a => (x.val, a))) r)

def execReedLd (c : CoreId) (x : Fin 16) (addr : ReedAddr) (s : State) : Host.Outcome State Fault Refusal :=
  s.hub (fun n => reedLd n c x addr)

/-- ST (R169). -/
def reedSt (n : Node) (c : CoreId) (x : Fin 16) (addr : ReedAddr) : Node :=
  n.reedIssue c (addrLen addr) (fun n r =>
    let (as, r') := access r false addr
    n.doStores c (as.map (fun a => (a, xr r x))) r')

def execReedSt (c : CoreId) (x : Fin 16) (addr : ReedAddr) (s : State) : Host.Outcome State Fault Refusal :=
  s.hub (fun n => reedSt n c x addr)

/-- LD2 (R169): a register pair from two words in a row. -/
def reedLd2 (n : Node) (c : CoreId) (pair : Fin 8) (addr : ReedAddr) : Node :=
  n.reedIssue c (addrLen addr) (fun n r =>
    let (as, r) := access r true addr
    n.doLoads c [(2 * pair.val, as.getD 0 0), (2 * pair.val + 1, as.getD 1 0)] r)

def execReedLd2 (c : CoreId) (pair : Fin 8) (addr : ReedAddr) (s : State) : Host.Outcome State Fault Refusal :=
  s.hub (fun n => reedLd2 n c pair addr)

/-- ST2 (R169): a register pair to two words in a row. -/
def reedSt2 (n : Node) (c : CoreId) (pair : Fin 8) (addr : ReedAddr) : Node :=
  n.reedIssue c (addrLen addr) (fun n r =>
    let (as, r') := access r true addr
    let w := Node.pairX r pair
    n.doStores c [(as.getD 0 0, w.1), (as.getD 1 0, w.2)] r')

def execReedSt2 (c : CoreId) (pair : Fin 8) (addr : ReedAddr) (s : State) : Host.Outcome State Fault Refusal :=
  s.hub (fun n => reedSt2 n c pair addr)

/-- MAC (R166, R179): AC + p. -/
def reedMac (n : Node) (c : CoreId) (ac : Fin 4) (xa xb : Fin 16) (f : Fin 4) (ld : Option MacLoad) : Node :=
  n.reedMul c ac xa xb f ld (· + ·)

def execReedMac (c : CoreId) (ac : Fin 4) (xa xb : Fin 16) (f : Fin 4) (ld : Option MacLoad) (s : State) : Host.Outcome State Fault Refusal :=
  s.hub (fun n => reedMac n c ac xa xb f ld)

/-- MSU (R179): AC − p. -/
def reedMsu (n : Node) (c : CoreId) (ac : Fin 4) (xa xb : Fin 16) (f : Fin 4) (ld : Option MacLoad) : Node :=
  n.reedMul c ac xa xb f ld (· - ·)

def execReedMsu (c : CoreId) (ac : Fin 4) (xa xb : Fin 16) (f : Fin 4) (ld : Option MacLoad) (s : State) : Host.Outcome State Fault Refusal :=
  s.hub (fun n => reedMsu n c ac xa xb f ld)

/-- MPY (R179): p. -/
def reedMpy (n : Node) (c : CoreId) (ac : Fin 4) (xa xb : Fin 16) (f : Fin 4) (ld : Option MacLoad) : Node :=
  n.reedMul c ac xa xb f ld (fun _ p => p)

def execReedMpy (c : CoreId) (ac : Fin 4) (xa xb : Fin 16) (f : Fin 4) (ld : Option MacLoad) (s : State) : Host.Outcome State Fault Refusal :=
  s.hub (fun n => reedMpy n c ac xa xb f ld)

/-- MPYN (R179): −p. -/
def reedMpyn (n : Node) (c : CoreId) (ac : Fin 4) (xa xb : Fin 16) (f : Fin 4) (ld : Option MacLoad) : Node :=
  n.reedMul c ac xa xb f ld (fun _ p => -p)

def execReedMpyn (c : CoreId) (ac : Fin 4) (xa xb : Fin 16) (f : Fin 4) (ld : Option MacLoad) (s : State) : Host.Outcome State Fault Refusal :=
  s.hub (fun n => reedMpyn n c ac xa xb f ld)

/-- DMACS (R179): one accumulator takes both products. -/
def reedDmacs (n : Node) (c : CoreId) (sub : Bool) (ac : Fin 4) (pa pb : Fin 8) (f : Fin 4) (l1 l2 : Option PairLoad) : Node :=
  n.reedDual c l1 l2 (fun r =>
    let a := Node.pairX r pa
    let b := Node.pairX r pb
    let p := product a.1 b.1 f + product a.2 b.2 f
    putAcc r ac.val ((acc r ac.val).toInt + (if sub then -p else p)))

def execReedDmacs (c : CoreId) (sub : Bool) (ac : Fin 4) (pa pb : Fin 8) (f : Fin 4) (l1 l2 : Option PairLoad) (s : State) : Host.Outcome State Fault Refusal :=
  s.hub (fun n => reedDmacs n c sub ac pa pb f l1 l2)

/-- DMACP (R179): two accumulators take one product each, both with the first word of the second pair. -/
def reedDmacp (n : Node) (c : CoreId) (sub : Bool) (q : Fin 2) (pa pb : Fin 8) (f : Fin 4) (l1 l2 : Option PairLoad) : Node :=
  n.reedDual c l1 l2 (fun r =>
    let a := Node.pairX r pa
    let b := Node.pairX r pb
    let p1 := product a.1 b.1 f
    let p2 := product a.2 b.1 f
    let r := putAcc r (2 * q.val) ((acc r (2 * q.val)).toInt + (if sub then -p1 else p1))
    putAcc r (2 * q.val + 1) ((acc r (2 * q.val + 1)).toInt + (if sub then -p2 else p2)))

def execReedDmacp (c : CoreId) (sub : Bool) (q : Fin 2) (pa pb : Fin 8) (f : Fin 4) (l1 l2 : Option PairLoad) (s : State) : Host.Outcome State Fault Refusal :=
  s.hub (fun n => reedDmacp n c sub q pa pb f l1 l2)

/-- CLR (R179). -/
def reedClr (n : Node) (c : CoreId) (k : Fin 4) : Node :=
  n.reedPlain c 1 (fun r => setAcc r k.val 0)

def execReedClr (c : CoreId) (k : Fin 4) (s : State) : Host.Outcome State Fault Refusal :=
  s.hub (fun n => reedClr n c k)

/-- STQ (R166): an accumulator stored in format F. -/
def reedStq (n : Node) (c : CoreId) (d : Fin 16) (k : Fin 4) (f : Fin 4) : Node :=
  n.reedPlain c 1 (fun r =>
    let res := storeAcc (acc r k.val) f
    let r := setX r d.val res.1
    if res.2 then setFlag r stSatStore true else r)

def execReedStq (c : CoreId) (d : Fin 16) (k : Fin 4) (f : Fin 4) (s : State) : Host.Outcome State Fault Refusal :=
  s.hub (fun n => reedStq n c d k f)

/-- RDG (R179): bits [79:64], sign-extended. -/
def reedRdg (n : Node) (c : CoreId) (d : Fin 16) (k : Fin 4) : Node :=
  n.reedPlain c 1 (fun r => setX r d.val (((acc r k.val).extractLsb' 64 16).signExtend 32))

def execReedRdg (c : CoreId) (d : Fin 16) (k : Fin 4) (s : State) : Host.Outcome State Fault Refusal :=
  s.hub (fun n => reedRdg n c d k)

/-- RDH (R179): bits [63:32]. -/
def reedRdh (n : Node) (c : CoreId) (d : Fin 16) (k : Fin 4) : Node :=
  n.reedPlain c 1 (fun r => setX r d.val ((acc r k.val).extractLsb' 32 32))

def execReedRdh (c : CoreId) (d : Fin 16) (k : Fin 4) (s : State) : Host.Outcome State Fault Refusal :=
  s.hub (fun n => reedRdh n c d k)

/-- RDL (R179): bits [31:0]. -/
def reedRdl (n : Node) (c : CoreId) (d : Fin 16) (k : Fin 4) : Node :=
  n.reedPlain c 1 (fun r => setX r d.val ((acc r k.val).extractLsb' 0 32))

def execReedRdl (c : CoreId) (d : Fin 16) (k : Fin 4) (s : State) : Host.Outcome State Fault Refusal :=
  s.hub (fun n => reedRdl n c d k)

/-- LDA (R179): A, or the immediate, aligned as format F. -/
def reedLda (n : Node) (c : CoreId) (k : Fin 4) (a : Opnd) (f : Fin 4) : Node :=
  n.reedPlain c (opndLen a) (fun r => setAcc r k.val (((opnd r a).signExtend 80) <<< loadShift f))

def execReedLda (c : CoreId) (k : Fin 4) (a : Opnd) (f : Fin 4) (s : State) : Host.Outcome State Fault Refusal :=
  s.hub (fun n => reedLda n c k a f)

/-- WRL (R179): bits [31:0] := A, or the immediate. -/
def reedWrl (n : Node) (c : CoreId) (k : Fin 4) (a : Opnd) : Node :=
  n.reedPlain c (opndLen a) (fun r => setAcc r k.val (((acc r k.val) >>> 32) <<< 32 ||| (opnd r a).setWidth 80))

def execReedWrl (c : CoreId) (k : Fin 4) (a : Opnd) (s : State) : Host.Outcome State Fault Refusal :=
  s.hub (fun n => reedWrl n c k a)

/-- ADDA (R179). -/
def reedAdda (n : Node) (c : CoreId) (k m : Fin 4) : Node :=
  n.reedPlain c 1 (fun r => putAcc r k.val ((acc r k.val).toInt + (acc r m.val).toInt))

def execReedAdda (c : CoreId) (k m : Fin 4) (s : State) : Host.Outcome State Fault Refusal :=
  s.hub (fun n => reedAdda n c k m)

/-- SUBA (R179). -/
def reedSuba (n : Node) (c : CoreId) (k m : Fin 4) : Node :=
  n.reedPlain c 1 (fun r => putAcc r k.val ((acc r k.val).toInt - (acc r m.val).toInt))

def execReedSuba (c : CoreId) (k m : Fin 4) (s : State) : Host.Outcome State Fault Refusal :=
  s.hub (fun n => reedSuba n c k m)

/-- ASH (R179). -/
def reedAsh (n : Node) (c : CoreId) (k : Fin 4) (a : Opnd) : Node :=
  n.reedPlain c (opndLen a) (fun r => putAcc r k.val (ashInt (acc r k.val) (opnd r a).toInt))

def execReedAsh (c : CoreId) (k : Fin 4) (a : Opnd) (s : State) : Host.Outcome State Fault Refusal :=
  s.hub (fun n => reedAsh n c k a)

/-- EXP (R181). -/
def reedExp (n : Node) (c : CoreId) (d : Fin 16) (k : Fin 4) : Node :=
  n.reedPlain c 1 (fun r => setX r d.val (BitVec.ofInt 32 (expOf (acc r k.val))))

def execReedExp (c : CoreId) (d : Fin 16) (k : Fin 4) (s : State) : Host.Outcome State Fault Refusal :=
  s.hub (fun n => reedExp n c d k)

/-- NORM (R181). -/
def reedNorm (n : Node) (c : CoreId) (d : Fin 16) (k : Fin 4) : Node :=
  n.reedPlain c 1 (fun r =>
    let a := acc r k.val
    setX (setAcc r k.val (BitVec.ofInt 80 (ashInt a (expOf a)))) d.val (BitVec.ofInt 32 (expOf a)))

def execReedNorm (c : CoreId) (d : Fin 16) (k : Fin 4) (s : State) : Host.Outcome State Fault Refusal :=
  s.hub (fun n => reedNorm n c d k)

/-- ABSA (R179). -/
def reedAbsa (n : Node) (c : CoreId) (k : Fin 4) : Node :=
  n.reedPlain c 1 (fun r => let v := (acc r k.val).toInt; putAcc r k.val (if v < 0 then -v else v))

def execReedAbsa (c : CoreId) (k : Fin 4) (s : State) : Host.Outcome State Fault Refusal :=
  s.hub (fun n => reedAbsa n c k)

/-- NEGA (R179). -/
def reedNega (n : Node) (c : CoreId) (k : Fin 4) : Node :=
  n.reedPlain c 1 (fun r => putAcc r k.val (-(acc r k.val).toInt))

def execReedNega (c : CoreId) (k : Fin 4) (s : State) : Host.Outcome State Fault Refusal :=
  s.hub (fun n => reedNega n c k)

/-- MOVA (R179). -/
def reedMova (n : Node) (c : CoreId) (k m : Fin 4) : Node :=
  n.reedPlain c 1 (fun r => setAcc r k.val (acc r m.val))

def execReedMova (c : CoreId) (k m : Fin 4) (s : State) : Host.Outcome State Fault Refusal :=
  s.hub (fun n => reedMova n c k m)

/-- SETP (R170, R179). -/
def reedSetp (n : Node) (c : CoreId) (k : Fin 8) (a : Opnd) : Node :=
  n.reedPlain c (opndLen a) (fun r => { r with p := r.p.set k.val ((opnd r a).setWidth 16) })

def execReedSetp (c : CoreId) (k : Fin 8) (a : Opnd) (s : State) : Host.Outcome State Fault Refusal :=
  s.hub (fun n => reedSetp n c k a)

/-- SETM (R170, R179). -/
def reedSetm (n : Node) (c : CoreId) (k : Fin 8) (a : Opnd) : Node :=
  n.reedPlain c (opndLen a) (fun r => { r with m := r.m.set k.val ((opnd r a).setWidth 16) })

def execReedSetm (c : CoreId) (k : Fin 8) (a : Opnd) (s : State) : Host.Outcome State Fault Refusal :=
  s.hub (fun n => reedSetm n c k a)

/-- SETB (R170, R179). -/
def reedSetb (n : Node) (c : CoreId) (k : Fin 8) (a : Opnd) : Node :=
  n.reedPlain c (opndLen a) (fun r => { r with b := r.b.set k.val ((opnd r a).setWidth 16) })

def execReedSetb (c : CoreId) (k : Fin 8) (a : Opnd) (s : State) : Host.Outcome State Fault Refusal :=
  s.hub (fun n => reedSetb n c k a)

/-- SETL (R170, R179). -/
def reedSetl (n : Node) (c : CoreId) (k : Fin 8) (a : Opnd) : Node :=
  n.reedPlain c (opndLen a) (fun r => { r with l := r.l.set k.val ((opnd r a).setWidth 16) })

def execReedSetl (c : CoreId) (k : Fin 8) (a : Opnd) (s : State) : Host.Outcome State Fault Refusal :=
  s.hub (fun n => reedSetl n c k a)

/-- GETP (R179). -/
def reedGetp (n : Node) (c : CoreId) (d : Fin 16) (k : Fin 8) : Node :=
  n.reedBare c (fun r => setX r d.val ((r.p.getD k.val 0).setWidth 32))

def execReedGetp (c : CoreId) (d : Fin 16) (k : Fin 8) (s : State) : Host.Outcome State Fault Refusal :=
  s.hub (fun n => reedGetp n c d k)

/-- GETM, sign-extended (R179). -/
def reedGetm (n : Node) (c : CoreId) (d : Fin 16) (k : Fin 8) : Node :=
  n.reedBare c (fun r => setX r d.val ((r.m.getD k.val 0).signExtend 32))

def execReedGetm (c : CoreId) (d : Fin 16) (k : Fin 8) (s : State) : Host.Outcome State Fault Refusal :=
  s.hub (fun n => reedGetm n c d k)

/-- GETB (R179). -/
def reedGetb (n : Node) (c : CoreId) (d : Fin 16) (k : Fin 8) : Node :=
  n.reedBare c (fun r => setX r d.val ((r.b.getD k.val 0).setWidth 32))

def execReedGetb (c : CoreId) (d : Fin 16) (k : Fin 8) (s : State) : Host.Outcome State Fault Refusal :=
  s.hub (fun n => reedGetb n c d k)

/-- GETL (R179). -/
def reedGetl (n : Node) (c : CoreId) (d : Fin 16) (k : Fin 8) : Node :=
  n.reedBare c (fun r => setX r d.val ((r.l.getD k.val 0).setWidth 32))

def execReedGetl (c : CoreId) (d : Fin 16) (k : Fin 8) (s : State) : Host.Outcome State Fault Refusal :=
  s.hub (fun n => reedGetl n c d k)

/-- ADDP (R170). -/
def reedAddp (n : Node) (c : CoreId) (k : Fin 8) (a : Opnd) : Node :=
  n.reedPlain c (opndLen a) (fun r => modPtr r k.val (opnd r a).toInt)

def execReedAddp (c : CoreId) (k : Fin 8) (a : Opnd) (s : State) : Host.Outcome State Fault Refusal :=
  s.hub (fun n => reedAddp n c k a)

/-- XRD (R177). -/
def reedXrd (n : Node) (c : CoreId) (ch : Fin 4) (a : Opnd) (p : Fin 8) (len : BitVec 13) : Node :=
  n.reedXfer c false ch a p len.toNat

def execReedXrd (c : CoreId) (ch : Fin 4) (a : Opnd) (p : Fin 8) (len : BitVec 13) (s : State) : Host.Outcome State Fault Refusal :=
  s.hub (fun n => reedXrd n c ch a p len)

/-- XWR (R177). -/
def reedXwr (n : Node) (c : CoreId) (ch : Fin 4) (a : Opnd) (p : Fin 8) (len : BitVec 13) : Node :=
  n.reedXfer c true ch a p len.toNat

def execReedXwr (c : CoreId) (ch : Fin 4) (a : Opnd) (p : Fin 8) (len : BitVec 13) (s : State) : Host.Outcome State Fault Refusal :=
  s.hub (fun n => reedXwr n c ch a p len)

/-- WAITX (R177): stalls until every channel in its mask is idle. -/
def reedWaitx (n : Node) (c : CoreId) (mask : BitVec 4) : Node :=
  n.reedIssue c 1 (fun n r =>
    if Node.busyChans r &&& mask.toNat = 0 then .ok n (Node.confirmChans r mask.toNat) [] else .stalls (.waitx mask.toNat))

def execReedWaitx (c : CoreId) (mask : BitVec 4) (s : State) : Host.Outcome State Fault Refusal :=
  s.hub (fun n => reedWaitx n c mask)

/-- XST (R179): the busy channels. -/
def reedXst (n : Node) (c : CoreId) (d : Fin 16) : Node :=
  n.reedBare c (fun r => setX r d.val (BitVec.ofNat 32 (Node.busyChans r)))

def execReedXst (c : CoreId) (d : Fin 16) (s : State) : Host.Outcome State Fault Refusal :=
  s.hub (fun n => reedXst n c d)

/-- GETS (R165, R179); EVTHIT reads and clears. -/
def reedGets (n : Node) (c : CoreId) (d : Fin 16) (sr : Special) : Node :=
  n.reedPlain c 1 (fun r =>
    let r' := setX r d.val (n.getSpecial c r sr)
    if sr = .evthit then { r' with evthit := 0 } else r')

def execReedGets (c : CoreId) (d : Fin 16) (sr : Special) (s : State) : Host.Outcome State Fault Refusal :=
  s.hub (fun n => reedGets n c d sr)

/-- SETS (R165, R179). -/
def reedSets (n : Node) (c : CoreId) (sr : Special) (a : Fin 16) : Node :=
  n.reedPlain c 1 (fun r => Node.setSpecial r (xr r a) sr)

def execReedSets (c : CoreId) (sr : Special) (a : Fin 16) (s : State) : Host.Outcome State Fault Refusal :=
  s.hub (fun n => reedSets n c sr a)

/-- EI (R179). -/
def reedEi (n : Node) (c : CoreId) : Node :=
  n.reedPlain c 1 (fun r => setFlag r stIE true)

def execReedEi (c : CoreId) (s : State) : Host.Outcome State Fault Refusal :=
  s.hub (fun n => reedEi n c)

/-- DI (R179). -/
def reedDi (n : Node) (c : CoreId) : Node :=
  n.reedPlain c 1 (fun r => setFlag r stIE false)

def execReedDi (c : CoreId) (s : State) : Host.Outcome State Fault Refusal :=
  s.hub (fun n => reedDi n c)

/-- MBXR (R179) (DEDUCED, notes/assumptions/79.md). -/
def reedMbxr (n : Node) (c : CoreId) (d : Fin 16) (i : Fin 4) : Node :=
  n.reedPlain c 1 (fun r => setX r d.val (n.reg (rcxPage c) (0x080 + 4 * i.val)))

def execReedMbxr (c : CoreId) (d : Fin 16) (i : Fin 4) (s : State) : Host.Outcome State Fault Refusal :=
  s.hub (fun n => reedMbxr n c d i)

/-- MBXW (R179). -/
def reedMbxw (n : Node) (c : CoreId) (i : Fin 4) (a : Fin 16) : Node :=
  n.reedIssue c 1 (fun n r => .ok (n.setReg (rcxPage c) (0x090 + 4 * i.val) (xr r a)) r [])

def execReedMbxw (c : CoreId) (i : Fin 4) (a : Fin 16) (s : State) : Host.Outcome State Fault Refusal :=
  s.hub (fun n => reedMbxw n c i a)

/-- MBXDONE (R179): MBX_CTL.DONE and RCX PG_IRQ bit 0. -/
def reedMbxdone (n : Node) (c : CoreId) : Node :=
  n.reedIssue c 1 (fun n r => .ok ((n.setFld (rcxPage c) Fld.rcxMbxCtlDone 1).irq (rcxPage c) 0) r [])

def execReedMbxdone (c : CoreId) (s : State) : Host.Outcome State Fault Refusal :=
  s.hub (fun n => reedMbxdone n c)

/-- EVT (R179): RCX.EVTCODE and PG_IRQ bit 3. -/
def reedEvt (n : Node) (c : CoreId) (code : BitVec 10) : Node :=
  n.reedIssue c 1 (fun n r =>
    .ok ((n.setReg (rcxPage c) 0x0B0 (BitVec.ofNat 32 (2 ^ 31 + r.slot % 8 * 2 ^ 10 + code.toNat))).irq (rcxPage c) 3) r [])

def execReedEvt (c : CoreId) (code : BitVec 10) (s : State) : Host.Outcome State Fault Refusal :=
  s.hub (fun n => reedEvt n c code)

/-- SATCLR (R166). -/
def reedSatclr (n : Node) (c : CoreId) : Node :=
  n.reedPlain c 1 (fun r => setFlag (setFlag (setFlag r stSatAcc false) stSatStore false) stSatAlu false)

def execReedSatclr (c : CoreId) (s : State) : Host.Outcome State Fault Refusal :=
  s.hub (fun n => reedSatclr n c)

/-- REED_TRANSFER_COMPLETE (R177): the oldest transfer of a channel ends, after `cycles` cycles of any stall that it ends;
a transfer that waited for the channel then issues, and a WAITX whose channels are all idle completes. A run that its
stall takes past its budget stops in it (R163), and a handler waits to be abandoned (R176). Words that land in Fen meet the items that run
there, as those of window writes do (R121). -/
def reedXferDone (n : Node) (c : CoreId) (ch : Nat) (cycles : Nat) : Node :=
  match (n.reed c).chans.getD ch [] with
  | [] => n
  | x :: rest =>
    let before := n
    let n := n.moveWords c x
    let n := if x.write then n.rerunItems before c.die.val else n
    let n := n.modReed c (fun r => { r with chans := r.chans.set ch rest })
    let r := n.reed c
    match r.stall with
    | some (.xfer k x') => if (r.chans.getD k []).isEmpty then stallEnds n c cycles (fun n r => startAt n c k x' r) else n
    | some (.waitx mask) =>
      if Node.busyChans r &&& mask = 0 then
        stallEnds n c cycles (fun n r => (n, Node.confirmChans { r with pc := r.pc + 1 } mask))
      else n
    | none => n
where
  /-- The stall ends after its cycles, and the instruction `f` issues; or the stall uses the budget up. -/
  stallEnds (n : Node) (c : CoreId) (cycles : Nat) (f : Node → ReedCore → Node × ReedCore) : Node :=
    let r := n.reed c
    let held := if r.holdoff = 0 then 0 else r.holdoff + cycles
    if r.mode = .handler then
      if r.runsOver then stallDone n c { r with stall := none, holdoff := held } f
      else if n.irqBudget c ≤ r.irqCycles + cycles then
        n.setReed c { r with stall := none, irqCycles := n.irqBudget c }
      else stallDone n c { r with stall := none, irqCycles := r.irqCycles + cycles, holdoff := held } f
    else if n.reedBudget c ≤ r.cyc + cycles then
      (n.setReed c { r with stall := none, cyc := Nat.max r.cyc (n.reedBudget c) }).reedStop c .overrun
    else stallDone n c { r with stall := none, cyc := r.cyc + cycles, holdoff := held } f
  stallDone (n : Node) (c : CoreId) (r : ReedCore) (f : Node → ReedCore → Node × ReedCore) : Node :=
    let (n, r') := f n r
    n.reedRetire c r r' []
  startAt (n : Node) (c : CoreId) (k : Nat) (x : ReedXfer) (r : ReedCore) : Node × ReedCore :=
    Node.reedStartXfer { r with pc := r.pc + n.instrLen c r.pc } n c k x

def execReedTransferComplete (c : CoreId) (ch : Fin 4) (cycles : Nat) (s : State) : Host.Outcome State Fault Refusal :=
  s.hub (fun n => reedXferDone n c ch.val cycles)

end Sys2Proof.Machine
end

