-- ==== Sys2Proof/Machine/Dispatch.lean ====
section
/-! DEFINITION. One arm for each command: a call of its meaning. -/

namespace Sys2Proof.Machine

/-- The effect of one command on everything but the queue. -/
def exec (i : Instr) (s : State) : Host.Outcome State Fault Refusal :=
  match i with
  | .registerWrite src page off value bytes others => Sys2Proof.Machine.execRegisterWrite src page off value bytes others s
  | .rcRead src page off writes => Sys2Proof.Machine.execRcRead src page off writes s
  | .memoryWrite src addr data others => Sys2Proof.Machine.execMemoryWrite src addr data others s
  | .decodeErrorAccess src addr write => Sys2Proof.Machine.execDecodeErrorAccess src addr write s
  | .absentDieAccess src addr write => Sys2Proof.Machine.execAbsentDieAccess src addr write s
  | .poisonedBurstRead reader addr => Sys2Proof.Machine.execPoisonedBurstRead reader addr s
  | .matrixRequest reqs => Sys2Proof.Machine.execMatrixRequest reqs s
  | .heldRequestRelease master id target => Sys2Proof.Machine.execHeldRequestRelease master id target s
  | .mtxRemapWrite src value => Sys2Proof.Machine.execMtxRemapWrite src value s
  | .pageEnable src page => Sys2Proof.Machine.execPageEnable src page s
  | .pageDisable src page => Sys2Proof.Machine.execPageDisable src page s
  | .shutdownComplete page => Sys2Proof.Machine.execShutdownComplete page s
  | .softReset src page => Sys2Proof.Machine.execSoftReset src page s
  | .pageFreeze src page on => Sys2Proof.Machine.execPageFreeze src page on s
  | .irqTestSet src page bits => Sys2Proof.Machine.execIrqTestSet src page bits s
  | .pageCommitRequest src page => Sys2Proof.Machine.execPageCommitRequest src page s
  | .groupCommitRequest src => Sys2Proof.Machine.execGroupCommitRequest src s
  | .commitCutoff => Sys2Proof.Machine.execCommitCutoff s
  | .keyCodeWrite src page code => Sys2Proof.Machine.execKeyCodeWrite src page code s
  | .keyExpiry page => Sys2Proof.Machine.execKeyExpiry page s
  | .mailboxDoorbell src ring => Sys2Proof.Machine.execMailboxDoorbell src ring s
  | .mailboxResponse slot code detail data => Sys2Proof.Machine.execMailboxResponse slot code detail data s
  | .mailboxTimeout slot => Sys2Proof.Machine.execMailboxTimeout slot s
  | .casementBoundary ev => Sys2Proof.Machine.execCasementBoundary ev s
  | .casReindexNow src => Sys2Proof.Machine.execCasReindexNow src s
  | .reindexGenerationStop => Sys2Proof.Machine.execReindexGenerationStop s
  | .reindexResume => Sys2Proof.Machine.execReindexResume s
  | .rateReadmitAnswer => Sys2Proof.Machine.execRateReadmitAnswer s
  | .rateReadmitTimeout => Sys2Proof.Machine.execRateReadmitTimeout s
  | .casGenerationStop => Sys2Proof.Machine.execCasGenerationStop s
  | .casIndexRead src => Sys2Proof.Machine.execCasIndexRead src s
  | .workDeadline => Sys2Proof.Machine.execWorkDeadline s
  | .unfinishedItemEnd die unit item => Sys2Proof.Machine.execUnfinishedItemEnd die unit item s
  | .lintelTransferArrival die link what flaw => Sys2Proof.Machine.execLintelTransferArrival die link what flaw s
  | .workItemStart die slot item => Sys2Proof.Machine.execWorkItemStart die slot item s
  | .workItemComplete die slot => Sys2Proof.Machine.execWorkItemComplete die slot s
  | .routeCompile slot addrLo addrHi => Sys2Proof.Machine.execRouteCompile slot addrLo addrHi s
  | .routeCompileDone job cfg => Sys2Proof.Machine.execRouteCompileDone job cfg s
  | .routeStatus slot job => Sys2Proof.Machine.execRouteStatus slot job s
  | .routeReport slot job first => Sys2Proof.Machine.execRouteReport slot job first s
  | .routeCommit slot job => Sys2Proof.Machine.execRouteCommit slot job s
  | .routeLatency slot job sel => Sys2Proof.Machine.execRouteLatency slot job sel s
  | .routeDiscard slot job => Sys2Proof.Machine.execRouteDiscard slot job s
  | .routeStageStart => Sys2Proof.Machine.execRouteStageStart s
  | .readmitAfterLoss cfg => Sys2Proof.Machine.execReadmitAfterLoss cfg s
  | .followCopyEnd => Sys2Proof.Machine.execFollowCopyEnd s
  | .refillHoldEnd path => Sys2Proof.Machine.execRefillHoldEnd path s
  | .xptObjRead src => Sys2Proof.Machine.execXptObjRead src s
  | .bundleEventReport bundle cause => Sys2Proof.Machine.execBundleEventReport bundle cause s
  | .shutterRequest id req sample => Sys2Proof.Machine.execShutterRequest id req sample s
  | .shutterRampEnd id => Sys2Proof.Machine.execShutterRampEnd id s
  | .protectFadeEnd id => Sys2Proof.Machine.execProtectFadeEnd id s
  | .protectRestoreEnd id => Sys2Proof.Machine.execProtectRestoreEnd id s
  | .muteNAssert => Sys2Proof.Machine.execMuteNAssert s
  | .muteNRelease => Sys2Proof.Machine.execMuteNRelease s
  | .shtMuteAllWrite src on => Sys2Proof.Machine.execShtMuteAllWrite src on s
  | .shtPush src => Sys2Proof.Machine.execShtPush src s
  | .shtRdRead src => Sys2Proof.Machine.execShtRdRead src s
  | .residueMismatch die slot lane stage op err => Sys2Proof.Machine.execResidueMismatch die slot lane stage op err s
  | .engineSelfTestEnd die engine pass => Sys2Proof.Machine.execEngineSelfTestEnd die engine pass s
  | .spareTakeover die => Sys2Proof.Machine.execSpareTakeover die s
  | .spareVectorFail die => Sys2Proof.Machine.execSpareVectorFail die s
  | .penStestRun src die engines => Sys2Proof.Machine.execPenStestRun src die engines s
  | .penInjectArm src die engine count => Sys2Proof.Machine.execPenInjectArm src die engine count s
  | .fenEccError die off uncorrectable => Sys2Proof.Machine.execFenEccError die off uncorrectable s
  | .fenPoisonRewrite die off => Sys2Proof.Machine.execFenPoisonRewrite die off s
  | .fenBankMarchEnd die bank pass => Sys2Proof.Machine.execFenBankMarchEnd die bank pass s
  | .linkCrcError node link flits => Sys2Proof.Machine.execLinkCrcError node link flits s
  | .linkReplayComplete node link => Sys2Proof.Machine.execLinkReplayComplete node link s
  | .linkLaneTestEnd node link bad => Sys2Proof.Machine.execLinkLaneTestEnd node link bad s
  | .linkRetrainComplete node link failed => Sys2Proof.Machine.execLinkRetrainComplete node link failed s
  | .bqdCancel src die => Sys2Proof.Machine.execBqdCancel src die s
  | .bqdSwapreq src die => Sys2Proof.Machine.execBqdSwapreq src die s
  | .bqdPrep src die => Sys2Proof.Machine.execBqdPrep src die s
  | .bqdReadInactive src die => Sys2Proof.Machine.execBqdReadInactive src die s
  | .bqdReadActive src die => Sys2Proof.Machine.execBqdReadActive src die s
  | .bqdWriteInactive src die => Sys2Proof.Machine.execBqdWriteInactive src die s
  | .bqdWriteActive src die => Sys2Proof.Machine.execBqdWriteActive src die s
  | .bqdPrepEnd die kind index => Sys2Proof.Machine.execBqdPrepEnd die kind index s
  | .firCancel src die => Sys2Proof.Machine.execFirCancel src die s
  | .firSwapreq src die => Sys2Proof.Machine.execFirSwapreq src die s
  | .firPrep src die => Sys2Proof.Machine.execFirPrep src die s
  | .firPrepEnd die strip => Sys2Proof.Machine.execFirPrepEnd die strip s
  | .coeffBankSwap die => Sys2Proof.Machine.execCoeffBankSwap die s
  | .steerCopyEnd die => Sys2Proof.Machine.execSteerCopyEnd die s
  | .glideEnd die kind index => Sys2Proof.Machine.execGlideEnd die kind index s
  | .jumpEnd die kind index => Sys2Proof.Machine.execJumpEnd die kind index s
  | .waitFillResume die kind index => Sys2Proof.Machine.execWaitFillResume die kind index s
  | .delayPrefetchArrival die strip => Sys2Proof.Machine.execDelayPrefetchArrival die strip s
  | .poisonHoldEnd die strip => Sys2Proof.Machine.execPoisonHoldEnd die strip s
  | .reedSlotEntry c => Sys2Proof.Machine.execReedSlotEntry c s
  | .reedRunComplete c => Sys2Proof.Machine.execReedRunComplete c s
  | .rcxRestart src c slots => Sys2Proof.Machine.execRcxRestart src c slots s
  | .rcxStest src c => Sys2Proof.Machine.execRcxStest src c s
  | .reedInterruptEntry c cycles => Sys2Proof.Machine.execReedInterruptEntry c cycles s
  | .reedIrqBudgetExceeded c => Sys2Proof.Machine.execReedIrqBudgetExceeded c s
  | .rcxMbxDoorbell src c => Sys2Proof.Machine.execRcxMbxDoorbell src c s
  | .reedTransferComplete c ch cycles => Sys2Proof.Machine.execReedTransferComplete c ch cycles s
  | .reedMemEccError c prog addr uncorrectable met => Sys2Proof.Machine.execReedMemEccError c prog addr uncorrectable met s
  | .reedCoreTestEnd c pass => Sys2Proof.Machine.execReedCoreTestEnd c pass s
  | .rcxMemdataAccess src c write => Sys2Proof.Machine.execRcxMemdataAccess src c write s
  | .reedNop c => Sys2Proof.Machine.execReedNop c s
  | .reedEnd c => Sys2Proof.Machine.execReedEnd c s
  | .reedB c cond target => Sys2Proof.Machine.execReedB c cond target s
  | .reedCall c target => Sys2Proof.Machine.execReedCall c target s
  | .reedRet c => Sys2Proof.Machine.execReedRet c s
  | .reedDbnz c x off => Sys2Proof.Machine.execReedDbnz c x off s
  | .reedRep c len count => Sys2Proof.Machine.execReedRep c len count s
  | .reedReti c => Sys2Proof.Machine.execReedReti c s
  | .reedAdd c d a b => Sys2Proof.Machine.execReedAdd c d a b s
  | .reedSub c d a b => Sys2Proof.Machine.execReedSub c d a b s
  | .reedAnd c d a b => Sys2Proof.Machine.execReedAnd c d a b s
  | .reedOr c d a b => Sys2Proof.Machine.execReedOr c d a b s
  | .reedXor c d a b => Sys2Proof.Machine.execReedXor c d a b s
  | .reedShl c d a b => Sys2Proof.Machine.execReedShl c d a b s
  | .reedShr c d a b => Sys2Proof.Machine.execReedShr c d a b s
  | .reedAsr c d a b => Sys2Proof.Machine.execReedAsr c d a b s
  | .reedMin c d a b => Sys2Proof.Machine.execReedMin c d a b s
  | .reedMax c d a b => Sys2Proof.Machine.execReedMax c d a b s
  | .reedAdds c d a b => Sys2Proof.Machine.execReedAdds c d a b s
  | .reedSubs c d a b => Sys2Proof.Machine.execReedSubs c d a b s
  | .reedMull c d a b => Sys2Proof.Machine.execReedMull c d a b s
  | .reedCmp c a b => Sys2Proof.Machine.execReedCmp c a b s
  | .reedMov c d b => Sys2Proof.Machine.execReedMov c d b s
  | .reedAbs c d a => Sys2Proof.Machine.execReedAbs c d a s
  | .reedNeg c d a => Sys2Proof.Machine.execReedNeg c d a s
  | .reedLd c x addr => Sys2Proof.Machine.execReedLd c x addr s
  | .reedSt c x addr => Sys2Proof.Machine.execReedSt c x addr s
  | .reedLd2 c pair addr => Sys2Proof.Machine.execReedLd2 c pair addr s
  | .reedSt2 c pair addr => Sys2Proof.Machine.execReedSt2 c pair addr s
  | .reedMac c ac xa xb f ld => Sys2Proof.Machine.execReedMac c ac xa xb f ld s
  | .reedMsu c ac xa xb f ld => Sys2Proof.Machine.execReedMsu c ac xa xb f ld s
  | .reedMpy c ac xa xb f ld => Sys2Proof.Machine.execReedMpy c ac xa xb f ld s
  | .reedMpyn c ac xa xb f ld => Sys2Proof.Machine.execReedMpyn c ac xa xb f ld s
  | .reedDmacs c sub ac pa pb f l1 l2 => Sys2Proof.Machine.execReedDmacs c sub ac pa pb f l1 l2 s
  | .reedDmacp c sub q pa pb f l1 l2 => Sys2Proof.Machine.execReedDmacp c sub q pa pb f l1 l2 s
  | .reedClr c n => Sys2Proof.Machine.execReedClr c n s
  | .reedStq c d n f => Sys2Proof.Machine.execReedStq c d n f s
  | .reedRdg c d n => Sys2Proof.Machine.execReedRdg c d n s
  | .reedRdh c d n => Sys2Proof.Machine.execReedRdh c d n s
  | .reedRdl c d n => Sys2Proof.Machine.execReedRdl c d n s
  | .reedLda c n a f => Sys2Proof.Machine.execReedLda c n a f s
  | .reedWrl c n a => Sys2Proof.Machine.execReedWrl c n a s
  | .reedAdda c n m => Sys2Proof.Machine.execReedAdda c n m s
  | .reedSuba c n m => Sys2Proof.Machine.execReedSuba c n m s
  | .reedAsh c n a => Sys2Proof.Machine.execReedAsh c n a s
  | .reedExp c d n => Sys2Proof.Machine.execReedExp c d n s
  | .reedNorm c d n => Sys2Proof.Machine.execReedNorm c d n s
  | .reedAbsa c n => Sys2Proof.Machine.execReedAbsa c n s
  | .reedNega c n => Sys2Proof.Machine.execReedNega c n s
  | .reedMova c n m => Sys2Proof.Machine.execReedMova c n m s
  | .reedSetp c n a => Sys2Proof.Machine.execReedSetp c n a s
  | .reedSetm c n a => Sys2Proof.Machine.execReedSetm c n a s
  | .reedSetb c n a => Sys2Proof.Machine.execReedSetb c n a s
  | .reedSetl c n a => Sys2Proof.Machine.execReedSetl c n a s
  | .reedGetp c d n => Sys2Proof.Machine.execReedGetp c d n s
  | .reedGetm c d n => Sys2Proof.Machine.execReedGetm c d n s
  | .reedGetb c d n => Sys2Proof.Machine.execReedGetb c d n s
  | .reedGetl c d n => Sys2Proof.Machine.execReedGetl c d n s
  | .reedAddp c n a => Sys2Proof.Machine.execReedAddp c n a s
  | .reedXrd c ch a p len => Sys2Proof.Machine.execReedXrd c ch a p len s
  | .reedXwr c ch a p len => Sys2Proof.Machine.execReedXwr c ch a p len s
  | .reedWaitx c mask => Sys2Proof.Machine.execReedWaitx c mask s
  | .reedXst c d => Sys2Proof.Machine.execReedXst c d s
  | .reedGets c d sr => Sys2Proof.Machine.execReedGets c d sr s
  | .reedSets c sr a => Sys2Proof.Machine.execReedSets c sr a s
  | .reedEi c => Sys2Proof.Machine.execReedEi c s
  | .reedDi c => Sys2Proof.Machine.execReedDi c s
  | .reedMbxr c d m => Sys2Proof.Machine.execReedMbxr c d m s
  | .reedMbxw c m a => Sys2Proof.Machine.execReedMbxw c m a s
  | .reedMbxdone c => Sys2Proof.Machine.execReedMbxdone c s
  | .reedEvt c code => Sys2Proof.Machine.execReedEvt c code s
  | .reedSatclr c => Sys2Proof.Machine.execReedSatclr c s
  | .illegalInstruction c => Sys2Proof.Machine.execIllegalInstruction c s
  | .streamSubscribe stream subscriber join lowest highest => Sys2Proof.Machine.execStreamSubscribe stream subscriber join lowest highest s
  | .streamPacketReceived p => Sys2Proof.Machine.execStreamPacketReceived p s
  | .slotDeadline stream => Sys2Proof.Machine.execSlotDeadline stream s
  | .sluiceEccError addr uncorrectable => Sys2Proof.Machine.execSluiceEccError addr uncorrectable s
  | .sluiceBankMarchEnd bank pass => Sys2Proof.Machine.execSluiceBankMarchEnd bank pass s
  | .strDescRead src => Sys2Proof.Machine.execStrDescRead src s
  | .sluDescRead src => Sys2Proof.Machine.execSluDescRead src s
  | .frameReceived port frame => Sys2Proof.Machine.execFrameReceived port frame s
  | .pauseFrameReceived port quanta => Sys2Proof.Machine.execPauseFrameReceived port quanta s
  | .pauseExpiry port => Sys2Proof.Machine.execPauseExpiry port s
  | .txrTailWrite src port tail => Sys2Proof.Machine.execTxrTailWrite src port tail s
  | .rxrTailWrite src port tail => Sys2Proof.Machine.execRxrTailWrite src port tail s
  | .txDescriptorSend port => Sys2Proof.Machine.execTxDescriptorSend port s
  | .txFrameSent port audio => Sys2Proof.Machine.execTxFrameSent port audio s
  | .macCounterRead src port counter => Sys2Proof.Machine.execMacCounterRead src port counter s
  | .linkChange port up => Sys2Proof.Machine.execLinkChange port up s
  | .serdesRetrainComplete port => Sys2Proof.Machine.execSerdesRetrainComplete port s
  | .macBufferEccError port uncorrectable received => Sys2Proof.Machine.execMacBufferEccError port uncorrectable received s
  | .macLoopbackTestEnd port pass => Sys2Proof.Machine.execMacLoopbackTestEnd port pass s
  | .phcIncrFracWrite src value => Sys2Proof.Machine.execPhcIncrFracWrite src value s
  | .phcIncrNsWrite src value => Sys2Proof.Machine.execPhcIncrNsWrite src value s
  | .phcStepGo src => Sys2Proof.Machine.execPhcStepGo src s
  | .phcStepPermit src => Sys2Proof.Machine.execPhcStepPermit src s
  | .phcTimeRead src => Sys2Proof.Machine.execPhcTimeRead src s
  | .phcSecondsCarry => Sys2Proof.Machine.execPhcSecondsCarry s
  | .ptpMessageReceived port msg => Sys2Proof.Machine.execPtpMessageReceived port msg s
  | .ptpProfile slot word => Sys2Proof.Machine.execPtpProfile slot word s
  | .ptpPort slot word1 word2 => Sys2Proof.Machine.execPtpPort slot word1 word2 s
  | .ptpStatus slot => Sys2Proof.Machine.execPtpStatus slot s
  | .ptpParent slot => Sys2Proof.Machine.execPtpParent slot s
  | .ptpClock slot word => Sys2Proof.Machine.execPtpClock slot word s
  | .refpolReload slot meas => Sys2Proof.Machine.execRefpolReload slot meas s
  | .refCtrlWrite src value meas => Sys2Proof.Machine.execRefCtrlWrite src value meas s
  | .refSlotCfgWrite src reg value meas => Sys2Proof.Machine.execRefSlotCfgWrite src reg value meas s
  | .refSstatRead src => Sys2Proof.Machine.execRefSstatRead src s
  | .refSignalLoss slot meas => Sys2Proof.Machine.execRefSignalLoss slot meas s
  | .refSignalPresent slot => Sys2Proof.Machine.execRefSignalPresent slot s
  | .refValidationDone slot meas => Sys2Proof.Machine.execRefValidationDone slot meas s
  | .refWaitRestoreDone slot meas => Sys2Proof.Machine.execRefWaitRestoreDone slot meas s
  | .refFrequencyGate abs meas => Sys2Proof.Machine.execRefFrequencyGate abs meas s
  | .refQlChange slot received meas => Sys2Proof.Machine.execRefQlChange slot received meas s
  | .refDisputeJudge meas => Sys2Proof.Machine.execRefDisputeJudge meas s
  | .refVotedOutReturn slot => Sys2Proof.Machine.execRefVotedOutReturn slot s
  | .dpllBwStepDown k => Sys2Proof.Machine.execDpllBwStepDown k s
  | .dpllLockLoss k => Sys2Proof.Machine.execDpllLockLoss k s
  | .dpllSlewComplete => Sys2Proof.Machine.execDpllSlewComplete s
  | .dpllHoldoverExpiry => Sys2Proof.Machine.execDpllHoldoverExpiry s
  | .dpllSynthUnlock k => Sys2Proof.Machine.execDpllSynthUnlock k s
  | .dpllFreqLimit k => Sys2Proof.Machine.execDpllFreqLimit k s
  | .dpllFaultRecover k => Sys2Proof.Machine.execDpllFaultRecover k s
  | .xoinLoss => Sys2Proof.Machine.execXoinLoss s
  | .missingEdgeHold slot => Sys2Proof.Machine.execMissingEdgeHold slot s
  | .announceReceiptTimeout port => Sys2Proof.Machine.execAnnounceReceiptTimeout port s
  | .aesRxSignalLoss rx => Sys2Proof.Machine.execAesRxSignalLoss rx s
  | .aesRxPreamblesFound rx => Sys2Proof.Machine.execAesRxPreamblesFound rx s
  | .aesRxRateMeasured rx rate ratio => Sys2Proof.Machine.execAesRxRateMeasured rx rate ratio s
  | .aesRxSettled rx => Sys2Proof.Machine.execAesRxSettled rx s
  | .aesRxFrame rx a b => Sys2Proof.Machine.execAesRxFrame rx a b s
  | .aesRxSlip rx full => Sys2Proof.Machine.execAesRxSlip rx full s
  | .aesRxBlockEnd rx blk => Sys2Proof.Machine.execAesRxBlockEnd rx blk s
  | .aesCapRead src rx => Sys2Proof.Machine.execAesCapRead src rx s
  | .aesTxBlockStart tx => Sys2Proof.Machine.execAesTxBlockStart tx s
  | .tdmFramingError port => Sys2Proof.Machine.execTdmFramingError port s
  | .tdmSlip port full => Sys2Proof.Machine.execTdmSlip port full s
  | .tdmMaskApply port frame => Sys2Proof.Machine.execTdmMaskApply port frame s
  | .tdmSlotFadeEnd port output slot => Sys2Proof.Machine.execTdmSlotFadeEnd port output slot s
  | .sdinStuck input => Sys2Proof.Machine.execSdinStuck input s
  | .sdinStuckClear input => Sys2Proof.Machine.execSdinStuckClear input s
  | .decBankSwap ch => Sys2Proof.Machine.execDecBankSwap ch s
  | .decSettleEnd ch => Sys2Proof.Machine.execDecSettleEnd ch s
  | .channelEnable src ch => Sys2Proof.Machine.execChannelEnable src ch s
  | .channelDisable src ch => Sys2Proof.Machine.execChannelDisable src ch s
  | .channelClear src ch => Sys2Proof.Machine.execChannelClear src ch s
  | .lateMemberTimeout group => Sys2Proof.Machine.execLateMemberTimeout group s
  | .identityFrameReceived ch frame period => Sys2Proof.Machine.execIdentityFrameReceived ch frame period s
  | .noStageTimeout ch => Sys2Proof.Machine.execNoStageTimeout ch s
  | .senseFollowed ch => Sys2Proof.Machine.execSenseFollowed ch s
  | .channelRun ch => Sys2Proof.Machine.execChannelRun ch s
  | .followTimeout ch => Sys2Proof.Machine.execFollowTimeout ch s
  | .releaseRetryExpiry ch => Sys2Proof.Machine.execReleaseRetryExpiry ch s
  | .stopComplete ch => Sys2Proof.Machine.execStopComplete ch s
  | .channelTrip ch cause => Sys2Proof.Machine.execChannelTrip ch cause s
  | .senseLost ch => Sys2Proof.Machine.execSenseLost ch s
  | .coolDownEnd ch => Sys2Proof.Machine.execCoolDownEnd ch s
  | .carrierApply ch => Sys2Proof.Machine.execCarrierApply ch s
  | .fencingComplete ch => Sys2Proof.Machine.execFencingComplete ch s
  | .driveBlockMissingStop => Sys2Proof.Machine.execDriveBlockMissingStop s
  | .snsIdstatRead src => Sys2Proof.Machine.execSnsIdstatRead src s
  | .carrierProtect slot word freqs => Sys2Proof.Machine.execCarrierProtect slot word freqs s
  | .carrierPlan slot word => Sys2Proof.Machine.execCarrierPlan slot word s
  | .carrierPlanDone job => Sys2Proof.Machine.execCarrierPlanDone job s
  | .carrierStatus slot job => Sys2Proof.Machine.execCarrierStatus slot job s
  | .carrierReport slot ch => Sys2Proof.Machine.execCarrierReport slot ch s
  | .carrierCheck slot word => Sys2Proof.Machine.execCarrierCheck slot word s
  | .dramRefreshDue rank queued => Sys2Proof.Machine.execDramRefreshDue rank queued s
  | .dramRefreshMakeup rank => Sys2Proof.Machine.execDramRefreshMakeup rank s
  | .dramHotChange hot => Sys2Proof.Machine.execDramHotChange hot s
  | .dramActivate rank bank row => Sys2Proof.Machine.execDramActivate rank bank row s
  | .neighbourRefresh channel => Sys2Proof.Machine.execNeighbourRefresh channel s
  | .dramRefreshCycleEnd rank => Sys2Proof.Machine.execDramRefreshCycleEnd rank s
  | .dramEccError rank burst device uncorrectable => Sys2Proof.Machine.execDramEccError rank burst device uncorrectable s
  | .dramRereadResult rank burst device recurs => Sys2Proof.Machine.execDramRereadResult rank burst device recurs s
  | .dramCaParityError rank => Sys2Proof.Machine.execDramCaParityError rank s
  | .dramReplayComplete rank ok touched => Sys2Proof.Machine.execDramReplayComplete rank ok touched s
  | .dramMigrationComplete => Sys2Proof.Machine.execDramMigrationComplete s
  | .drmTrainStart src => Sys2Proof.Machine.execDrmTrainStart src s
  | .dramTrainingEnd passed => Sys2Proof.Machine.execDramTrainingEnd passed s
  | .dramZqCalibration => Sys2Proof.Machine.execDramZqCalibration s
  | .dramDqsTrack beyond => Sys2Proof.Machine.execDramDqsTrack beyond s
  | .faultReport page code detail unit => Sys2Proof.Machine.execFaultReport page code detail unit s
  | .faultRecordWrite => Sys2Proof.Machine.execFaultRecordWrite s
  | .fltAckWrite src seq => Sys2Proof.Machine.execFltAckWrite src seq s
  | .fltAckAll src => Sys2Proof.Machine.execFltAckAll src s
  | .fltRecRead src => Sys2Proof.Machine.execFltRecRead src s
  | .fatalEthStop => Sys2Proof.Machine.execFatalEthStop s
  | .fatalHighZ => Sys2Proof.Machine.execFatalHighZ s
  | .sillOwnTimeStart => Sys2Proof.Machine.execSillOwnTimeStart s
  | .sillCasementTick => Sys2Proof.Machine.execSillCasementTick s
  | .leaseSelfFence => Sys2Proof.Machine.execLeaseSelfFence s
  | .silSafeForce src => Sys2Proof.Machine.execSilSafeForce src s
  | .silSafeRelease src => Sys2Proof.Machine.execSilSafeRelease src s
  | .silWdogWrite src value => Sys2Proof.Machine.execSilWdogWrite src value s
  | .silKick src => Sys2Proof.Machine.execSilKick src s
  | .watchdogExpiry => Sys2Proof.Machine.execWatchdogExpiry s
  | .thermalSample temps => Sys2Proof.Machine.execThermalSample temps s
  | .supplyFault rail => Sys2Proof.Machine.execSupplyFault rail s
  | .faultRead slot first => Sys2Proof.Machine.execFaultRead slot first s
  | .faultAck slot first last => Sys2Proof.Machine.execFaultAck slot first last s
  | .faultTest slot word => Sys2Proof.Machine.execFaultTest slot word s
  | .faultStatus slot job => Sys2Proof.Machine.execFaultStatus slot job s
  | .pairMessageReceived m => Sys2Proof.Machine.execPairMessageReceived m s
  | .partnerLost => Sys2Proof.Machine.execPartnerLost s
  | .hngRenew src => Sys2Proof.Machine.execHngRenew src s
  | .hingeFrameReceived frame => Sys2Proof.Machine.execHingeFrameReceived frame s
  | .leaseTakeover => Sys2Proof.Machine.execLeaseTakeover s
  | .leaseFenceComplete lease => Sys2Proof.Machine.execLeaseFenceComplete lease s
  | .dutyReceived lease eid priority eui => Sys2Proof.Machine.execDutyReceived lease eid priority eui s
  | .dutyAnnounce => Sys2Proof.Machine.execDutyAnnounce s
  | .leaseClaim => Sys2Proof.Machine.execLeaseClaim s
  | .claimReceived leases priority eui => Sys2Proof.Machine.execClaimReceived leases priority eui s
  | .claimDecision => Sys2Proof.Machine.execClaimDecision s
  | .resyncComplete => Sys2Proof.Machine.execResyncComplete s
  | .controlMessageReceived m => Sys2Proof.Machine.execControlMessageReceived m s
  | .registerEndpoint eid node => Sys2Proof.Machine.execRegisterEndpoint eid node s
  | .registrationRetry refused => Sys2Proof.Machine.execRegistrationRetry refused s
  | .configSave slot => Sys2Proof.Machine.execConfigSave slot s
  | .configSaveDone job snapshot => Sys2Proof.Machine.execConfigSaveDone job snapshot s
  | .configList slot => Sys2Proof.Machine.execConfigList slot s
  | .configAdopt slot addrLo addrHi length info => Sys2Proof.Machine.execConfigAdopt slot addrLo addrHi length info s
  | .configReload slot => Sys2Proof.Machine.execConfigReload slot s
  | .configStatus slot job => Sys2Proof.Machine.execConfigStatus slot job s
  | .ranoriKey slot eid addrLo addrHi => Sys2Proof.Machine.execRanoriKey slot eid addrLo addrHi s
  | .ranoriSessions slot first => Sys2Proof.Machine.execRanoriSessions slot first s
  | .ranoriHandover slot lease => Sys2Proof.Machine.execRanoriHandover slot lease s
  | .i2cWriteTransaction sill bytes => Sys2Proof.Machine.execI2cWriteTransaction sill bytes s
  | .i2cReadTransaction sill count => Sys2Proof.Machine.execI2cReadTransaction sill count s
  | .i2cProtocolError => Sys2Proof.Machine.execI2cProtocolError s
  | .i2cSdaTimeout => Sys2Proof.Machine.execI2cSdaTimeout s
  | .attentionSend outcome => Sys2Proof.Machine.execAttentionSend outcome s
  | .attentionRetry outcome => Sys2Proof.Machine.execAttentionRetry outcome s
  | .pcieMemoryRequest bar2 off len write => Sys2Proof.Machine.execPcieMemoryRequest bar2 off len write s
  | .pcieHotReset => Sys2Proof.Machine.execPcieHotReset s
  | .msixMessage vector => Sys2Proof.Machine.execMsixMessage vector s
  | .pciRearm src vectors => Sys2Proof.Machine.execPciRearm src vectors s
  | .erase4k src => Sys2Proof.Machine.execErase4k src s
  | .erase64k src => Sys2Proof.Machine.execErase64k src s
  | .program src => Sys2Proof.Machine.execProgram src s
  | .qspiCommandEnd => Sys2Proof.Machine.execQspiCommandEnd s
  | .porAssert => Sys2Proof.Machine.execPorAssert s
  | .porRelease => Sys2Proof.Machine.execPorRelease s
  | .strapLatch balls => Sys2Proof.Machine.execStrapLatch balls s
  | .railOutOfRange out => Sys2Proof.Machine.execRailOutOfRange out s
  | .vddSillLoss => Sys2Proof.Machine.execVddSillLoss s
  | .bootCensus present drive linksFailed driveFailed stepping lanes => Sys2Proof.Machine.execBootCensus present drive linksFailed driveFailed stepping lanes s
  | .bootImageVerified sigA sigB => Sys2Proof.Machine.execBootImageVerified sigA sigB s
  | .firstCommit => Sys2Proof.Machine.execFirstCommit s
  | .clockWaitExpiry => Sys2Proof.Machine.execClockWaitExpiry s
  | .sysReboot src => Sys2Proof.Machine.execSysReboot src s
  | .systemVersion slot => Sys2Proof.Machine.execSystemVersion slot s
  | .systemShutdown slot => Sys2Proof.Machine.execSystemShutdown slot s
  | .shutdownStepEnd => Sys2Proof.Machine.execShutdownStepEnd s
  | .systemStatus slot job => Sys2Proof.Machine.execSystemStatus slot job s
  | .managementCoresStop => Sys2Proof.Machine.execManagementCoresStop s
  | .managementCoresResume => Sys2Proof.Machine.execManagementCoresResume s
  | .pcieLinkUp gen width => Sys2Proof.Machine.execPcieLinkUp gen width s
  | .vddSillPowerUp => Sys2Proof.Machine.execVddSillPowerUp s
  | .stuckBusRetry sdaHigh => Sys2Proof.Machine.execStuckBusRetry sdaHigh s

end Sys2Proof.Machine
end

