-- ==== Sys2Proof/Safety.lean ====
section
/-! DEFINITION. The terms of the claims: how a command answers, which parts of the block it may change, and which
registers it leaves alone. -/

namespace Sys2Proof.Safety

open Sys2Proof.Machine

/-- The command answers a next state with the queue as it was, and what the block then holds meets `P`. -/
def Answers (i : Instr) (s : State) (P : Node → Prop) : Prop :=
  ∃ t, exec i s = .next t ∧ t.pending = s.pending ∧ P t.node

/-- The commands that act on the block while its hub is in reset or in the fatal state: those of the Sill island, of the
supplies, of a ball and of the two host ports (R23, R325, R326). -/
def beyondHub : Instr → Bool
  | .muteNAssert => true
  | .muteNRelease => true
  | .xoinLoss => true
  | .faultReport _ _ _ _ => true
  | .faultRecordWrite => true
  | .fatalEthStop => true
  | .fatalHighZ => true
  | .sillOwnTimeStart => true
  | .sillCasementTick => true
  | .watchdogExpiry => true
  | .thermalSample _ => true
  | .supplyFault _ => true
  | .i2cWriteTransaction _ _ => true
  | .i2cReadTransaction _ _ => true
  | .attentionSend _ => true
  | .attentionRetry _ => true
  | .pcieMemoryRequest _ _ _ _ => true
  | .porAssert => true
  | .porRelease => true
  | .strapLatch _ => true
  | .railOutOfRange _ => true
  | .vddSillLoss => true
  | .vddSillPowerUp => true
  | .stuckBusRetry _ => true
  | _ => false

/-- The parts of what the block holds. -/
inductive Part
  | regs | active | hdrs | mem | clk | cas | rt | sht | strips | dies | xpt | mtx | flt | sil | phc | boot | mgmt | pins
  | rsp | free | reeds | reedMem | reedProg | str | macs | ptp | refs | loc | drive | dram | hng | cfg | i2c | pci | flash | io
deriving DecidableEq, Repr

/-- A part is the same in two nodes. The interrupt lines follow every command (R357, R362): in the I²C port and the PCIe
endpoint, the state of IRQ_N, the attention causes and the messages owed are left out. -/
def Part.same (p : Part) (n m : Node) : Prop :=
  match p with
  | .regs => m.regs = n.regs | .active => m.active = n.active | .hdrs => m.hdrs = n.hdrs | .mem => m.mem = n.mem
  | .clk => m.clk = n.clk | .cas => m.cas = n.cas | .rt => m.rt = n.rt | .sht => m.sht = n.sht
  | .strips => m.strips = n.strips | .dies => m.dies = n.dies | .xpt => m.xpt = n.xpt | .mtx => m.mtx = n.mtx
  | .flt => m.flt = n.flt | .sil => m.sil = n.sil | .phc => m.phc = n.phc | .boot => m.boot = n.boot
  | .mgmt => m.mgmt = n.mgmt | .pins => m.pins = n.pins | .rsp => m.rsp = n.rsp | .free => m.free = n.free
  | .reeds => m.reeds = n.reeds | .reedMem => m.reedMem = n.reedMem | .reedProg => m.reedProg = n.reedProg
  | .str => m.str = n.str | .macs => m.macs = n.macs | .ptp => m.ptp = n.ptp | .refs => m.refs = n.refs
  | .loc => m.loc = n.loc | .drive => m.drive = n.drive | .dram => m.dram = n.dram | .hng => m.hng = n.hng
  | .cfg => m.cfg = n.cfg
  | .i2c => m.i2c = { n.i2c with irqLow := m.i2c.irqLow, pend := m.i2c.pend, attempts := m.i2c.attempts, given := m.i2c.given }
  | .pci => m.pci = { n.pci with told := m.pci.told, pba := m.pci.pba }
  | .flash => m.flash = n.flash
  | .io => m.io = n.io

/-- Only the listed parts may differ. -/
def OnlyIn (ps : List Part) (n m : Node) : Prop := ∀ p : Part, p ∉ ps → p.same n m

/-- Every register but those with the listed keys reads as before. -/
def RegsBut (ks : List Nat) (n m : Node) : Prop :=
  ∀ k, k ∉ ks → Sparse.get resetKey m.regs k = Sparse.get resetKey n.regs k

/-- Every register outside the listed pages reads as before. -/
def RegsIn (ps : List Page) (n m : Node) : Prop :=
  ∀ k, keyPage k ∉ ps → Sparse.get resetKey m.regs k = Sparse.get resetKey n.regs k

/-- Every byte of memory outside `[a, a + len)` reads as before. -/
def MemBut (a len : Nat) (n m : Node) : Prop := ∀ x, ¬(a ≤ x ∧ x < a + len) → m.rdByte x = n.rdByte x

/-- The parts that a fault may change beside its own block: its record is queued and counted, and one that a promotion makes
fatal stops the node (R316, R317, R325). -/
def faultParts : List Part := [.regs, .flt, .sil, .clk, .mgmt, .reeds, .hng, .drive, .pins, .i2c]

/-- A fault of a page has reached the collector (R316): a sequence number is taken, and where the queue has room its record
stands in it, in the order of R316. -/
def Raised (p : Page) (code : Nat) (n m : Node) : Prop :=
  m.flt.nextSeq = (n.flt.nextSeq + 1) % 4294967296 ∧ m.flt.ring = n.flt.ring ∧
  (n.flt.queue.length < 64 → ∃ r, m.flt.queue = enqueue n.flt.queue r ∧ r.seq = n.flt.nextSeq ∧ r.code = code ∧
    r.region = pageRegion p ∧ r.page = pageIndex p ∧ r.orig = faultClass p.block code ∧ r.orig ≤ r.cls ∧ r.ack = false)

/-- The hub runs, the page exists on a die in service, and no soft reset of it is in progress: an access to it is taken (R4,
R27, R34). -/
def Reachable (s : State) (p : Page) : Prop :=
  s.node.alive = true ∧ pageValid p = true ∧ s.node.pagePresent p = true ∧ (s.node.hdr p).resetting = false

/-- No commit is requested or waits for its boundary (R35 to R37, R398). -/
def NoCommitWaits (n : Node) : Prop :=
  n.cas.groupReq = false ∧ n.cas.groupSnap = false ∧ n.stagedJob = none ∧
  ∀ p ∈ allPages, (n.hdr p).commitReq = false ∧ (n.hdr p).snapshot = none ∧ (n.hdr p).immediate = none

/-- A slot's response is written (R46, R47): the request's SERVICE, COMMAND and TAG with LEN, the result with its DETAIL
where one is stated, and the data words; BUSY is clear and DONE is set. No register but PG_IRQ has changed beside them. -/
def ResponseWritten (slot : Fin 4) (code : Nat) (detail : Option Nat) (data : List Word) (n m : Node) : Prop :=
  m.reg mgtPage (responseOff slot) =
    (n.reg mgtPage (requestOff slot) &&& 0xFFFFFF00 ||| BitVec.ofNat 32 (Nat.min data.length 62)) ∧
  (m.reg mgtPage (responseOff slot + 4)).toNat % 256 = code ∧
  (∀ d, detail = some d → (m.reg mgtPage (responseOff slot + 4)).toNat / 256 = d % 2 ^ 24) ∧
  (∀ k (h : k < data.length), k < 62 → m.reg mgtPage (responseOff slot + 8 + 4 * k) = data[k]) ∧
  m.slotBusy slot = false ∧ (m.fld mgtPage Fld.mgtMbxStatDone).testBit slot = true ∧
  RegsBut (regKey mgtPage 0x010 0 :: regKey mgtPage 0x044 0 ::
    (List.range 64).map (fun k => regKey mgtPage (responseOff slot + 4 * k) 0)) n m

/-- A service has answered a slot (R47): its response is written, and the slot's PG_IRQ bit is set. -/
def Answered (slot : Fin 4) (code : Nat) (detail : Option Nat) (data : List Word) (n m : Node) : Prop :=
  ResponseWritten slot code detail data n m ∧ (m.reg mgtPage 0x010).getLsbD slot = true

/-- The parts that an answer to a mailbox slot may change. -/
def answerParts : List Part := [.regs, .free, .i2c]

/-- A Reed core executes, and its instruction issues now: no load is still to land, no control transfer or REP is under way,
no program word that it takes is poisoned, and its run or handler has cycles left (R163, R171 to R173, R176, R183). -/
def ReedReady (n : Node) (c : CoreId) : Prop :=
  n.reedExecutes c = true ∧ (n.reed c).loads = [] ∧ (n.reed c).jump = none ∧ (n.reed c).reps = [] ∧
  (n.reed c).pc ∉ (n.reed c).poisonedProg ∧ (n.reed c).pc + 1 ∉ (n.reed c).poisonedProg ∧
  ((n.reed c).mode = .program → (n.reed c).cyc < n.reedBudget c) ∧
  ((n.reed c).mode = .handler → (n.reed c).runsOver = true ∨ (n.reed c).irqCycles < n.irqBudget c)

/-- The instruction of a ready core has completed: `r` is the core with its results, whose next instruction is at `pc`. The
cycle counts in the run's CYC, or in the handler's cycles until the casement's runs are over, and the hold-off grows by one
boundary where a load, a transfer or a REP is left under way (R163, R174, R176). Registers `ks` of the store and the parts
`ps` beside the core's registers may differ; no other core does. -/
def ReedDone (c : CoreId) (pc : Nat) (r : ReedCore) (ks : List Nat) (ps : List Part) (n m : Node) : Prop :=
  m.reed c = { r with
    pc := pc % 65536
    cyc := if (n.reed c).mode = .handler then (n.reed c).cyc else (n.reed c).cyc + 1
    irqCycles := if (n.reed c).mode = .handler ∧ (n.reed c).runsOver = false then (n.reed c).irqCycles + 1 else (n.reed c).irqCycles
    holdoff := if r.loads.isEmpty && r.jump.isNone && r.reps.isEmpty then 0 else (n.reed c).holdoff + 1 } ∧
  (∀ c', c' ≠ c → m.reed c' = n.reed c') ∧ RegsBut (regKey (rcxPage c) 0x06C 0 :: ks) n m ∧ OnlyIn (.reeds :: .regs :: ps) n m

/-- An integer brought into the signed range of `bits` bits, and whether it lay outside (R166). -/
def clampTo (bits : Nat) (v : Int) : Int := max (-(2 ^ (bits - 1))) (min (2 ^ (bits - 1) - 1) v)
def outside (bits : Nat) (v : Int) : Bool := decide (clampTo bits v ≠ v)

/-- ST with Z and N of a result, and with a bit set where `b` holds (R165, R179). -/
def znOf (st : Word) (w : Word) : Word := putBit (putBit st stZ (decide (w = 0))) stN w.msb
def stickBit (st : Word) (i : Nat) (b : Bool) : Word := if b then putBit st i true else st

/-- A run stops with code `why` (R164): the core leaves it, its stop is counted and signalled, and CAS has unfinished work. -/
def ReedStopped (c : CoreId) (n m : Node) : Prop :=
  (m.reed c).mode = .idle ∧ (m.reed c).stall = none ∧ (m.reed c).interrupted = false ∧
  m.fld (rcxPage c) Fld.rcxPcntStops (n.reed c).slot = Nat.min (n.fld (rcxPage c) Fld.rcxPcntStops (n.reed c).slot + 1) 65535 ∧
  (m.reg (rcxPage c) 0x010).getLsbD 1 = true ∧ m.flag (rcxPage c) Fld.rcxErrcapValid = true ∧ m.cas.unfinished = true ∧
  m.reedMem = n.reedMem ∧ m.mem = n.mem

/-- IRQ_N is low exactly while the condition of a vector in PCI.PINMASK is true, and a message counts as sent, or waits
masked, only for a vector whose condition is true (R362). -/
def LinesFollow (n : Node) : Prop :=
  n.i2c.irqLow = decide (n.vectors &&& n.reg Node.pciPage 0x04C ≠ 0)
    ∧ n.pci.told &&& ~~~n.vectors = 0 ∧ n.pci.pba &&& ~~~n.vectors = 0

/-- What a fatal fault stops (R325): casements, the management cores, every Reed core, and the renewal of leases. -/
def FatalHalts (n : Node) : Prop :=
  n.sil.fatal = true →
    n.clk.running = false ∧ n.mgmt.running = false ∧ n.hng.offered = none ∧
    ∀ e ∈ n.reeds, e.2.mode = .idle ∧ e.2.stall = none

/-- The fatal state is held, and nothing that waits removes VDD_SILL. -/
def FatalHeld (s : State) : Prop :=
  s.node.sil.powered = true ∧ s.node.sil.fatal = true ∧ Instr.vddSillLoss ∉ s.pending

end Sys2Proof.Safety
end

