-- ==== Sys2Proof/Certificates/Slice0/Obligations.lean ====
section
/-! DEFINITION. The statements for the provers, by family of commands. -/

open Sys2Proof Sys2Proof.Machine Sys2Proof.Safety

/-! The machine: the queue, and the rules that every command keeps. -/

/-- A step runs the command at the front of the queue, with the queue's rest. The model's own choice in it:
notes/assumptions/4.md. -/
def Obligations.StepRunsFrontCommand : Prop :=
  ∀ (c : Instr) (rest : List Instr) (s : State),
    step { s with pending := c :: rest } = exec c { s with pending := rest }

/-- With no command waiting a hub cycle of 1.25 ns passes, 147 units of the model's time (DESIGN CHOICE,
notes/assumptions/1.md): the queue stays empty. The model's own choice in it: notes/assumptions/8.md. -/
def Obligations.EmptyQueuePassesHubCycle : Prop :=
  ∀ s : State, s.pending = [] →
    ∃ t, step s = .next t ∧ t.pending = [] ∧ t.node.clk.now = s.node.clk.now + 147

/-- Every command answers a next state in every state, and leaves the queue alone: no command stops the block. The
model's own choice in it: notes/assumptions/2.md. -/
def Obligations.EveryCommandAnswers : Prop :=
  ∀ (i : Instr) (s : State), ∃ t, exec i s = .next t ∧ t.pending = s.pending

/-- R362 of every step: IRQ_N is low exactly while the condition of a vector in PCI.PINMASK is true, and a vector whose
condition is false has no message sent and none pending. The model's own choice in it: notes/assumptions/141.md. -/
def Obligations.EveryStepKeepsInterruptLines : Prop :=
  ∀ s t : State, LinesFollow s.node → step s = .next t → LinesFollow t.node

/-- R362 and R325 right after reset: IRQ_N is high, no vector is pending, and no fatal fault is held. The model's own
choices in it: notes/assumptions/5.md, notes/assumptions/9.md and notes/assumptions/10.md. -/
def Obligations.ResetMeetsInvariants : Prop :=
  LinesFollow State.reset.node ∧ FatalHalts State.reset.node ∧ Memory.wf State.reset.node.mem = true

/-- R325 of every step: in the fatal state no casement, management core or Reed core runs, and no lease renewal is
offered. The model's own choice in it: notes/assumptions/7.md. -/
def Obligations.EveryStepKeepsFatalHalt : Prop :=
  ∀ s t : State, FatalHalts s.node → step s = .next t → FatalHalts t.node

/-- R325: the fatal state holds until VDD_SILL is removed. No other command ends it, whatever waits in the queue. The
model's own choice in it: notes/assumptions/7.md. -/
def Obligations.FatalStateHoldsUntilPowerOff : Prop :=
  ∀ s t : State, FatalHeld s → step s = .next t → FatalHeld t

/-- R23, R325: while the hub is in reset, without power or in the fatal state, a command of the hub leaves every part of
the block as it was. The model's own choice in it: notes/assumptions/6.md. -/
def Obligations.HubStandsStill : Prop :=
  ∀ (i : Instr) (s : State), beyondHub i = false → s.node.alive = false → FatalHalts s.node →
    Answers i s (fun m => OnlyIn [] s.node m)

/-! Register and memory accesses. -/

/-- R4, R27, R30, R34: an access to a register page that the hub refuses completes with an error response and changes no
register of the page. A narrow or unaligned write and a write to a page in its soft reset change nothing else; an
access to a page of an absent die is a decode error, which is counted. The model's own choices in it:
notes/assumptions/24.md and notes/assumptions/34.md. -/
def Obligations.RefusedRegisterAccess : Prop :=
  ∀ (s : State) (src : Src) (p : Page) (off : Nat) (v : Word) (bytes : Nat), s.node.alive = true →
    ((pageValid p = true ∧ s.node.pagePresent p = true ∧
        (bytes < 4 ∨ off % 4 ≠ 0 ∨ (s.node.hdr p).resetting = true) →
      Answers (.registerWrite src p off v bytes) s (fun m => m.rsp.ok = false ∧ OnlyIn [.rsp] s.node m)) ∧
    (s.node.pagePresent p = false →
      (Answers (.registerWrite src p off v bytes) s (fun m =>
        m.rsp.ok = false ∧ m.rsp.data = 0 ∧
        m.fld mtxPage Fld.mtxDecerrDecode = Nat.min (s.node.fld mtxPage Fld.mtxDecerrDecode + 1) 65535 ∧
        RegsIn [mtxPage] s.node m ∧ OnlyIn [.regs, .rsp] s.node m)) ∧
      (Answers (.rcRead src p off) s (fun m =>
        m.rsp.ok = false ∧ m.rsp.data = 0 ∧
        m.fld mtxPage Fld.mtxDecerrDecode = Nat.min (s.node.fld mtxPage Fld.mtxDecerrDecode + 1) 65535 ∧
        RegsIn [mtxPage] s.node m ∧ OnlyIn [.regs, .rsp] s.node m))))

/-- R9, R31: a word write of PG_IRQ clears the bits written as 1, one of PG_IRQSET sets bits below NIRQ, and PG_IRQEN
takes the word where NIRQ is not 0. A read of PG_FLTCNT returns the two counts and clears them. MTX.REMAP once set
stays. Of two writes that reach a register in one hub cycle that of the higher port code stands (R40). The model's own choices in it: notes/assumptions/26.md and notes/assumptions/30.md. -/
def Obligations.HeaderRegisterAccess : Prop :=
  ∀ (s : State) (src : Src) (p : Page) (v : Word), s.node.alive = true → pageValid p = true →
    s.node.pagePresent p = true → (s.node.hdr p).resetting = false →
    Answers (.registerWrite src p 0x010 v 4) s (fun m =>
      m.rsp.ok = true ∧ (src.port ∉ (s.node.hdr p).keyArmed →
        m.reg p 0x010 = s.node.reg p 0x010 &&& ~~~v ∧ RegsBut [regKey p 0x010 0] s.node m ∧
        OnlyIn [.regs, .rsp] s.node m)) ∧
    (blockIrqs p.block ≠ 0 → Answers (.registerWrite src p 0x014 v 4) s (fun m =>
      m.rsp.ok = true ∧ m.reg p 0x014 = v ∧ RegsBut [regKey p 0x014 0] s.node m ∧ OnlyIn [.regs, .rsp, .hdrs] s.node m) ∧
      (∀ (other : Src) (w : Word), other.port ≠ src.port →
        Answers (.registerWrite src p 0x014 v 4 [⟨other, 0x014, w, 4⟩]) s (fun m =>
          m.rsp.ok = true ∧ m.reg p 0x014 = (if src.port.code < other.port.code then w else v) ∧
          RegsBut [regKey p 0x014 0] s.node m ∧ OnlyIn [.regs, .rsp, .hdrs] s.node m))) ∧
    Answers (.irqTestSet src p v) s (fun m =>
      m.rsp.ok = true ∧
      (∀ k < 32, (m.reg p 0x010).getLsbD k = ((s.node.reg p 0x010).getLsbD k || (v.getLsbD k && decide (k < blockIrqs p.block)))) ∧
      RegsBut [regKey p 0x010 0] s.node m ∧ OnlyIn [.regs, .rsp, .hdrs] s.node m) ∧
    ((s.node.hdr p).frozen = none → Answers (.rcRead src p 0x020) s (fun m =>
      m.rsp.ok = true ∧ m.rsp.data = s.node.reg p 0x020 ∧ m.fld p Fld.pgFltcntCorrected = 0 ∧
      m.fld p Fld.pgFltcntContained = 0 ∧ RegsBut [regKey p 0x020 0] s.node m ∧ OnlyIn [.regs, .rsp] s.node m)) ∧
    ((s.node.hdr mtxPage).resetting = false →
      Answers (.mtxRemapWrite src true) s (fun m =>
        m.rsp.ok = true ∧ m.remapped = true ∧ (∀ r ∈ m.mtx.outstanding, 2 ≤ r.target) ∧
        RegsBut [regKey mtxPage 0x040 0] s.node m ∧ OnlyIn [.regs, .rsp, .hdrs, .mtx] s.node m) ∧
      Answers (.mtxRemapWrite src false) s (fun m =>
        m.rsp.ok = true ∧ m.remapped = s.node.remapped ∧ m.regs = s.node.regs ∧ OnlyIn [.rsp, .hdrs] s.node m))

/-- R26, R399: a write to working SRAM, or to Fen of a usable die, stores exactly its bytes, each at its address. -/
def Obligations.MemoryWriteStores : Prop :=
  ∀ (s : State) (src : Src) (a : Nat) (data : List Byte), s.node.alive = true → data ≠ [] →
    (∀ x, (∀ j < data.length, s.node.decode (a + j) = .work (x + j)) →
      Answers (.memoryWrite src a data) s (fun m =>
        m.rsp.ok = true ∧ (∀ j (h : j < data.length), m.rdByte (0x10000000 + x + j) = data[j]) ∧
        MemBut (0x10000000 + x) data.length s.node m ∧ OnlyIn [.mem, .rsp] s.node m)) ∧
    (∀ d x, (∀ j < data.length, s.node.decode (a + j) = .fen d (x + j)) → (s.node.die d).steerCopying = false →
      Answers (.memoryWrite src a data) s (fun m =>
        m.rsp.ok = true ∧ (∀ j (h : j < data.length), m.rdByte (Node.fenAddr d (x + j)) = data[j]) ∧
        MemBut (Node.fenAddr d x) data.length s.node m))

/-- R4, R27, R308: an access to an address that no target holds, or that an absent die would hold, completes with an error
response and data 0 and counts in MTX.DECERR; a read of a poisoned DRAM burst counts in DRM.POISON and completes likewise.
MTX.ERRADDR captures the first decode error alone. -/
def Obligations.AddressErrors : Prop :=
  ∀ (s : State) (src : Src) (a : Nat) (write : Bool), s.node.alive = true →
    (s.node.decode a = .none →
      Answers (.decodeErrorAccess src a write) s (fun m =>
        m.rsp.ok = false ∧ m.rsp.data = 0 ∧
        m.fld mtxPage Fld.mtxDecerrDecode = Nat.min (s.node.fld mtxPage Fld.mtxDecerrDecode + 1) 65535 ∧
        m.reg mtxPage 0x048 = (if s.node.flag mtxPage Fld.mtxErrinfoValid then s.node.reg mtxPage 0x048 else BitVec.ofNat 32 a) ∧
        m.flag mtxPage Fld.mtxErrinfoValid = true ∧ RegsIn [mtxPage] s.node m ∧ OnlyIn [.regs, .rsp] s.node m)) ∧
    (s.node.decode a = .absent →
      Answers (.absentDieAccess src a write) s (fun m =>
        m.rsp.ok = false ∧ m.rsp.data = 0 ∧
        m.fld mtxPage Fld.mtxDecerrDecode = Nat.min (s.node.fld mtxPage Fld.mtxDecerrDecode + 1) 65535 ∧
        m.flag mtxPage Fld.mtxErrinfoValid = true ∧ RegsIn [mtxPage] s.node m ∧ OnlyIn [.regs, .rsp] s.node m)) ∧
    (a / 64 ∈ s.node.dram.poisoned →
      Answers (.poisonedBurstRead .other a) s (fun m =>
        m.rsp.ok = false ∧ m.rsp.data = 0 ∧
        m.fld drmPage Fld.drmPoisonReads = Nat.min (s.node.fld drmPage Fld.drmPoisonReads + 1) 65535 ∧
        RegsIn [drmPage] s.node m ∧ OnlyIn [.regs, .rsp] s.node m))

/-- R41 to R44: with nothing outstanding and nothing held, a request is granted, a cycle later unless its master is parked
at the target, and of two requests that wait for one target that of the better rank goes first; a held request is granted when what held it has completed. A PCIe request for the
outbound window is refused as a hairpin. The model's own choice in it: notes/assumptions/31.md. -/
def Obligations.MatrixGrants : Prop :=
  ∀ (s : State) (r q : MatrixReq), s.node.alive = true → s.node.mtx.outstanding = [] →
    ((s.node.mtx.held = [] ∧ ¬(r.master = 8 ∧ r.outbound = true) ∧ r.bridge = none →
      Answers (.matrixRequest [r]) s (fun m =>
        m.mtx.outstanding = [r] ∧ m.mtx.order = [r.master] ∧ m.lastAt r.target = r.master ∧
        m.mtx.cycles = [if s.node.lastAt r.target = r.master then r.arrive else r.arrive + 1] ∧ OnlyIn [.mtx] s.node m)) ∧
    (s.node.mtx.held = [] ∧ r.master < 4 ∧ 9 ≤ q.master ∧ q.target = r.target ∧ r.bridge = none ∧ q.bridge = none →
      (q.arrive ≤ r.arrive → Answers (.matrixRequest [r, q]) s (fun m =>
        m.mtx.outstanding = [q, r] ∧ m.mtx.order = [q.master, r.master] ∧ OnlyIn [.mtx] s.node m)) ∧
      (r.arrive < q.arrive → Answers (.matrixRequest [r, q]) s (fun m =>
        m.mtx.outstanding = [r, q] ∧ m.mtx.order = [r.master, q.master] ∧ OnlyIn [.mtx] s.node m))) ∧
    (s.node.mtx.held = [] ∧ r.master = 8 ∧ r.outbound = true ∧ r.bridge = none →
      Answers (.matrixRequest [r]) s (fun m =>
        m.rsp.ok = false ∧ m.mtx.outstanding = [] ∧
        m.fld mtxPage Fld.mtxDecerrHairpin = Nat.min (s.node.fld mtxPage Fld.mtxDecerrHairpin + 1) 65535 ∧
        RegsBut [regKey mtxPage Fld.mtxDecerrHairpin.off 0] s.node m ∧ OnlyIn [.regs, .mtx, .rsp] s.node m)) ∧
    (s.node.mtx.held = [r] ∧ ¬(r.master = 8 ∧ r.outbound = true) →
      Answers (.heldRequestRelease r.master r.id r.target) s (fun m =>
        m.mtx.held = [] ∧ m.mtx.outstanding = [r] ∧ m.mtx.order = [r.master] ∧ OnlyIn [.mtx] s.node m)))

/-! The header of a page. -/

/-- R33, the rows of ENABLE: an Idle block starts and is Active, a Stopping one latches PENDING, an Active one stays so;
ENABLE := 0 sends an Active block to Stopping and clears PENDING. Blocks whose shutdown takes no time are Idle at
once. The model's own choices in it: notes/assumptions/18.md and notes/assumptions/19.md. -/
def Obligations.PageEnableStates : Prop :=
  ∀ (s : State) (src : Src) (p : Page), s.node.alive = true → pageValid p = true → s.node.pagePresent p = true →
    (s.node.hdr p).resetting = false → enableActs p = true →
    ((s.node.hdr p).active = false ∧ (s.node.hdr p).busy = false →
      Answers (.pageEnable src p) s (fun m =>
        m.rsp.ok = true ∧ (m.hdr p).active = true ∧ (m.hdr p).busy = false ∧ (m.hdr p).pending = false ∧
        m.fld p Fld.pgCtrlEnable = 1)) ∧
    ((s.node.hdr p).busy = true →
      Answers (.pageEnable src p) s (fun m =>
        m.rsp.ok = true ∧ (m.hdr p).pending = true ∧ (m.hdr p).busy = true ∧ m.fld p Fld.pgCtrlEnable = 1 ∧
        RegsBut [regKey p 0x008 0] s.node m ∧ OnlyIn [.regs, .hdrs, .rsp] s.node m) ∧
      Answers (.pageDisable src p) s (fun m =>
        m.rsp.ok = true ∧ (m.hdr p).pending = false ∧ (m.hdr p).busy = true ∧ m.fld p Fld.pgCtrlEnable = 0 ∧
        RegsBut [regKey p 0x008 0] s.node m ∧ OnlyIn [.regs, .hdrs, .rsp] s.node m)) ∧
    ((s.node.hdr p).active = true ∧ (s.node.hdr p).busy = false ∧ (p.block = .str ∨ p.block = .mac ∨ p.block = .drm) →
      Answers (.pageDisable src p) s (fun m =>
        m.rsp.ok = true ∧ (m.hdr p).active = false ∧ (m.hdr p).busy = true ∧ (m.hdr p).pending = false ∧
        m.fld p Fld.pgCtrlEnable = 0 ∧ RegsBut [regKey p 0x008 0] s.node m ∧
        OnlyIn [.regs, .hdrs, .rsp, .dram, .macs] s.node m)) ∧
    ((s.node.hdr p).busy = false ∧ (p.block = .rail ∨ p.block = .mtx ∨ p.block = .mgt) →
      Answers (.pageDisable src p) s (fun m =>
        m.rsp.ok = true ∧ (m.hdr p).active = false ∧ (m.hdr p).busy = false ∧ m.fld p Fld.pgCtrlEnable = 0))

/-- R33, R400: a shutdown that completes leaves the block Idle, starts it again where PENDING was latched, or completes a soft
reset that waited for it; while the block has work left to run nothing happens. A soft reset of an Idle block returns its
header to that of an Idle block and every RW and SH field, active copies included, to its reset value, save those that
their chapters keep until the hub is reset; that of an Active block shuts it down first, and that of a block that still
shuts down is latched. PAIRED of an odd MAC stays that of its pair (notes/assumptions/200.md). The model's own choices in it:
notes/assumptions/2.md, notes/assumptions/19.md and notes/assumptions/20.md. -/
def Obligations.ShutdownAndSoftReset : Prop :=
  ∀ (s : State) (src : Src) (p : Page), s.node.alive = true → pageValid p = true → s.node.pagePresent p = true →
    let h := s.node.hdr p
    let isReset := fun (m : Node) => m.hdr p = {} ∧ m.fld p Fld.pgCtrlEnable = 0 ∧ m.fld p Fld.pgCtrlCommitMode = 0 ∧
      m.fld p Fld.pgCtrlFreeze = 0 ∧ m.reg p 0x014 = 0 ∧
      ∀ r ∈ Reg.rowsOf p.block, ∀ f ∈ r.fields, ∀ idx, f.access = .rw ∨ f.access = .sh → Node.kept p.block f.field = false →
        ¬(p.block = .mac ∧ p.inst % 2 = 1 ∧ f.field = Fld.macCfgPaired) →
        m.fld p f.field idx = wordField (resetKey (regKey p f.field.off idx)) f.field ∧
        m.act p f.field idx = wordField (resetKey (regKey p f.field.off idx)) f.field
    (h.busy = true → p ≠ Node.casPage → s.node.stopped p = true →
      (h.resetting = false → h.pending = false → Answers (.shutdownComplete p) s (fun m =>
        m.hdr p = { h with busy := false } ∧
        (p.block ≠ .aes → p.block ≠ .tdm → m.regs = s.node.regs ∧ OnlyIn [.hdrs] s.node m) ∧
        (p.block = .tdm → m.flag p Fld.tdmStatClocked = false) ∧
        (p.block = .aes → m.flag p Fld.aesTxStatRunning = false ∧
          RegsBut [regKey p Fld.aesTxStatRunning.off 0] s.node m ∧ OnlyIn [.hdrs, .regs, .loc] s.node m))) ∧
      (h.resetting = false → h.pending = true → Answers (.shutdownComplete p) s (fun m =>
        (m.hdr p).active = true ∧ (m.hdr p).busy = false ∧ (m.hdr p).pending = false)) ∧
      (h.resetting = true → Answers (.shutdownComplete p) s isReset)) ∧
    (h.busy = false ∨ p = Node.casPage ∨ s.node.stopped p = false →
      Answers (.shutdownComplete p) s (fun m => OnlyIn [] s.node m)) ∧
    (h.resetting = false →
      (h.active = false → h.busy = false → Answers (.softReset src p) s (fun m => m.rsp.ok = true ∧ isReset m)) ∧
      (h.active = true → h.busy = false →
        (p.block = .rail ∨ p.block = .mtx ∨ p.block = .mgt → Answers (.softReset src p) s (fun m =>
          m.rsp.ok = true ∧ isReset m)) ∧
        (p.block = .str ∨ p.block = .mac ∨ p.block = .drm → Answers (.softReset src p) s (fun m =>
          m.rsp.ok = true ∧ (m.hdr p).active = false ∧ (m.hdr p).busy = true ∧ (m.hdr p).resetting = true ∧
          (m.hdr p).keyHolder = none ∧ m.regs = s.node.regs ∧ OnlyIn [.hdrs, .rsp, .dram, .macs] s.node m))) ∧
      (h.busy = true → Answers (.softReset src p) s (fun m =>
        m.rsp.ok = true ∧ (m.hdr p).resetting = true ∧ (m.hdr p).pending = false ∧ (m.hdr p).busy = true ∧
        (m.hdr p).keyHolder = none ∧ m.regs = s.node.regs ∧ OnlyIn [.hdrs, .rsp] s.node m)))

/-- R31, R32, R35 to R37: FREEZE captures the page's registers, a second write of 1 keeps the capture, and a write of 0 drops
it. A commit requested while casements run waits for the next cutoff, and so does the group commit. The cutoff takes the
snapshot of each page with a request, and of each page of the group where the group commit was requested, from the shadow
values of the moment; no other page's header changes, and nothing takes effect yet. While generation is stopped there is no
cutoff. The model's own choice in it: notes/assumptions/22.md. -/
def Obligations.FreezeAndCommitRequests : Prop :=
  ∀ (s : State) (src : Src) (p : Page), s.node.alive = true →
    (pageValid p = true → s.node.pagePresent p = true → (s.node.hdr p).resetting = false →
      let n := s.node.keyTouched p src.port
      let others := fun (m : Node) => ∀ q, pageCode q ≠ pageCode p → m.hdr q = s.node.hdr q
      ((s.node.hdr p).frozen = none → Answers (.pageFreeze src p true) s (fun m =>
        m.rsp.ok = true ∧ m.fld p Fld.pgCtrlFreeze = 1 ∧
        m.hdr p = { n.hdr p with frozen := some ((n.setFld p Fld.pgCtrlFreeze 1).capture p), consumed := [] } ∧ others m ∧
        RegsBut [regKey p 0x008 0] s.node m ∧ OnlyIn [.regs, .hdrs, .rsp] s.node m)) ∧
      ((s.node.hdr p).frozen ≠ none → Answers (.pageFreeze src p true) s (fun m =>
        m.rsp.ok = true ∧ m.fld p Fld.pgCtrlFreeze = 1 ∧ m.hdr p = n.hdr p ∧ others m ∧
        RegsBut [regKey p 0x008 0] s.node m ∧ OnlyIn [.regs, .hdrs, .rsp] s.node m)) ∧
      Answers (.pageFreeze src p false) s (fun m =>
        m.rsp.ok = true ∧ m.fld p Fld.pgCtrlFreeze = 0 ∧ m.hdr p = { n.hdr p with frozen := none, consumed := [] } ∧ others m ∧
        RegsBut [regKey p 0x008 0] s.node m ∧ OnlyIn [.regs, .hdrs, .rsp] s.node m) ∧
      (s.node.running = true → p ≠ Node.casPage → Answers (.pageCommitRequest src p) s (fun m =>
        m.rsp.ok = true ∧ m.hdr p = { n.hdr p with commitReq := true } ∧ others m ∧ OnlyIn [.hdrs, .rsp] s.node m))) ∧
    (s.node.running = true → (s.node.hdr Node.casPage).resetting = false →
      (∀ i : Instr, i = .groupCommitRequest src ∨ i = .pageCommitRequest src Node.casPage → Answers i s (fun m =>
        m.rsp.ok = true ∧ m.cas = { s.node.cas with groupReq := true } ∧
        m.hdr Node.casPage = (s.node.keyTouched Node.casPage src.port).hdr Node.casPage ∧
        (∀ q, pageCode q ≠ pageCode Node.casPage → m.hdr q = s.node.hdr q) ∧ OnlyIn [.cas, .hdrs, .rsp] s.node m))) ∧
    (s.node.running = true → s.node.stagedJob = none →
      let group := if s.node.cas.groupReq then s.node.groupPages else []
      Answers .commitCutoff s (fun m =>
        (∀ q ∈ allPages, m.hdr q =
          if (s.node.hdr q).commitReq = true ∨ q ∈ group then
            { s.node.hdr q with commitReq := false, snapshot := some (s.node.shadowWords q), groupSnap := group.contains q }
          else s.node.hdr q) ∧
        m.cas = { s.node.cas with groupReq := false, groupSnap := s.node.cas.groupReq || s.node.cas.groupSnap } ∧
        m.active = s.node.active ∧ m.mem = s.node.mem ∧ m.clk = s.node.clk)) ∧
    (s.node.running = false → Answers .commitCutoff s (fun m => OnlyIn [] s.node m))

/-- R38: CODE 0xA5 and then 0x5A, as the port's next write to the page, open its key for that port alone; an attempt on a
key that another port holds is refused and counted in DROPS; a key closes when its count has passed. The model's own
choice in it: notes/assumptions/2.md. -/
def Obligations.PageKeys : Prop :=
  ∀ (s : State) (src : Src) (p : Page), s.node.alive = true → pageValid p = true → s.node.pagePresent p = true →
    (s.node.hdr p).resetting = false →
    ((s.node.hdr p).keyHolder = none ∨ (s.node.hdr p).keyHolder = some src.port →
      (src.port ∉ (s.node.hdr p).keyArmed →
        Answers (.keyCodeWrite src p 0xA5) s (fun m =>
          m.rsp.ok = true ∧ src.port ∈ (m.hdr p).keyArmed ∧ (m.hdr p).keyHolder = (s.node.hdr p).keyHolder ∧
          OnlyIn [.hdrs, .rsp] s.node m)) ∧
      (src.port ∈ (s.node.hdr p).keyArmed →
        Answers (.keyCodeWrite src p 0x5A) s (fun m =>
          m.rsp.ok = true ∧ (m.hdr p).keyHolder = some src.port ∧ (m.hdr p).keyCount = 0 ∧
          src.port ∉ (m.hdr p).keyArmed ∧ OnlyIn [.hdrs, .rsp] s.node m))) ∧
    (∀ q, (s.node.hdr p).keyHolder = some q → q ≠ src.port →
      Answers (.keyCodeWrite src p 0xA5) s (fun m =>
        m.rsp.ok = true ∧ (m.hdr p).keyHolder = some q ∧
        m.fld p Fld.pgKeyDrops = Nat.min (s.node.fld p Fld.pgKeyDrops + 1) 65535 ∧
        RegsBut [regKey p 0x028 0] s.node m ∧ OnlyIn [.regs, .hdrs, .rsp] s.node m)) ∧
    (∀ code : Byte, code ≠ 0xA5 → code ≠ 0x5A → (s.node.hdr p).keyHolder = some src.port →
      Answers (.keyCodeWrite src p code) s (fun m =>
        m.rsp.ok = true ∧ (m.hdr p).keyHolder = none ∧ OnlyIn [.hdrs, .rsp] s.node m)) ∧
    Answers (.keyExpiry p) s (fun m => (m.hdr p).keyHolder = none ∧ OnlyIn [.hdrs] s.node m)

/-! Casements. -/

/-- R49, R50, R52, R63: with each boundary the casement index rises by one, time stands at the boundary of the casement's
length after the last one, as DP0 slews it, and the Sill island latches the index. The casement begins with its work
window closed and with nothing complete or arrived, and an item that still runs keeps no result. The model's own choices in
it: notes/assumptions/2.md and notes/assumptions/153.md. -/
def Obligations.CasementBoundaryAdvances : Prop :=
  ∀ (s : State) (ev : BoundaryIn), s.node.alive = true → s.node.running = true →
    s.node.clk.now ≤ s.node.nextBoundary →
    Answers (.casementBoundary ev) s (fun m =>
      m.clk.index = s.node.clk.index + 1 ∧ m.clk.now = s.node.nextBoundary ∧
      (s.node.cas.slew = 0 → m.clk.now = s.node.clk.boundaryAt + rateLen s.node.rate) ∧
      m.clk.boundaryAt = m.clk.now ∧ m.sil.index = s.node.clk.index + 1 ∧ m.sil.ownTime = false ∧
      m.cas.unfinished = false ∧ m.cas.aborted = [] ∧ m.cas.windowOpen = false ∧ m.cas.deadlinePassed = false ∧
      m.cas.done = [] ∧ m.cas.recomputed = [] ∧ m.cas.arrived = [] ∧ m.cas.fetched = [] ∧ m.cas.hooks = [] ∧
      ∀ d < 6, ∀ k < 9, (m.engine d k).item.isSome = true → (m.engine d k).late = true ∧ (m.engine d k).buffer = [])

/-- R9, R51: REINDEX_NOW with the key triggers the re-index sequence, or is kept until the running one ends; without the
key it is dropped and counted. Generation stops when the fade has run; with no rate to be checked it resumes in the
next casement that the PHC gives, and the sequence ends with code 0x03. The model's own choices in it:
notes/assumptions/54.md, notes/assumptions/57.md and notes/assumptions/58.md. -/
def Obligations.ReindexSequence : Prop :=
  ∀ (s : State) (src : Src),
    (Reachable s Node.casPage → src.port ∉ (s.node.hdr Node.casPage).keyArmed →
      ((s.node.hdr Node.casPage).keyHolder = some src.port →
        (s.node.cas.reindex = .idle → Answers (.casReindexNow src) s (fun m =>
          m.rsp.ok = true ∧ m.cas.trigger = true ∧ OnlyIn [.cas, .rsp] s.node m)) ∧
        (s.node.cas.reindex ≠ .idle → Answers (.casReindexNow src) s (fun m =>
          m.rsp.ok = true ∧ m.cas.again = true ∧ m.cas.reindex = s.node.cas.reindex ∧ OnlyIn [.cas, .rsp] s.node m))) ∧
      ((s.node.hdr Node.casPage).keyHolder ≠ some src.port → Answers (.casReindexNow src) s (fun m =>
        m.rsp.ok = true ∧ m.fld Node.casPage Fld.pgKeyDrops = Nat.min (s.node.fld Node.casPage Fld.pgKeyDrops + 1) 65535 ∧
        RegsBut [regKey Node.casPage 0x028 0] s.node m ∧ OnlyIn [.regs, .rsp] s.node m))) ∧
    (s.node.alive = true → s.node.running = true → s.node.cas.reindex = .fading → NoCommitWaits s.node →
      Answers .reindexGenerationStop s (fun m =>
        m.cas.reindex = .stopped ∧ m.clk.running = false ∧ m.pins.clocked = .low ∧
        m.cas.awaiting = (match s.node.cas.newRate with
          | some r => s.node.rateNeedsCheck r
          | none => s.node.cas.awaiting) ∧
        (∀ d < 6, ∀ k < 9, (m.engine d k).item = none) ∧ m.mem = s.node.mem ∧ m.sht = s.node.sht)) ∧
    (s.node.alive = true → s.node.cas.reindex = .stopped → s.node.cas.awaiting = false → s.node.cas.newRate = none →
      Answers .reindexResume s (fun m =>
        m.cas.reindex = .idle ∧ (m.sil.fatal = false → m.clk.running = true) ∧
        m.fld Node.casPage Fld.casStatReindexing = 0 ∧ m.mem = s.node.mem ∧
        (s.node.phcSub * rateCr s.node.rate % secondUnits ≠ 0 → m.clk.index = s.node.phcIndex + 1) ∧
        (s.node.phcSub * rateCr s.node.rate % secondUnits = 0 ∧ s.node.clk.now ≠ s.node.clk.boundaryAt →
          m.clk.index = s.node.phcIndex ∧ m.clk.boundaryAt = s.node.clk.now)))

/-- R400, R402: the ROUTE service answers whether the configuration in force runs at a committed rate. Admitted, the rate
is taken when the sequence ends, or at once where CAS waits to be enabled. Refused, or without an answer, the rate in
force stays in both copies of CAS.RATE and contained code 0x07 is raised. The model's own choices in it:
notes/assumptions/61.md and notes/assumptions/191.md. -/
def Obligations.RateReadmission : Prop :=
  ∀ (s : State) (r : Nat), s.node.alive = true → s.node.cas.newRate = some r → s.node.cas.awaiting = true →
    let cfg : Cfg := { s.node.rt.cfg with rate := r }
    let refusal := (s.node.admission none cfg).refusal.orElse (fun _ => oversizeItem cfg)
    (s.node.mgmt.running = true → s.node.cas.reindex = .stopped →
      (refusal = none →
        Answers .rateReadmitAnswer s (fun m =>
          m.cas.awaiting = false ∧ m.cas.newRate = some r ∧ m.cas.reindex = .stopped ∧
          RegsBut [regKey Node.casPage 0x05C 0] s.node m ∧ OnlyIn [.cas, .regs] s.node m)) ∧
      (∀ d, refusal = some d →
        Answers .rateReadmitAnswer s (fun m =>
          m.cas.awaiting = false ∧ m.cas.newRate = none ∧ m.rate = s.node.rate ∧
          m.fld Node.casPage Fld.casRateRate = s.node.rate ∧ m.act Node.casPage Fld.casRateRate = s.node.rate ∧
          m.reg Node.casPage 0x060 = BitVec.ofNat 32 (d * 256 + 255) ∧ Raised Node.casPage 7 s.node m ∧
          OnlyIn (.cas :: .active :: .free :: faultParts) s.node m))) ∧
    (s.node.mgmt.running = true → s.node.cas.reindex = .idle → s.node.running = false → s.node.cas.again = false →
      refusal = none → r < 6 →
        Answers .rateReadmitAnswer s (fun m =>
          m.cas.awaiting = false ∧ m.cas.newRate = none ∧ m.rate = r ∧ (m.sil.fatal = false → m.clk.running = true))) ∧
    (s.node.cas.reindex = .stopped →
      Answers .rateReadmitTimeout s (fun m =>
        m.cas.awaiting = false ∧ m.cas.newRate = none ∧ m.rate = s.node.rate ∧
        m.fld Node.casPage Fld.casRateRate = s.node.rate ∧ m.act Node.casPage Fld.casRateRate = s.node.rate ∧
        Raised Node.casPage 7 s.node m ∧ OnlyIn (.cas :: .active :: .free :: faultParts) s.node m))

/-- R33, R37, R49, R100: generation stops when CAS's shutdown completes, and CAS is Idle. A read of INDEX_LO returns the
low word of the index and latches the high word. A read of a crosspoint or Shutter descriptor returns its first word
and latches the rest (R93, R109). The model's own choice in it: notes/assumptions/56.md. -/
def Obligations.GenerationStopAndLatchedReads : Prop :=
  ∀ (s : State) (src : Src), s.node.alive = true →
    ((s.node.hdr Node.casPage).busy = true → (s.node.hdr Node.casPage).resetting = false →
      (s.node.hdr Node.casPage).pending = false → s.node.running = true → NoCommitWaits s.node →
      Answers .casGenerationStop s (fun m =>
        m.clk.running = false ∧ (m.hdr Node.casPage).busy = false ∧ m.cas.reindex = .idle ∧
        (∀ d < 6, ∀ k < 9, (m.engine d k).item = none) ∧ m.mem = s.node.mem)) ∧
    ((s.node.hdr Node.casPage).frozen = none → Answers (.casIndexRead src) s (fun m =>
      m.rsp.ok = true ∧ m.rsp.data = BitVec.ofNat 32 s.node.clk.index ∧
      m.reg Node.casPage 0x050 = BitVec.ofNat 32 (s.node.clk.index / 2 ^ 32) ∧
      RegsBut [regKey Node.casPage 0x050 0] s.node m ∧ OnlyIn [.regs, .rsp] s.node m)) ∧
    ((s.node.hdr xptPage).frozen = none → Answers (.xptObjRead src) s (fun m =>
      m.rsp.ok = true ∧ m.rsp.data = s.node.objDesc.getD 0 0 ∧
      (∀ k < 3, m.reg xptPage (0x05C + 4 * k) = s.node.objDesc.getD (k + 1) 0) ∧
      RegsBut ([0, 1, 2].map (fun k => regKey xptPage (0x05C + 4 * k) 0)) s.node m ∧ OnlyIn [.regs, .rsp] s.node m)) ∧
    ((s.node.hdr shtPage).frozen = none → Answers (.shtRdRead src) s (fun m =>
      m.rsp.ok = true ∧ m.rsp.data = s.node.shutDesc.getD 0 0 ∧
      (∀ k < 3, m.reg shtPage (0x060 + 4 * k) = s.node.shutDesc.getD (k + 1) 0) ∧
      RegsBut ([0, 1, 2].map (fun k => regKey shtPage (0x060 + 4 * k) 0)) s.node m ∧ OnlyIn [.regs, .rsp] s.node m))

/-! Path engines, Fen and links. -/

/-- R52, R63, R110, R114, R120, R146: the next item of a slot's schedule, its inputs in Fen, runs in its engine's write-back
buffer and leaves Fen as it was until it completes, when each byte that it has written last reaches Fen and the new blocks
of long delay lines go to DRAM; another item, or one whose inputs are missing, does not start. An item that meets a poisoned
word is aborted. One that is unfinished at the deadline ends without its results, at the latest when the next window opens. The
model's own choices in it: notes/assumptions/68.md, notes/assumptions/70.md and notes/assumptions/152.md. -/
def Obligations.WorkItemsWriteBack : Prop :=
  ∀ (s : State) (d : Die) (slot : Fin 8) (k item : Nat), s.node.alive = true →
    (s.node.die d).engines.length = 9 → s.node.engineOf d slot = some k →
    let e := s.node.engine d k
    let ended : Engine := { e with item := none, ops := [], buffer := [], past := 0, ran := {}, recompute := false, late := false }
    (∀ x, s.node.nextItem d slot = some x → s.node.cas.windowOpen = true →
      (x.num = item → s.node.firstUnmet x = none → e.item = none → s.node.running = true → s.node.cas.deadlinePassed = false →
        s.node.rt.lostSlots.contains (d * 8 + slot) = false → s.node.boot.engPresent.getLsbD d = true → e.inject = 0 →
        let r := s.node.runItem d (s.node.itemOps x)
        (r.poisoned = false →
          Answers (.workItemStart d slot item) s (fun m =>
            (m.engine d k).item = some item ∧ (m.engine d k).ops = s.node.itemOps x ∧ (m.engine d k).buffer = r.buffer ∧
            (m.engine d k).recompute = false ∧ RegsIn [penPage d, bqdPage d] s.node m ∧ OnlyIn [.dies, .regs] s.node m)) ∧
        (r.poisoned = true →
          Answers (.workItemStart d slot item) s (fun m =>
            (m.engine d k).item = none ∧ m.cas.aborted = s.node.cas.aborted ++ [(slot.val, ⟨d, k, item, false⟩)] ∧
            OnlyIn [.dies, .cas] s.node m))) ∧
      (x.num ≠ item ∨ s.node.firstUnmet x ≠ none → Answers (.workItemStart d slot item) s (fun m => OnlyIn [] s.node m))) ∧
    (s.node.cas.windowOpen = false → Answers (.workItemStart d slot item) s (fun m =>
      m.cas.windowOpen = true ∧ m.mem = s.node.mem ∧
      (s.node.nextItem d slot = none → ∀ d' < 6, ∀ k' < 9, (m.engine d' k').item = none))) ∧
    (e.item = some item → (s.node.die d).steerCopying = false →
      (e.late = false → s.node.cas.deadlinePassed = false →
        Answers (.workItemComplete d slot) s (fun m =>
          m.engine d k = ended ∧
          m.cas.done = s.node.cas.done ++ [(d.val, slot.val, item)] ∧
          (∀ off, Node.fenAddr d off < dramBase → m.rdByte (Node.fenAddr d off) =
            ((e.buffer.find? (fun c => decide (c.1 = off))).map (·.2)).getD (s.node.rdByte (Node.fenAddr d off))) ∧
          (∀ a < dramBase, (∀ c ∈ e.buffer, a ≠ Node.fenAddr d c.1) → m.rdByte a = s.node.rdByte a) ∧
          (∀ x st, (s.node.schedule d slot).find? (fun y => decide (y.num = item)) = some x → x.item.outs = [st.num] →
            Graph.stripAt x.cfg st.num = some st → st.dram = true → Node.fenAddr st.die (st.fenRing + 256) ≤ dramBase →
            ∀ t < s.node.s, m.rdBytes (dramBase + (st.ring + 4 * (s.node.mediaSample t % Node.dramRing))) 4 =
              m.rdBytes (Node.fenAddr st.die (st.fenRing + 4 * (s.node.mediaSample t % 64))) 4) ∧
          ((∀ x ∈ s.node.schedule d slot, ∀ o ∈ x.item.outs, ∀ st, Graph.stripAt x.cfg o = some st → st.dram = false) →
            (∀ a, (∀ c ∈ e.buffer, a ≠ Node.fenAddr d c.1) → m.rdByte a = s.node.rdByte a) ∧
            m.dram = s.node.dram) ∧
          (e.recompute = false → OnlyIn [.mem, .dies, .cas, .dram] s.node m) ∧
          (e.recompute = true →
            m.fld (penPage d) Fld.penCheckRecomputed = Nat.min (s.node.fld (penPage d) Fld.penCheckRecomputed + 1) 65535 ∧
            Raised (penPage d) 1 s.node m ∧ OnlyIn (.mem :: .dies :: .cas :: .dram :: faultParts) s.node m))) ∧
      (e.late = true ∨ s.node.cas.deadlinePassed = true → Answers (.workItemComplete d slot) s (fun m =>
        m.engine d k = ended ∧ OnlyIn [.dies] s.node m))) ∧
    (e.item = some item → e.late = true →
      Answers (.unfinishedItemEnd d k item) s (fun m => m.engine d k = ended ∧ OnlyIn [.dies] s.node m))

/-- R52, R122, R125, R399: a transfer that arrives on its link, which is up, of a block or sum that the casement has computed, stores
its bytes in Fen at its place; a partial sum whose residue is wrong aborts the item that it is for and raises code 0x04. The
model's own choices in it: notes/assumptions/2.md and notes/assumptions/170.md. -/
def Obligations.LintelTransferArrives : Prop :=
  ∀ (s : State) (d : Die) (l : Fin 2) (what : Lintel) (flaw : Option (Nat × Nat)), s.node.alive = true →
    let usable := s.node.running = true ∧ s.node.rt.inForce = true ∧ (s.node.link d l).down = false ∧
      (s.node.link d l).training = false ∧ s.node.transferLink d what = l.val ∧ s.node.transferReady what = true ∧ (d.val, what) ∉ s.node.cas.arrived
    (∀ off data, usable → (s.node.die d).steerCopying = false → s.node.transferData d what = some (off, data) →
      let stores := fun (bs : List Byte) (m : Node) =>
        (∀ j (h : j < bs.length), m.rdByte (Node.fenAddr d off + j) = bs[j]) ∧ MemBut (Node.fenAddr d off) bs.length s.node m
      let arrives := fun (bs : List Byte) => Answers (.lintelTransferArrival d l what flaw) s (fun m =>
        stores bs m ∧ m.cas.arrived = s.node.cas.arrived ++ [(d.val, what)] ∧ OnlyIn [.mem, .dies, .cas] s.node m)
      ((∀ b src sl it, what ≠ .psum b src sl it) → arrives data) ∧
      (∀ b src sl it, what = .psum b src sl it →
        (psumOk (flawed data flaw) = true → arrives (flawed data flaw)) ∧
        (psumOk (flawed data flaw) = false → Answers (.lintelTransferArrival d l what flaw) s (fun m =>
          let x := (s.node.busItem b).getD (0, 0)
          stores (flawed data flaw) m ∧ m.cas.arrived = s.node.cas.arrived ∧
          m.cas.aborted = s.node.cas.aborted ++ [(x.1, ⟨d, (s.node.engineOf d x.1).getD x.1, x.2, false⟩)] ∧
          Raised (lnkPage d) 4 s.node m ∧ OnlyIn (.mem :: .dies :: .cas :: faultParts) s.node m)))) ∧
    (¬usable → Answers (.lintelTransferArrival d l what flaw) s (fun m => OnlyIn [] s.node m))

/-- R62, R63, R64, R117: at the work deadline the sinks of every unfinished item take the emergency fade at the next boundary; the
first unfinished work of a casement raises code 0x01, or 0x02 for late input, is counted and captured, and later work
of the casement raises no second fault. Results of unfinished items are discarded, and no spare reruns one. The model's own
choices in it: notes/assumptions/53.md and notes/assumptions/154.md. -/
def Obligations.WorkDeadlineJudged : Prop :=
  ∀ (s : State), s.node.alive = true → s.node.running = true → s.node.cas.windowOpen = true →
    let us := s.node.unfinishedItems
    let discarded := fun (m : Node) => m.cas.deadlinePassed = true ∧ m.mem = s.node.mem ∧
      (∀ d < 6, (m.die d).rerun = none ∧ ∀ k < 9, (m.engine d k).item.isSome = true →
        (m.engine d k).late = true ∧ (m.engine d k).buffer = [])
    let failed := fun (m : Node) => ∀ v ∈ us, ∀ x ∈ s.node.unfinishedSinks v, x ∈ m.sht.failed
    (s.node.cas.deadlinePassed = true → Answers .workDeadline s (fun m => OnlyIn [] s.node m)) ∧
    (s.node.cas.deadlinePassed = false → s.node.rt.cfg.reeds = [] →
      (∀ c, (s.node.reed c).mode = .idle ∧ (s.node.reed c).interrupted = false) →
      (us = [] → Answers .workDeadline s (fun m => discarded m ∧ OnlyIn [.reeds, .cas, .dies] s.node m)) ∧
      (∀ u rest, us = u :: rest → s.node.cas.unfinished = false →
        Answers .workDeadline s (fun m =>
          m.cas.unfinished = true ∧ Raised Node.casPage (if u.late then 2 else 1) s.node m ∧
          m.fld Node.casPage Fld.casEventsUnfinished = Nat.min (s.node.fld Node.casPage Fld.casEventsUnfinished + 1) 65535 ∧
          (s.node.flag Node.casPage Fld.casOvrInfoValid = false →
            m.reg Node.casPage 0x068 = ovrInfo u.die u.unit u.item) ∧ failed m ∧ discarded m)) ∧
      (s.node.cas.unfinished = true →
        Answers .workDeadline s (fun m => failed m ∧ discarded m ∧ OnlyIn [.reeds, .cas, .dies, .sht] s.node m)))

/-- R113, R115, R116, R118: the check unit sees an error of the datapath that is not a multiple of 3. The first mismatch makes
its engine suspect and starts a recompute; a second one while it is suspect retires it, and so does a failed test in
service. An error that it does not see leaves the item to its results. The model's own choice in it:
notes/assumptions/2.md. -/
def Obligations.ResidueMismatchAndTests : Prop :=
  (∀ (r : ItemRun) (v err : Int), satInt 72 v = v → r.flaw = some (r.checks, 1, err) →
    (r.sum v).agree = (r.agree && decide (err % 3 = 0))) ∧
  (∀ (r : ItemRun) (off : Nat) (v err : Int), satInt 32 v = v → r.flaw = some (r.checks, 2, err) →
    (r.putSample off v).agree = (r.agree && decide (err % 3 = 0))) ∧
  ∀ (s : State) (d : Die) (slot : Fin 8) (k item : Nat) (lane stage : Fin 4) (op : Nat) (err : Int), s.node.alive = true →
    (s.node.die d).engines.length = 9 → s.node.engineOf d slot = some k → (s.node.engine d k).item = some item →
    let e := s.node.engine d k
    let r := (e.ops.drop e.past).foldl (fun r op => s.node.runOp d r op) { e.ran with flaw := some (op, stage.val, err) }
    (r.agree = true → Answers (.residueMismatch d slot lane stage op err) s (fun m =>
      m.engine d k = { e with buffer := if e.late then [] else r.buffer } ∧ OnlyIn [.dies] s.node m)) ∧
    (r.agree = false → e.suspect = false → (s.node.runItem d e.ops).poisoned = false →
      Answers (.residueMismatch d slot lane stage op err) s (fun m =>
        (m.engine d k).suspect = true ∧ (m.engine d k).recompute = true ∧ (m.engine d k).item = some item ∧
        (m.engine d k).buffer = (s.node.runItem d e.ops).buffer ∧
        m.fld (penPage d) Fld.penCheckMismatch = Nat.min (s.node.fld (penPage d) Fld.penCheckMismatch + 1) 65535 ∧
        m.flag (penPage d) Fld.penMmcapValid = true ∧ (d.val, k) ∈ m.cas.recomputed ∧
        RegsIn [penPage d] s.node m ∧ OnlyIn [.dies, .cas, .regs] s.node m)) ∧
    (r.agree = false → e.suspect = true →
      Answers (.residueMismatch d slot lane stage op err) s (fun m =>
        (m.engine d k).state = .retired ∧ (m.engine d k).suspect = false ∧ (m.engine d k).item = none ∧
        m.fld (penPage d) Fld.penCheckMismatch = Nat.min (s.node.fld (penPage d) Fld.penCheckMismatch + 1) 65535 ∧
        Raised (penPage d) 2 s.node m ∧ m.mem = s.node.mem ∧
        (e.state = .active → (s.node.engine d 8).state = .spare → (s.node.die d).spareFor = none →
          (m.die d).spareFor = some k ∧ (m.die d).rerun = (if e.late then none else some (item, e.ops)) ∧
          OnlyIn (.dies :: faultParts) s.node m)))

/-- R55, R116 to R118: a self-test does not run where a recompute has used its engine's reserve of the casement; what its end, the
spare's takeover and a failed vector of the idle spare change, and
what a write of PEN.STEST.RUN or, under the key, of PEN.INJECT asks for. The model's own choice in it:
notes/assumptions/2.md. -/
def Obligations.EngineTestsAndSpare : Prop :=
  ∀ (s : State) (d : Die), s.node.alive = true → (s.node.die d).engines.length = 9 →
    (∀ (e : Fin 9) (pass : Bool), s.node.running = true → (d.val, e.val) ∈ s.node.cas.recomputed →
      Answers (.engineSelfTestEnd d e pass) s (fun m => OnlyIn [] s.node m)) ∧
    (∀ e : Fin 9, s.node.running = false ∨ (d.val, e.val) ∉ s.node.cas.recomputed →
      Answers (.engineSelfTestEnd d e true) s (fun m =>
        m.engine d e = { s.node.engine d e with testAsked := false, suspect := false } ∧
        (m.fld (penPage d) Fld.penStestLastFail).testBit e = false ∧
        RegsBut [regKey (penPage d) 0x058 0] s.node m ∧ OnlyIn [.dies, .regs, .flt] s.node m) ∧
      ((s.node.engine d e).state = .retired ∨ (s.node.engine d e).state = .spare ∧ (s.node.die d).spareFor ≠ none →
        Answers (.engineSelfTestEnd d e false) s (fun m =>
          m.engine d e = { s.node.engine d e with testAsked := false } ∧
          (m.fld (penPage d) Fld.penStestLastFail).testBit e = true ∧ (m.reg (penPage d) 0x010).getLsbD 3 = true ∧
          RegsBut [regKey (penPage d) 0x058 0, regKey (penPage d) 0x010 0] s.node m ∧
          OnlyIn [.dies, .regs, .flt] s.node m)) ∧
      (e = 8 → (s.node.engine d e).state = .spare → (s.node.die d).spareFor = none →
        Answers (.engineSelfTestEnd d e false) s (fun m =>
          m.engine d e = { s.node.engine d e with
            testAsked := false
            state := .retired } ∧
          (m.fld (penPage d) Fld.penStestLastFail).testBit e = true ∧ (m.reg (penPage d) 0x010).getLsbD 3 = true ∧
          m.flt.nextSeq = (s.node.flt.nextSeq + 1) % 4294967296 ∧
          OnlyIn (.dies :: .free :: faultParts) s.node m)) ∧
      ((s.node.engine d e).state = .active ∨ (s.node.engine d e).state = .standingIn →
        Answers (.engineSelfTestEnd d e false) s (fun m =>
          (m.engine d e).state = .retired ∧ m.flt.nextSeq = (s.node.flt.nextSeq + 1) % 4294967296 ∧
          (m.fld (penPage d) Fld.penStestLastFail).testBit e = true ∧ m.mem = s.node.mem))) ∧
    (∀ x, (s.node.die d).spareFor = some x → (s.node.engine d 8).state = .spare →
      Answers (.spareTakeover d) s (fun m =>
        (m.engine d 8).state = .standingIn ∧ (m.die d).spareFor = some x ∧ (m.die d).rerun = none ∧ m.mem = s.node.mem ∧
        (s.node.cas.windowOpen = true → (s.node.die d).rerun = none ∨ s.node.running = false ∨ s.node.cas.deadlinePassed = true →
          m.engine d 8 = { s.node.engine d 8 with state := .standingIn } ∧ OnlyIn [.dies] s.node m) ∧
        (∀ item ops, s.node.cas.windowOpen = true → (s.node.die d).rerun = some (item, ops) → s.node.running = true →
          s.node.cas.deadlinePassed = false → (s.node.runItem d ops).poisoned = false →
          (m.engine d 8).item = some item ∧ (m.engine d 8).buffer = (s.node.runItem d ops).buffer))) ∧
    ((s.node.engine d 8).state = .spare → (s.node.die d).spareFor = none →
      Answers (.spareVectorFail d) s (fun m =>
        m.engine d 8 = { s.node.engine d 8 with state := .retired } ∧ Raised (penPage d) 3 s.node m ∧
        (m.reg (penPage d) 0x010).getLsbD 3 = true ∧ OnlyIn (.dies :: .free :: faultParts) s.node m)) ∧
    (∀ src : Src, Reachable s (penPage d) → src.port ∉ (s.node.hdr (penPage d)).keyArmed →
      (∀ es : BitVec 9, Answers (.penStestRun src d es) s (fun m =>
        m.rsp.ok = true ∧
        (∀ k < 9, m.engine d k = if es.getLsbD k ∧ (s.node.engine d k).state ≠ .retired
          then { s.node.engine d k with testAsked := true } else s.node.engine d k) ∧
        OnlyIn [.dies, .rsp] s.node m)) ∧
      (∀ (e : BitVec 4) (c : BitVec 2),
        ((s.node.hdr (penPage d)).keyHolder = some src.port → e.toNat < 9 → c.toNat = 1 ∨ c.toNat = 2 →
          Answers (.penInjectArm src d e c) s (fun m =>
            m.rsp.ok = true ∧ m.engine d e.toNat = { s.node.engine d e.toNat with inject := c.toNat } ∧
            m.fld (penPage d) Fld.penInjectEngine = e.toNat ∧ m.fld (penPage d) Fld.penInjectCount = c.toNat ∧
            RegsBut [regKey (penPage d) 0x05C 0] s.node m ∧ OnlyIn [.dies, .regs, .rsp] s.node m)) ∧
        ((s.node.hdr (penPage d)).keyHolder ≠ some src.port →
          Answers (.penInjectArm src d e c) s (fun m =>
            m.rsp.ok = true ∧
            m.fld (penPage d) Fld.pgKeyDrops = Nat.min (s.node.fld (penPage d) Fld.pgKeyDrops + 1) 65535 ∧
            RegsBut [regKey (penPage d) 0x028 0] s.node m ∧ OnlyIn [.regs, .rsp] s.node m))))

/-- R120: an uncorrectable Fen word is counted and poisoned and raises code 0x02, a corrected one raises code 0x01; a
rewrite of a poisoned word stores the configuration's copy of it, or zero, and clears its mark; a bank that fails its march test is retired. The model's
own choice in it: notes/assumptions/2.md. -/
def Obligations.FenErrors : Prop :=
  ∀ (s : State) (d : Die), s.node.alive = true →
    (∀ off, off / 0x80000 < 24 → s.node.boot.engPresent.getLsbD d = true →
      Answers (.fenEccError d off true) s (fun m =>
        off / 8 * 8 ∈ (m.die d).poisoned ∧
        m.fld (fenPage d) Fld.fenEccUncorrected = Nat.min (s.node.fld (fenPage d) Fld.fenEccUncorrected + 1) 65535 ∧
        m.flag (fenPage d) Fld.fenEcccapValid = true ∧ Raised (fenPage d) 2 s.node m ∧
        ((∀ k < 9, (s.node.engine d k).item = none) → OnlyIn (.dies :: faultParts) s.node m) ∧
        OnlyIn (.dies :: .cas :: .free :: faultParts) s.node m) ∧
      Answers (.fenEccError d off false) s (fun m =>
        m.fld (fenPage d) Fld.fenEccCorrected = Nat.min (s.node.fld (fenPage d) Fld.fenEccCorrected + 1) 65535 ∧
        m.flag (fenPage d) Fld.fenEcccapValid = true ∧ Raised (fenPage d) 1 s.node m ∧ OnlyIn faultParts s.node m)) ∧
    (∀ off, s.node.mgmt.running = true → (s.node.die d).steerCopying = false →
      (s.node.die d).poisoned.contains (off / 8 * 8) = true →
      Answers (.fenPoisonRewrite d off) s (fun m =>
        off / 8 * 8 ∉ (m.die d).poisoned ∧
        (∀ j < 8, m.rdByte (Node.fenAddr d (off / 8 * 8 + j)) = (s.node.fenCopy d (off / 8 * 8 + j)).getD 0) ∧
        MemBut (Node.fenAddr d (off / 8 * 8)) 8 s.node m ∧ OnlyIn [.mem, .dies] s.node m)) ∧
    (∀ bank : Fin 24,
      Answers (.fenBankMarchEnd d bank true) s (fun m => OnlyIn [.flt] s.node m) ∧
      ((s.node.die d).retiredBanks.getLsbD bank = false →
        Answers (.fenBankMarchEnd d bank false) s (fun m =>
          (∀ b < 24, (m.die d).retiredBanks.getLsbD b = ((s.node.die d).retiredBanks.getLsbD b || decide (b = bank.val))) ∧
          (s.node.rt.inForce = true → m.rt.readmitWaits = true) ∧
          m.flt.nextSeq = (s.node.flt.nextSeq + 1) % 4294967296 ∧ (m.reg (fenPage d) 0x010).getLsbD 1 = true ∧
          OnlyIn (.dies :: .rt :: .free :: faultParts) s.node m)))

/-- R123, R124: a CRC error replays, is counted and raises code 0x01; the replay ends; lanes that fail their test put the
link into training, after which it runs on the half without a failed lane (code 0x02) or is down (code 0x03). The
model's own choice in it: notes/assumptions/2.md. -/
def Obligations.LintelLinkErrors : Prop :=
  ∀ (s : State) (node : Fin 7) (l : Fin 2), s.node.alive = true → (s.node.die node).links.length = 2 →
    (∀ flits, Answers (.linkCrcError node l flits) s (fun m =>
      (m.link node l).replaying = true ∧ Raised (Node.linkPage node) 1 s.node m ∧
      (node.val = 6 → m.fld snsPage Fld.snsLnkerrCrcerr = Nat.min (s.node.fld snsPage Fld.snsLnkerrCrcerr + 1) 65535 ∧
        m.fld snsPage Fld.snsLnkerrReplay = Nat.min (s.node.fld snsPage Fld.snsLnkerrReplay + Nat.min flits 64) 65535) ∧
      (node.val < 6 → l = 0 →
        m.fld (lnkPage node) Fld.lnkCrcerrLink0 = Nat.min (s.node.fld (lnkPage node) Fld.lnkCrcerrLink0 + 1) 65535 ∧
        m.fld (lnkPage node) Fld.lnkReplayLink0 = Nat.min (s.node.fld (lnkPage node) Fld.lnkReplayLink0 + Nat.min flits 64) 65535) ∧
      (node.val < 6 → l = 1 →
        m.fld (lnkPage node) Fld.lnkCrcerrLink1 = Nat.min (s.node.fld (lnkPage node) Fld.lnkCrcerrLink1 + 1) 65535 ∧
        m.fld (lnkPage node) Fld.lnkReplayLink1 = Nat.min (s.node.fld (lnkPage node) Fld.lnkReplayLink1 + Nat.min flits 64) 65535) ∧
      OnlyIn (.dies :: faultParts) s.node m)) ∧
    Answers (.linkReplayComplete node l) s (fun m =>
      m.link node l = { s.node.link node l with replaying := false } ∧ OnlyIn [.dies] s.node m) ∧
    Answers (.linkLaneTestEnd node l 0) s (fun m => OnlyIn [.flt] s.node m) ∧
    (∀ bad : Word, bad ≠ 0 → Answers (.linkLaneTestEnd node l bad) s (fun m =>
      m.link node l = { s.node.link node l with
        lanes := (s.node.link node l).lanes ||| bad, training := !(s.node.link node l).down } ∧
      OnlyIn [.dies, .flt] s.node m)) ∧
    (∀ failed : Word, (s.node.link node l).training = true →
      let lanes := (s.node.link node l).lanes ||| failed
      let now : Link := { s.node.link node l with
        lanes := lanes
        trained := true
        training := false }
      (lanes = 0 → Answers (.linkRetrainComplete node l failed) s (fun m =>
        m.link node l = now ∧ OnlyIn [.dies] s.node m)) ∧
      ((lanes.toNat % 65536 ≠ 0) ≠ (lanes.toNat / 65536 ≠ 0) →
        Answers (.linkRetrainComplete node l failed) s (fun m =>
          m.link node l = { now with
            replaying := false
            narrow := true } ∧
          Raised (Node.linkPage node) 2 s.node m ∧ (s.node.rt.inForce = true → m.rt.readmitWaits = true) ∧
          OnlyIn (.dies :: .rt :: faultParts) s.node m)) ∧
      (lanes.toNat % 65536 ≠ 0 → lanes.toNat / 65536 ≠ 0 →
        Answers (.linkRetrainComplete node l failed) s (fun m =>
          m.link node l = { now with
            replaying := false
            narrow := false
            down := true } ∧
          Raised (Node.linkPage node) 3 s.node m ∧ (s.node.rt.inForce = true → m.rt.readmitWaits = true) ∧
          OnlyIn (.dies :: .rt :: .sht :: faultParts) s.node m)))

/-! Reed cores. -/

/-- R179, the classes ALU and ALUI: with A a register and B a register, immediate or extension word, each operation
writes D and the flags that it names, and nothing else; ABS and NEG take the words that their E bit gives (R178). Whether the C of SUB and CMP is the borrow is not stated: it
is a free choice, and the statement holds for either (notes/assumptions/72.md). The model's own choices in it:
notes/assumptions/73.md and notes/assumptions/82.md. -/
def Obligations.ReedArithmetic : Prop :=
  ∀ (s : State) (c : CoreId) (d a : Fin 16) (b : Opnd), s.node.alive = true → ReedReady s.node c →
    let r := s.node.reed c
    let A := xr r a
    let B := opnd r b
    let pc := r.pc + opndLen b
    let done := fun (w st : Word) (m : Node) => ReedDone c pc { r with x := r.x.set d.val w, st := st } [] [] s.node m
    Answers (.reedAdd c d a b) s (done (A + B)
      (putBit (putBit (znOf r.st (A + B)) stV (BitVec.saddOverflow A B)) stC (BitVec.uaddOverflow A B))) ∧
    (∃ cf, Answers (.reedSub c d a b) s (done (A - B) (putBit (putBit (znOf r.st (A - B)) stV (BitVec.ssubOverflow A B)) stC cf)) ∧
      Answers (.reedCmp c a b) s (ReedDone c pc
        { r with st := putBit (putBit (znOf r.st (A - B)) stV (BitVec.ssubOverflow A B)) stC cf } [] [] s.node)) ∧
    Answers (.reedAnd c d a b) s (done (A &&& B) (znOf r.st (A &&& B))) ∧
    Answers (.reedOr c d a b) s (done (A ||| B) (znOf r.st (A ||| B))) ∧
    Answers (.reedXor c d a b) s (done (A ^^^ B) (znOf r.st (A ^^^ B))) ∧
    Answers (.reedShl c d a b) s (done (A <<< (B.toNat % 32)) (znOf r.st (A <<< (B.toNat % 32)))) ∧
    Answers (.reedShr c d a b) s (done (A >>> (B.toNat % 32)) (znOf r.st (A >>> (B.toNat % 32)))) ∧
    Answers (.reedAsr c d a b) s (done (A.sshiftRight (B.toNat % 32)) (znOf r.st (A.sshiftRight (B.toNat % 32)))) ∧
    Answers (.reedMin c d a b) s (done (if A.slt B then A else B) (znOf r.st (if A.slt B then A else B))) ∧
    Answers (.reedMax c d a b) s (done (if A.slt B then B else A) (znOf r.st (if A.slt B then B else A))) ∧
    (∀ v : Int, v = A.toInt + B.toInt → Answers (.reedAdds c d a b) s (done (BitVec.ofInt 32 (clampTo 32 v))
      (stickBit (putBit (znOf r.st (BitVec.ofInt 32 (clampTo 32 v))) stV (outside 32 v)) stSatAlu (outside 32 v)))) ∧
    (∀ v : Int, v = A.toInt - B.toInt → Answers (.reedSubs c d a b) s (done (BitVec.ofInt 32 (clampTo 32 v))
      (stickBit (putBit (znOf r.st (BitVec.ofInt 32 (clampTo 32 v))) stV (outside 32 v)) stSatAlu (outside 32 v)))) ∧
    Answers (.reedMull c d a b) s (done (A * B) r.st) ∧
    Answers (.reedMov c d b) s (done B r.st) ∧
    Answers (.reedAbs c d a) s (ReedDone c (r.pc + s.node.instrLen c r.pc)
      { r with x := r.x.set d.val (if A = 0x80000000 then 0x7FFFFFFF else if A.slt 0 then -A else A),
               st := stickBit r.st stV (decide (A = 0x80000000)) } [] [] s.node) ∧
    Answers (.reedNeg c d a) s (ReedDone c (r.pc + s.node.instrLen c r.pc)
      { r with x := r.x.set d.val (if A = 0x80000000 then 0x7FFFFFFF else -A),
               st := stickBit r.st stV (decide (A = 0x80000000)) } [] [] s.node)

/-- R166, R179, R181, the class ACC: each operation writes its accumulator or register. STQ rounds to nearest with ties
upward and saturates, ADDA, SUBA, ASH, ABSA and NEGA saturate to 80 bits, and each saturation sets its SAT bit. EXP
finds the leading bits equal to bit 79 up to 80. The model's own choices in it: notes/assumptions/73.md and
notes/assumptions/82.md. -/
def Obligations.ReedAccumulators : Prop :=
  ∀ (s : State) (c : CoreId) (d : Fin 16) (k j f : Fin 4) (b : Opnd), s.node.alive = true → ReedReady s.node c →
    let r := s.node.reed c
    let B := opnd r b
    let K : BitVec 80 := acc r k
    let J : BitVec 80 := acc r j
    let toX := fun (w : Word) => ReedDone c (r.pc + 1) { r with x := r.x.set d.val w } [] [] s.node
    let toAc := fun (w : BitVec 80) => ReedDone c (r.pc + 1) { r with ac := r.ac.set k.val w } [] [] s.node
    let wide := fun (w : BitVec 80) => ReedDone c (r.pc + opndLen b) { r with ac := r.ac.set k.val w } [] [] s.node
    let sums := fun (pc : Nat) (v : Int) => ReedDone c pc
      { r with ac := r.ac.set k.val (BitVec.ofInt 80 (clampTo 80 v)), st := stickBit r.st stSatAcc (outside 80 v) } [] [] s.node
    let drop := if f.val = 3 then 0 else 31 + f.val
    let q : Int := if f.val = 3 then K.toInt else (K.toInt + 2 ^ (drop - 1)) / 2 ^ drop
    let shift : Int := B.toInt
    let moved := fun (e : Int) => if 0 ≤ e then K.toInt * 2 ^ e.toNat else K.toInt / 2 ^ (-e).toNat
    Answers (.reedClr c k) s (toAc 0) ∧
    Answers (.reedStq c d k f) s (ReedDone c (r.pc + 1)
      { r with x := r.x.set d.val (BitVec.ofInt 32 (clampTo 32 q)), st := stickBit r.st stSatStore (outside 32 q) } [] [] s.node) ∧
    Answers (.reedRdg c d k) s (toX ((K.extractLsb' 64 16).signExtend 32)) ∧
    Answers (.reedRdh c d k) s (toX (K.extractLsb' 32 32)) ∧
    Answers (.reedRdl c d k) s (toX (K.extractLsb' 0 32)) ∧
    Answers (.reedLda c k b f) s (wide (BitVec.ofInt 80 (B.toInt * 2 ^ drop))) ∧
    Answers (.reedWrl c k b) s (wide ((K.extractLsb' 32 48 ++ B : BitVec 80))) ∧
    Answers (.reedAdda c k j) s (sums (r.pc + 1) (K.toInt + J.toInt)) ∧
    Answers (.reedSuba c k j) s (sums (r.pc + 1) (K.toInt - J.toInt)) ∧
    Answers (.reedAsh c k b) s (sums (r.pc + opndLen b) (moved shift)) ∧
    Answers (.reedAbsa c k) s (sums (r.pc + 1) (K.toInt.natAbs)) ∧
    Answers (.reedNega c k) s (sums (r.pc + 1) (-K.toInt)) ∧
    Answers (.reedMova c k j) s (toAc J) ∧
    (∃ l : Nat, l ≤ 80 ∧ (∀ i, 80 - l ≤ i → i < 80 → K.getLsbD i = K.msb) ∧ (l < 80 → K.getLsbD (79 - l) ≠ K.msb) ∧
      Answers (.reedExp c d k) s (toX (BitVec.ofInt 32 ((l : Int) - 18))) ∧
      Answers (.reedNorm c d k) s (ReedDone c (r.pc + 1)
        { r with ac := r.ac.set k.val (BitVec.ofInt 80 (moved ((l : Int) - 18))),
                 x := r.x.set d.val (BitVec.ofInt 32 ((l : Int) - 18)) } [] [] s.node))

/-- R111, R166, R169, R171, R179, the classes MAC and DMAC: the products are aligned by F and the sums saturate to 80
bits with SAT_ACC; the words that the instruction loads land after the next instruction, and each load post-modifies
its pointer. Which words DMACP multiplies second is read as R179's table gives it (notes/assumptions/76.md). The
model's own choice in it: notes/assumptions/82.md. -/
def Obligations.ReedMultiplies : Prop :=
  ∀ (s : State) (c : CoreId) (k : Fin 4) (a b : Fin 16) (q : Fin 2) (pa pb : Fin 8) (f : Fin 4) (sub : Bool),
    s.node.alive = true → ReedReady s.node c → (s.node.reed c).ac.length = 4 →
    let r := s.node.reed c
    let shift := if f.val = 3 then 0 else f.val
    let mul := fun (x y : Word) => x.toInt * y.toInt * 2 ^ shift
    let p := mul (xr r a) (xr r b)
    let X := fun (i : Nat) => r.x.getD i 0
    let put := fun (r : ReedCore) (i : Nat) (v : Int) =>
      { r with ac := r.ac.set i (BitVec.ofInt 80 (clampTo 80 v)), st := stickBit r.st stSatAcc (outside 80 v) }
    let mac := fun (v : Int) => ReedDone c (r.pc + 1) (put r k.val v) [] [] s.node
    let K : Int := (acc r k).toInt
    let sign : Int := if sub then -1 else 1
    Answers (.reedMac c k a b f none) s (mac (K + p)) ∧
    Answers (.reedMsu c k a b f none) s (mac (K - p)) ∧
    Answers (.reedMpy c k a b f none) s (mac p) ∧
    Answers (.reedMpyn c k a b f none) s (mac (-p)) ∧
    (∀ l : MacLoad, s.node.locAllowed c (ptrAt r l.p 0) = true → ptrAt r l.p 0 < 0x8000 →
      ptrAt r l.p 0 ∉ r.poisonedData → r.unconfirmed = [] →
      let load := fun (t : ReedCore) => ReedDone c (r.pc + 1)
        { t with p := (if l.am = 0 then t.p else t.p.set l.p.val (BitVec.ofNat 16 (ptrAt r l.p (amDelta r l.p l.am)))),
                 loads := [(l.x.val, s.node.locRead c (ptrAt r l.p 0))] } [] [] s.node
      Answers (.reedMac c k a b f (some l)) s (load (put r k.val (K + p))) ∧
      Answers (.reedMsu c k a b f (some l)) s (load (put r k.val (K - p))) ∧
      Answers (.reedMpy c k a b f (some l)) s (load (put r k.val p)) ∧
      Answers (.reedMpyn c k a b f (some l)) s (load (put r k.val (-p)))) ∧
    (∀ l1 l2 : Option PairLoad,
      let dual := fun (i : Instr) (t : ReedCore) =>
        let e := Node.pairLoad t false l1
        let u := Node.pairLoad e.2 true l2
        (∀ x ∈ e.1 ++ u.1, s.node.locAllowed c x.2 = true ∧ x.2 < 0x8000 ∧ x.2 ∉ r.poisonedData) → r.unconfirmed = [] →
          Answers i s (ReedDone c (r.pc + 1)
            { u.2 with loads := (e.1 ++ u.1).map (fun x => (x.1, s.node.locRead c x.2)) } [] [] s.node)
      dual (.reedDmacs c sub k pa pb f l1 l2)
        (put r k.val (K + sign * (mul (X (2 * pa)) (X (2 * pb)) + mul (X (2 * pa + 1)) (X (2 * pb + 1))))) ∧
      dual (.reedDmacp c sub q pa pb f l1 l2)
        (put (put r (2 * q) ((acc r (2 * q)).toInt + sign * mul (X (2 * pa)) (X (2 * pb))))
          (2 * q + 1) ((acc r (2 * q + 1)).toInt + sign * mul (X (2 * pa + 1)) (X (2 * pb)))))

/-- R165, R166, R170, R175, R179, the classes PTR and SYS and XST: pointer, modifier, base and length registers, the
special registers, ST.IE and the SAT bits, the mailbox words, EVT and MBXDONE. A write of a read-only special
register leaves it. The model's own choices in it: notes/assumptions/77.md, notes/assumptions/78.md,
notes/assumptions/79.md and notes/assumptions/82.md. -/
def Obligations.ReedPointersAndSystem : Prop :=
  ∀ (s : State) (c : CoreId) (d a : Fin 16) (k : Fin 8) (i : Fin 4) (b : Opnd) (code : BitVec 10),
    s.node.alive = true → ReedReady s.node c → (s.node.reed c).slot < 8 →
    let r := s.node.reed c
    let A := xr r a
    let B := opnd r b
    let page := rcxPage c
    let wide := fun (t : ReedCore) => ReedDone c (r.pc + opndLen b) t [] [] s.node
    let plain := fun (t : ReedCore) => ReedDone c (r.pc + 1) t [] [] s.node
    let toX := fun (w : Word) => plain { r with x := r.x.set d.val w }
    let bare := fun (w : Word) => ReedDone c (r.pc + s.node.instrLen c r.pc) { r with x := r.x.set d.val w } [] [] s.node
    Answers (.reedSetp c k b) s (wide { r with p := r.p.set k.val (B.setWidth 16) }) ∧
    Answers (.reedSetm c k b) s (wide { r with m := r.m.set k.val (B.setWidth 16) }) ∧
    Answers (.reedSetb c k b) s (wide { r with b := r.b.set k.val (B.setWidth 16) }) ∧
    Answers (.reedSetl c k b) s (wide { r with l := r.l.set k.val (B.setWidth 16) }) ∧
    Answers (.reedGetp c d k) s (bare ((r.p.getD k.val 0).setWidth 32)) ∧
    Answers (.reedGetm c d k) s (bare ((r.m.getD k.val 0).signExtend 32)) ∧
    Answers (.reedGetb c d k) s (bare ((r.b.getD k.val 0).setWidth 32)) ∧
    Answers (.reedGetl c d k) s (bare ((r.l.getD k.val 0).setWidth 32)) ∧
    (r.l.getD k.val 0 = 0 → Answers (.reedAddp c k b) s
      (wide { r with p := r.p.set k.val (r.p.getD k.val 0 + B.setWidth 16) })) ∧
    (∀ L : Nat, 0 < L → L = Nat.min (r.l.getD k.val 0).toNat 32768 → Answers (.reedAddp c k b) s
      (wide { r with p := r.p.set k.val (BitVec.ofInt 16
        ((r.b.getD k.val 0).toNat + ((r.p.getD k.val 0).toNat - (r.b.getD k.val 0).toNat + B.toInt) % L)) })) ∧
    Answers (.reedXst c d) s (bare (BitVec.ofNat 32
      ((if (r.chans.getD 0 []).isEmpty then 0 else 1) + (if (r.chans.getD 1 []).isEmpty then 0 else 2)
        + (if (r.chans.getD 2 []).isEmpty then 0 else 4) + (if (r.chans.getD 3 []).isEmpty then 0 else 8)))) ∧
    Answers (.reedGets c d .st) s (toX r.st) ∧ Answers (.reedGets c d .lr) s (toX r.lr) ∧
    Answers (.reedGets c d .cyc) s (toX (BitVec.ofNat 32 r.cyc)) ∧
    Answers (.reedGets c d .caslo) s (toX (BitVec.ofNat 32 s.node.clk.index)) ∧
    Answers (.reedGets c d .prg) s (toX (BitVec.ofNat 32 r.slot)) ∧
    Answers (.reedGets c d .ipc) s (toX r.ipc) ∧ Answers (.reedGets c d .ist) s (toX r.ist) ∧
    Answers (.reedGets c d .imask) s (toX (r.imask.setWidth 32)) ∧
    Answers (.reedGets c d .ipend) s (toX (r.ipend.setWidth 32)) ∧
    Answers (.reedGets c d .evthit) s (plain { r with x := r.x.set d.val (r.evthit.setWidth 32), evthit := 0 }) ∧
    Answers (.reedGets c d .cbase) s (toX (BitVec.ofNat 32 (((s.node.reedImage c).map (·.cbase)).getD 0))) ∧
    Answers (.reedSets c .st a) s (plain { r with st := A &&& 0x17F }) ∧
    Answers (.reedSets c .lr a) s (plain { r with lr := A }) ∧
    Answers (.reedSets c .ipc a) s (plain { r with ipc := A }) ∧
    Answers (.reedSets c .ist a) s (plain { r with ist := A &&& 0x17F }) ∧
    Answers (.reedSets c .imask a) s (plain { r with imask := A.setWidth 3 }) ∧
    (∀ sr : Special, sr = .cyc ∨ sr = .caslo ∨ sr = .prg ∨ sr = .ipend ∨ sr = .evthit ∨ sr = .cbase →
      Answers (.reedSets c sr a) s (plain r)) ∧
    Answers (.reedEi c) s (plain { r with st := putBit r.st 8 true }) ∧
    Answers (.reedDi c) s (plain { r with st := putBit r.st 8 false }) ∧
    Answers (.reedSatclr c) s (plain { r with st := putBit (putBit (putBit r.st 4 false) 5 false) 6 false }) ∧
    Answers (.reedMbxr c d i) s (toX (s.node.reg page (0x080 + 4 * i.val))) ∧
    Answers (.reedMbxw c i a) s (fun m =>
      m.reg page (0x090 + 4 * i.val) = A ∧
      ReedDone c (r.pc + 1) r [regKey page (0x090 + 4 * i.val) 0] [] s.node m) ∧
    Answers (.reedMbxdone c) s (fun m =>
      m.fld page Fld.rcxMbxCtlDone = 1 ∧ (m.reg page 0x010).getLsbD 0 = true ∧
      ReedDone c (r.pc + 1) r [regKey page 0x074 0, regKey page 0x010 0] [] s.node m) ∧
    Answers (.reedEvt c code) s (fun m =>
      m.fld page Fld.rcxEvtcodeCode = code.toNat ∧ m.fld page Fld.rcxEvtcodeSlot = r.slot ∧
      m.flag page Fld.rcxEvtcodeValid = true ∧ (m.reg page 0x010).getLsbD 3 = true ∧
      ReedDone c (r.pc + 1) r [regKey page 0x0B0 0, regKey page 0x010 0] [] s.node m)

/-- R168, R169, R171: a load or store of allowed words moves them and post-modifies its pointer once, a pair taking the
word after as well; a loaded word lands after the next instruction. An access outside the program's areas stops the
run. The model's own choice in it: notes/assumptions/82.md. -/
def Obligations.ReedLoadsAndStores : Prop :=
  ∀ (s : State) (c : CoreId) (x : Fin 16) (pair : Fin 8) (w : ReedAddr), s.node.alive = true → ReedReady s.node c →
    let r := s.node.reed c
    let pc := r.pc + addrLen w
    let next := match w with
      | .ext _ => r.p
      | .ptr p am => if am = 0 then r.p else r.p.set p.val (BitVec.ofNat 16 (ptrAt r p (amDelta r p am)))
    let at_ := fun (k : Nat) => match w with
      | .ext v => v.toNat + k
      | .ptr p _ => ptrAt r p k
    let good := fun (k : Nat) => s.node.locAllowed c (at_ k) = true ∧ at_ k < 0x8000
    let load := fun (ls : List (Nat × Word)) => ReedDone c pc { r with p := next, loads := ls } [] [] s.node
    let clean := fun (as : List Nat) => r.poisonedData.filter (fun q => decide (q ∉ as))
    (good 0 → at_ 0 ∉ r.poisonedData → r.unconfirmed = [] →
      Answers (.reedLd c x w) s (load [(x.val, s.node.locRead c (at_ 0))])) ∧
    (good 0 → good 1 → at_ 0 ∉ r.poisonedData → at_ 1 ∉ r.poisonedData → r.unconfirmed = [] →
      Answers (.reedLd2 c pair w) s (load [(2 * pair.val, s.node.locRead c (at_ 0)), (2 * pair.val + 1, s.node.locRead c (at_ 1))])) ∧
    (good 0 → Answers (.reedSt c x w) s (fun m =>
      m.locRead c (at_ 0) = xr r x ∧
      (∀ c' v, v < 0x8000 → ¬(c' = c ∧ v = at_ 0) → m.locRead c' v = s.node.locRead c' v) ∧
      ReedDone c pc { r with p := next, poisonedData := clean [at_ 0] } [] [.reedMem] s.node m)) ∧
    (good 0 → good 1 → at_ 0 ≠ at_ 1 → Answers (.reedSt2 c pair w) s (fun m =>
      m.locRead c (at_ 0) = r.x.getD (2 * pair.val) 0 ∧ m.locRead c (at_ 1) = r.x.getD (2 * pair.val + 1) 0 ∧
      (∀ c' v, v < 0x8000 → ¬(c' = c ∧ (v = at_ 0 ∨ v = at_ 1)) → m.locRead c' v = s.node.locRead c' v) ∧
      ReedDone c pc { r with p := next, poisonedData := clean [at_ 0, at_ 1] } [] [.reedMem] s.node m)) ∧
    (r.mode = .handler → 0x8000 ≤ at_ 0 →
      Answers (.reedSt c x w) s (fun m => m.flag (rcxPage c) Fld.rcxErrcapValid = true ∧
        ReedDone c pc { r with p := next } [regKey (rcxPage c) 0x060 0] [] s.node m) ∧
      (at_ 0 ∉ r.poisonedData → Answers (.reedLd c x w) s (fun m => m.flag (rcxPage c) Fld.rcxErrcapValid = true ∧
        ReedDone c pc { r with p := next, loads := [(x.val, 0)] } [regKey (rcxPage c) 0x060 0] [] s.node m))) ∧
    (r.mode = .program → s.node.locAllowed c (at_ 0) = false →
      Answers (.reedSt c x w) s (fun m => ReedStopped c s.node m ∧ OnlyIn (.sht :: .cas :: faultParts) s.node m) ∧
      Answers (.reedSt2 c pair w) s (fun m => ReedStopped c s.node m ∧ OnlyIn (.sht :: .cas :: faultParts) s.node m) ∧
      Answers (.reedLd c x w) s (fun m => ReedStopped c s.node m ∧ OnlyIn (.sht :: .cas :: faultParts) s.node m) ∧
      Answers (.reedLd2 c pair w) s (fun m => ReedStopped c s.node m ∧ OnlyIn (.sht :: .cas :: faultParts) s.node m))

/-- R171 to R174: a loaded word lands after the instruction that follows the load; a transfer takes effect after two
delay slots, and a REP body runs again until its count ends, its end counting as one instruction of the body around
it. What each transfer of control and REP starts. The model's own choices in it: notes/assumptions/74.md,
notes/assumptions/82.md and notes/assumptions/83.md. -/
def Obligations.ReedControlTransfers : Prop :=
  ∀ (s : State) (c : CoreId), s.node.alive = true → s.node.reedExecutes c = true →
    (s.node.reed c).pc ∉ (s.node.reed c).poisonedProg → (s.node.reed c).pc + 1 ∉ (s.node.reed c).poisonedProg →
    ((s.node.reed c).mode = .program → (s.node.reed c).cyc < s.node.reedBudget c) →
    ((s.node.reed c).mode = .handler → (s.node.reed c).runsOver = true ∨ (s.node.reed c).irqCycles < s.node.irqBudget c) →
    let r := s.node.reed c
    let nop := fun (pc : Nat) (t : ReedCore) => Answers (.reedNop c) s (ReedDone c pc t [] [] s.node)
    let after := fun (i : Instr) (len : Nat) (t : ReedCore) (a : Nat) =>
      Answers i s (ReedDone c (r.pc + len) { t with jump := some (2, .to a) } [] [] s.node)
    let slots := fun (len : Nat) => s.node.skipInstrs c (r.pc + len) 2
    let len := fun (t : ReedTarget) => match t with | .off _ => 1 | .ext _ => 2
    let target := fun (t : ReedTarget) => match t with | .off o => (((r.pc : Int) + o) % 16384).toNat | .ext a => a.toNat
    (r.jump = none → r.reps = [] → nop (r.pc + 1) { r with x := Node.landLoads r.x r.loads, loads := [] }) ∧
    (r.loads = [] → r.reps = [] →
      (∀ k j, 1 < k → r.jump = some (k, j) → nop (r.pc + 1) { r with jump := some (k - 1, j) }) ∧
      (∀ a, r.jump = some (1, .to a) → nop a { r with jump := none }) ∧
      (r.jump = some (1, .end_) → nop (r.pc + 1) { r with jump := none, mode := .ending, stalledAt := s.node.clk.now }) ∧
      (r.jump = some (1, .reti) → r.mode = .handler → r.servesMbx = false →
        nop r.ipc.toNat { r with st := r.ist, mode := if r.interrupted then .program else .idle, interrupted := false,
                                 jump := none })) ∧
    (∀ f fs, r.loads = [] → r.jump = none → r.reps = f :: fs →
      (1 < f.left → nop (r.pc + 1) { r with reps := { f with left := f.left - 1 } :: fs }) ∧
      (f.left = 1 → 1 < f.count → nop f.start { r with reps := { f with left := f.len, count := f.count - 1 } :: fs }) ∧
      (f.left = 1 → f.count = 1 → fs = [] → nop (r.pc + 1) { r with reps := [] }) ∧
      (∀ g gs, f.left = 1 → f.count = 1 → fs = g :: gs → 1 < g.left →
        nop (r.pc + 1) { r with reps := { g with left := g.left - 1 } :: gs })) ∧
    (r.loads = [] → r.jump = none → r.reps = [] →
      Answers (.reedEnd c) s (ReedDone c (r.pc + 1) { r with jump := some (2, .end_) } [] [] s.node) ∧
      (∀ cond t, (Node.condHolds r.st cond = true → after (.reedB c cond t) (len t) r (target t)) ∧
        (Node.condHolds r.st cond = false → after (.reedB c cond t) (len t) r (slots (len t)))) ∧
      (∀ t, after (.reedCall c t) (len t) { r with lr := BitVec.ofNat 32 (slots (len t)) } (target t)) ∧
      after (.reedRet c) 1 r (r.lr.toNat % 16384) ∧
      (∀ (x : Fin 16) (o : Int), let t := { r with x := r.x.set x.val (xr r x - 1) }
        (xr r x ≠ 1 → after (.reedDbnz c x o) 1 t (target (.off o))) ∧ (xr r x = 1 → after (.reedDbnz c x o) 1 t (slots 1))) ∧
      (∀ (body : Fin 64) (k : Fin 256), Answers (.reedRep c body (.imm k)) s (ReedDone c (r.pc + 1)
        { r with reps := [⟨r.pc + 1, body + 1, body + 1, k + 1⟩] } [] [] s.node)) ∧
      (∀ (body : Fin 64) (x : Fin 16),
        ((xr r x).toInt ≤ 0 → Answers (.reedRep c body (.reg x)) s
          (ReedDone c (s.node.skipInstrs c (r.pc + 1) (body + 1)) r [] [] s.node)) ∧
        (0 < (xr r x).toInt → (xr r x).toNat ≤ 256 / (body + 1) → Answers (.reedRep c body (.reg x)) s
          (ReedDone c (r.pc + 1) { r with reps := [⟨r.pc + 1, body + 1, body + 1, (xr r x).toNat⟩] } [] [] s.node)) ∧
        (0 < (xr r x).toInt → 256 / (body + 1) < (xr r x).toNat → Answers (.reedRep c body (.reg x)) s (fun m =>
          m.fld (rcxPage c) Fld.rcxPcntRepclamp 255 = Nat.min (s.node.fld (rcxPage c) Fld.rcxPcntRepclamp 255 + 1) 255 ∧
          ReedDone c (r.pc + 1) { r with reps := [⟨r.pc + 1, body + 1, body + 1, 256 / (body + 1)⟩] }
            [regKey (rcxPage c) 0x058 255] [] s.node m))) ∧
      (r.mode = .handler →
        Answers (.reedReti c) s (ReedDone c (r.pc + 1) { r with jump := some (2, .reti) } [] [] s.node)) ∧
      (r.mode = .program → Answers (.reedReti c) s (ReedDone c (r.pc + 1) r [] [] s.node)))

/-- R168, R177: a transfer whose words the program may touch starts on a free channel; on a busy one, and at a WAITX for
a busy channel, the core stalls. A transfer that ends moves its words; the last one that a WAITX waits for ends its
stall, and its cycles count, or stop a run whose budget they use up. A transfer outside the program's areas stops the run with code FEN_RANGE. The model's
own choices in it: notes/assumptions/80.md and notes/assumptions/82.md. -/
def Obligations.ReedTransfers : Prop :=
  ∀ (s : State) (c : CoreId) (ch : Fin 4) (a : Opnd) (p : Fin 8) (len : BitVec 13), s.node.alive = true →
    let r := s.node.reed c
    let fen := (opnd r a).toNat
    let loc := (r.p.getD p.val 0).toNat
    let allowed := fen % 4 = 0 ∧ s.node.fenAllowed c fen (4 * len.toNat) = true ∧
      ∀ k < len.toNat, s.node.locAllowed c (loc + k) = true ∧ loc + k ∉ r.poisonedData
    let settled := fun (loc len : Nat) => ∀ u ∈ r.unconfirmed, u.2.1 + u.2.2 ≤ loc ∨ loc + len ≤ u.2.1
    (ReedReady s.node c →
      (allowed → r.chans.getD ch.val [] = [] →
        Answers (.reedXrd c ch a p len) s (ReedDone c (r.pc + opndLen a)
          { r with chans := r.chans.set ch.val [{ write := false, fen := fen, loc := loc, len := len.toNat }],
                   unconfirmed := r.unconfirmed ++ [(ch.val, loc, len.toNat)] } [] [] s.node) ∧
        (settled loc len.toNat → Answers (.reedXwr c ch a p len) s (ReedDone c (r.pc + opndLen a)
          { r with chans := r.chans.set ch.val [{ write := true, fen := fen, loc := loc, len := len.toNat,
                                                  words := (List.range len.toNat).map (fun k => s.node.locRead c (loc + k)) }] }
          [] [] s.node))) ∧
      (allowed → r.chans.getD ch.val [] ≠ [] →
        Answers (.reedXrd c ch a p len) s (fun m =>
          m.reed c = { r with stall := some (.xfer ch.val { write := false, fen := fen, loc := loc, len := len.toNat }),
                              stalledAt := s.node.clk.now } ∧
          (∀ c', c' ≠ c → m.reed c' = s.node.reed c') ∧ OnlyIn [.reeds] s.node m) ∧
        Answers (.reedXwr c ch a p len) s (fun m =>
          m.reed c = { r with stall := some (.xfer ch.val { write := true, fen := fen, loc := loc, len := len.toNat }),
                              stalledAt := s.node.clk.now } ∧
          (∀ c', c' ≠ c → m.reed c' = s.node.reed c') ∧ OnlyIn [.reeds] s.node m)) ∧
      (r.mode = .program → fen % 4 ≠ 0 ∨ s.node.fenAllowed c fen (4 * len.toNat) = false →
        Answers (.reedXrd c ch a p len) s (fun m => ReedStopped c s.node m ∧ OnlyIn (.sht :: .cas :: faultParts) s.node m) ∧
        Answers (.reedXwr c ch a p len) s (fun m => ReedStopped c s.node m ∧ OnlyIn (.sht :: .cas :: faultParts) s.node m)) ∧
      (∀ mask : BitVec 4,
        ((∀ k : Fin 4, mask.getLsbD k = true → r.chans.getD k.val [] = []) →
          Answers (.reedWaitx c mask) s (ReedDone c (r.pc + 1)
            { r with unconfirmed := r.unconfirmed.filter (fun u => !mask.toNat.testBit u.1) } [] [] s.node)) ∧
        ((∃ k : Fin 4, mask.getLsbD k = true ∧ r.chans.getD k.val [] ≠ []) →
          Answers (.reedWaitx c mask) s (fun m =>
            m.reed c = { r with stall := some (.waitx mask.toNat), stalledAt := s.node.clk.now } ∧
            (∀ c', c' ≠ c → m.reed c' = s.node.reed c') ∧
            OnlyIn [.reeds] s.node m)))) ∧
    (∀ (x : ReedXfer) (rest : List ReedXfer) (cycles : Nat), r.chans.getD ch.val [] = x :: rest → x.loc + x.len ≤ 0x8000 →
      (s.node.die c.die.val).poisoned = [] → (s.node.die c.die.val).steerCopying = false → r.stall = none →
      (x.write = false → Answers (.reedTransferComplete c ch cycles) s (fun m =>
        (∀ k < x.len, m.locRead c (x.loc + k) = s.node.rdWord (Node.fenAddr c.die.val (x.fen + 4 * k))) ∧
        (∀ c' v, v < 0x8000 → ¬(c' = c ∧ x.loc ≤ v ∧ v < x.loc + x.len) → m.locRead c' v = s.node.locRead c' v) ∧
        m.reed c = { r with chans := r.chans.set ch.val rest,
                            poisonedData := r.poisonedData.filter (fun v => decide (¬(x.loc ≤ v ∧ v < x.loc + x.len))) } ∧
        OnlyIn [.reeds, .reedMem] s.node m)) ∧
      (x.write = true → settled x.loc x.len → (∀ k < x.len, x.words.getD k 0 = s.node.locRead c (x.loc + k)) →
        Answers (.reedTransferComplete c ch cycles) s (fun m =>
          (∀ k < x.len, m.rdWord (Node.fenAddr c.die.val (x.fen + 4 * k)) = s.node.locRead c (x.loc + k)) ∧
          MemBut (Node.fenAddr c.die.val x.fen) (4 * x.len) s.node m ∧
          m.reed c = { r with chans := r.chans.set ch.val rest } ∧
          ((∀ k < 9, (s.node.engine c.die.val k).item = none) → OnlyIn [.reeds, .mem] s.node m) ∧
          OnlyIn [.reeds, .mem, .dies, .cas, .regs, .free] s.node m))) ∧
    (∀ (x : ReedXfer) (cycles : Nat), r.chans.getD ch.val [] = [x] → r.stall = some (.waitx (2 ^ ch.val)) → r.mode = .program →
      r.chans.length = 4 →
      (r.cyc + cycles < s.node.reedBudget c → Answers (.reedTransferComplete c ch cycles) s (fun m =>
        (m.reed c).stall = none ∧ (m.reed c).cyc = r.cyc + cycles + 1 ∧
        (m.reed c).unconfirmed = r.unconfirmed.filter (fun u => decide (u.1 ≠ ch.val)) ∧
        (r.jump = none → r.reps = [] → (m.reed c).pc = (r.pc + 1) % 65536))) ∧
      (s.node.reedBudget c ≤ r.cyc + cycles → Answers (.reedTransferComplete c ch cycles) s (fun m =>
        (m.reed c).mode = .idle ∧ (m.reed c).stall = none ∧ m.cas.unfinished = true ∧
        (s.node.flag (rcxPage c) Fld.rcxErrcapValid = false → m.fld (rcxPage c) Fld.rcxErrcapCode = 1))))

/-- R161 to R164, R174 to R176: a free core enters its lowest runnable slot that it has not run, with its registers set
for it; a run that has ended and copied its blocks within its budget is complete, and past it stops with OVERRUN; an
illegal word stops a run and ends a handler; an enabled interrupt saves PC and ST and goes to its vector; a handler
past its budget is abandoned, the run that it interrupted stops, and no interrupt is taken until the last run of the
casement has ended; the cycles of a WAITX that an interrupt abandons count. The model's own choices in it:
notes/assumptions/2.md and notes/assumptions/83.md. -/
def Obligations.ReedRuns : Prop :=
  ∀ (s : State) (c : CoreId), s.node.alive = true →
    let r := s.node.reed c
    let page := rcxPage c
    let same := fun (m : Node) => ∀ c', c' ≠ c → m.reed c' = s.node.reed c'
    (r.mode = .idle → r.runsOver = false → r.retired = false → s.node.running = false ∨ s.node.cas.windowOpen = true →
      (∀ k g, s.node.nextSlot c = some k → s.node.reedCfg c k = some g →
        let base := BitVec.ofNat 16 g.regionBase
        let ptrs := List.replicate 6 base ++ [BitVec.ofNat 16 (0x7000 + 32 * g.inFirst), BitVec.ofNat 16 (0x7800 + 32 * g.outFirst)]
        Answers (.reedSlotEntry c) s (fun m =>
          m.reed c = { r with mode := .program, slot := k, interrupted := false, stall := none, pc := g.entry % 16384,
                              x := [BitVec.ofNat 32 s.node.clk.index, BitVec.ofNat 32 s.node.s, BitVec.ofNat 32 k] ++ List.replicate 13 0,
                              ac := List.replicate 4 0, p := ptrs, b := ptrs, m := List.replicate 8 1, l := List.replicate 8 0,
                              st := 0x100, lr := 0, cyc := 0, loads := [], jump := none, reps := [], entered := k + 1,
                              holdoff := 0 } ∧ same m ∧ OnlyIn [.reeds] s.node m)) ∧
      (s.node.nextSlot c = none → Answers (.reedSlotEntry c) s (fun m =>
        m.reed c = { r with runsOver := true, irqBarred := false } ∧ same m ∧ OnlyIn [.reeds] s.node m))) ∧
    (∀ g o, r.mode = .ending → s.node.reedCfg c r.slot = some g → g.die = c.die.val → g.outOffs = [o] →
      (s.node.die g.die).poisoned = [] → (s.node.die g.die).steerCopying = false → r.unconfirmed = [] →
      let cyc := r.cyc + 8 + (s.node.s * g.nout + 7) / 8
      (cyc ≤ g.budget → r.st &&& 0x70 = 0 → Answers (.reedRunComplete c) s (fun m =>
        (m.reed c).mode = .idle ∧ (m.reed c).cyc = cyc ∧
        m.cas = { s.node.cas with hooks := s.node.cas.hooks ++ [(c.die.val, c.core.val, r.slot)] } ∧
        (∀ k < s.node.s, m.rdWord (Node.fenAddr g.die (o + 4 * k)) = s.node.locRead c (0x7800 + 32 * g.outFirst + k)) ∧
        MemBut (Node.fenAddr g.die o) (4 * s.node.s) s.node m ∧
        m.fld page Fld.rcxPcntConsec r.slot = 0 ∧ same m ∧
        RegsBut [regKey page 0x058 r.slot, regKey page 0x050 r.slot, regKey page 0x054 r.slot] s.node m ∧
        OnlyIn [.reeds, .regs, .mem, .cas] s.node m)) ∧
      (g.budget < cyc → Answers (.reedRunComplete c) s (fun m =>
        ReedStopped c s.node m ∧ (m.reed c).cyc = g.budget ∧
        (s.node.flag page Fld.rcxErrcapValid = false → m.fld page Fld.rcxErrcapCode = 1) ∧
        OnlyIn (.sht :: .cas :: faultParts) s.node m))) ∧
    (s.node.reedExecutes c = true →
      (r.mode = .program → s.node.reedBudget c ≤ r.cyc → Answers (.reedNop c) s (fun m =>
        ReedStopped c s.node m ∧ (s.node.flag page Fld.rcxErrcapValid = false → m.fld page Fld.rcxErrcapCode = 1) ∧
        OnlyIn (.sht :: .cas :: faultParts) s.node m)) ∧
      (r.mode = .program → Answers (.illegalInstruction c) s (fun m =>
        ReedStopped c s.node m ∧ (s.node.flag page Fld.rcxErrcapValid = false → m.fld page Fld.rcxErrcapCode = 3) ∧
        OnlyIn (.sht :: .cas :: faultParts) s.node m)) ∧
      (r.mode = .handler → Answers (.illegalInstruction c) s (fun m =>
        m.reed c = { r with st := r.ist, pc := r.ipc.toNat % 65536, mode := if r.interrupted then .program else .idle,
                            interrupted := false, servesMbx := false, jump := none, reps := [], imask := 0,
                            x := if r.interrupted then r.x else Node.landLoads r.x r.loads,
                            loads := if r.interrupted then r.loads else [] } ∧
        m.flag page Fld.rcxErrcapValid = true ∧ same m ∧
        RegsBut [regKey page 0x060 0, regKey page 0x074 0] s.node m ∧ OnlyIn [.reeds, .regs] s.node m))) ∧
    (r.retired = false → r.mode = .program ∨ r.mode = .idle → r.loads = [] → r.jump = none → r.reps = [] →
      r.irqBarred = false → r.st.getLsbD 8 = true →
      (∀ k : Fin 3, (r.ipend &&& r.imask).getLsbD k = true → (∀ j : Fin 3, j < k → (r.ipend &&& r.imask).getLsbD j = false) →
        let handler := { r with ipend := r.ipend &&& ~~~(1#3 <<< k.val), ipc := BitVec.ofNat 32 r.pc, ist := r.st,
                                st := putBit r.st 8 false, pc := 4 * k.val, interrupted := decide (r.mode = .program),
                                mode := .handler, stall := none, servesMbx := decide (k.val = 1) }
        ∀ cycles : Nat,
          (r.stall = none → Answers (.reedInterruptEntry c cycles) s (fun m =>
            m.reed c = handler ∧ same m ∧ OnlyIn [.reeds] s.node m)) ∧
          (∀ mask, r.stall = some (.waitx mask) → r.mode = .program →
            (r.cyc + cycles ≤ s.node.reedBudget c → Answers (.reedInterruptEntry c cycles) s (fun m =>
              m.reed c = { handler with cyc := r.cyc + cycles } ∧ same m ∧ OnlyIn [.reeds] s.node m)) ∧
            (s.node.reedBudget c < r.cyc + cycles → Answers (.reedInterruptEntry c cycles) s (fun m =>
              ReedStopped c s.node m ∧ (s.node.flag page Fld.rcxErrcapValid = false → m.fld page Fld.rcxErrcapCode = 1) ∧
              OnlyIn (.sht :: .cas :: faultParts) s.node m))))) ∧
    (r.mode = .handler → r.runsOver = false →
      (r.interrupted = false → Answers (.reedIrqBudgetExceeded c) s (fun m =>
        m.reed c = { r with st := r.ist, pc := r.ipc.toNat % 65536, mode := .idle, servesMbx := false, jump := none, reps := [],
                            x := Node.landLoads r.x r.loads, loads := [], stall := none, irqBarred := true } ∧ same m ∧
        m.fld page Fld.rcxIrqStatOver = Nat.min (s.node.fld page Fld.rcxIrqStatOver + 1) 255 ∧
        (m.reg page 0x010).getLsbD 4 = true ∧ RegsBut [regKey page 0x06C 0, regKey page 0x010 0] s.node m ∧
        OnlyIn [.reeds, .regs] s.node m)) ∧
      (r.interrupted = true → Answers (.reedIrqBudgetExceeded c) s (fun m =>
        ReedStopped c s.node m ∧ (m.reed c).irqBarred = (m.nextSlot c).isSome ∧ (m.reg page 0x010).getLsbD 4 = true ∧
        (s.node.flag page Fld.rcxErrcapValid = false → m.fld page Fld.rcxErrcapCode = 7) ∧
        OnlyIn (.sht :: .cas :: faultParts) s.node m)))

/-- R90, R165, R175, R183, R184: errors of a core's local memories, which stop a run only where it meets the word, the end of its self-test, and the writes of its ACT,
MBX_CTL and MEMDATA registers. A second doorbell is dropped while FULL; program words are written only under the key.
The model's own choice in it: notes/assumptions/28.md. -/
def Obligations.ReedMemoryAndTests : Prop :=
  ∀ (s : State) (c : CoreId), s.node.alive = true →
    let r := s.node.reed c
    let page := rcxPage c
    let same := fun (m : Node) => ∀ c', c' ≠ c → m.reed c' = s.node.reed c'
    (∀ prog addr met, s.node.boot.engPresent.getLsbD c.die = true →
      Answers (.reedMemEccError c prog addr false met) s (fun m =>
        m.fld page Fld.rcxMemerrCorrected = Nat.min (s.node.fld page Fld.rcxMemerrCorrected + 1) 65535 ∧
        Raised page 1 s.node m ∧ OnlyIn faultParts s.node m) ∧
      (r.mode = .idle ∨ met = false → Answers (.reedMemEccError c prog addr true met) s (fun m =>
        m.fld page Fld.rcxMemerrUncorrected = Nat.min (s.node.fld page Fld.rcxMemerrUncorrected + 1) 65535 ∧
        Raised page 2 s.node m ∧
        (m.mgmt.running = true → prog = false →
          m.locRead c addr = 0 ∧ (m.reed c).poisonedData = r.poisonedData.filter (fun q => decide (q ≠ addr))) ∧
        (m.mgmt.running = true → prog = true → m.reedMem = s.node.reedMem ∧
          (∀ w, s.node.progCopy c addr = some w →
            m.progRead c addr = w ∧ (m.reed c).poisonedProg = r.poisonedProg.filter (fun q => decide (q ≠ addr))) ∧
          (s.node.progCopy c addr = none →
            m.reedProg = s.node.reedProg ∧ (m.reed c).poisonedProg = r.poisonedProg ++ [addr])) ∧
        (m.mgmt.running = false → m.reedMem = s.node.reedMem ∧ m.reedProg = s.node.reedProg ∧
          (m.reed c).poisonedProg = r.poisonedProg ++ (if prog then [addr] else []) ∧
          (m.reed c).poisonedData = r.poisonedData ++ (if prog then [] else [addr])) ∧
        OnlyIn (.reedMem :: .reedProg :: faultParts) s.node m)) ∧
      (r.mode = .program → Answers (.reedMemEccError c prog addr true true) s (fun m =>
        (m.reed c).mode = .idle ∧ m.cas.unfinished = true ∧
        m.fld page Fld.rcxMemerrUncorrected = Nat.min (s.node.fld page Fld.rcxMemerrUncorrected + 1) 65535 ∧
        (s.node.flag page Fld.rcxErrcapValid = false → m.fld page Fld.rcxErrcapCode = 6) ∧
        OnlyIn (.reedMem :: .reedProg :: .sht :: .cas :: faultParts) s.node m))) ∧
    (Answers (.reedCoreTestEnd c true) s (fun m =>
      m.reed c = { r with stest := false } ∧ same m ∧ m.flt.nextSeq = s.node.flt.nextSeq ∧ OnlyIn [.reeds, .flt] s.node m)) ∧
    (r.retired = false → Answers (.reedCoreTestEnd c false) s (fun m =>
      (m.reed c).retired = true ∧ (m.reed c).mode = .idle ∧ (m.reed c).stest = false ∧ m.flag page Fld.rcxStatRetired = true ∧
      m.flt.nextSeq = (s.node.flt.nextSeq + 1) % 4294967296 ∧ m.rt.readmitWaits = true ∧
      OnlyIn (.rt :: .sht :: faultParts) s.node m)) ∧
    (∀ src : Src, Reachable s page → src.port ∉ (s.node.hdr page).keyArmed → (s.node.hdr page).frozen = none →
      Answers (.rcxStest src c) s (fun m =>
        m.rsp.ok = true ∧ m.reed c = { r with stest := true } ∧ same m ∧ OnlyIn [.reeds, .rsp] s.node m) ∧
      (∀ slots : Byte, Answers (.rcxRestart src c slots) s (fun m =>
        m.rsp.ok = true ∧
        m.reed c = { r with stopped := r.stopped &&& ~~~slots, restarted := r.restarted ||| (slots &&& r.stopped) } ∧ same m ∧
        (∀ k : Fin 8, slots.getLsbD k = true → m.fld page Fld.rcxPcntConsec k = 0) ∧
        RegsBut ((List.range 8).map (fun k => regKey page 0x058 k)) s.node m ∧ OnlyIn [.reeds, .regs, .rsp] s.node m)) ∧
      (s.node.flag page Fld.rcxMbxCtlFull = false → Answers (.rcxMbxDoorbell src c) s (fun m =>
        m.rsp.ok = true ∧ m.flag page Fld.rcxMbxCtlFull = true ∧ m.reed c = { r with ipend := r.ipend ||| 2 } ∧ same m ∧
        RegsBut [regKey page 0x074 0] s.node m ∧ OnlyIn [.reeds, .regs, .rsp] s.node m)) ∧
      (s.node.flag page Fld.rcxMbxCtlFull = true → Answers (.rcxMbxDoorbell src c) s (fun m =>
        m.rsp.ok = true ∧ m.fld page Fld.rcxMbxCtlDrops = Nat.min (s.node.fld page Fld.rcxMbxCtlDrops + 1) 65535 ∧
        RegsBut [regKey page 0x074 0] s.node m ∧ OnlyIn [.regs, .rsp] s.node m)) ∧
      (∀ a, a = s.node.fld page Fld.rcxMemselAddr →
        (s.node.flag page Fld.rcxMemselProg = false → a ∉ r.poisonedData →
          Answers (.rcxMemdataAccess src c none) s (fun m =>
            m.rsp = ⟨true, s.node.locRead c a⟩ ∧ m.fld page Fld.rcxMemselAddr = (a + 1) % 32768 ∧
            RegsBut [regKey page 0x0B4 0] s.node m ∧ OnlyIn [.regs, .rsp] s.node m) ∧
          (∀ w, Answers (.rcxMemdataAccess src c (some w)) s (fun m =>
            m.rsp.ok = true ∧ m.locRead c a = w ∧ m.fld page Fld.rcxMemselAddr = (a + 1) % 32768 ∧
            (∀ c' v, v < 0x8000 → ¬(c' = c ∧ v = a) → m.locRead c' v = s.node.locRead c' v) ∧
            RegsBut [regKey page 0x0B4 0] s.node m ∧ OnlyIn [.reeds, .reedMem, .regs, .rsp] s.node m))) ∧
        (s.node.flag page Fld.rcxMemselProg = true → a < 16384 → ∀ w,
          ((s.node.hdr page).keyHolder = some src.port → Answers (.rcxMemdataAccess src c (some w)) s (fun m =>
            m.rsp.ok = true ∧ m.progRead c a = w ∧ m.fld page Fld.rcxMemselAddr = (a + 1) % 32768 ∧
            OnlyIn [.reeds, .reedProg, .regs, .rsp] s.node m)) ∧
          ((s.node.hdr page).keyHolder ≠ some src.port → s.node.progRead c a ≠ w →
            Answers (.rcxMemdataAccess src c (some w)) s (fun m =>
              m.rsp.ok = true ∧ m.fld page Fld.pgKeyDrops = Nat.min (s.node.fld page Fld.pgKeyDrops + 1) 65535 ∧
              m.fld page Fld.rcxMemselAddr = (a + 1) % 32768 ∧
              RegsBut [regKey page 0x028 0, regKey page 0x0B4 0] s.node m ∧ OnlyIn [.regs, .rsp] s.node m)))))

/-! The mailbox, the ROUTE service and Shutters. -/

/-- R45 to R47: a ring of an idle slot by its owner makes it BUSY, or answers BAD_LENGTH where LEN is above 63; a foreign ring
and a ring of a BUSY slot are dropped and counted. A response of the firmware answers a BUSY slot and is discarded for any
other, and a timeout answers a BUSY slot with LEN 0. R46: a request of an unknown service is answered BAD_SERVICE, one of
an unknown command BAD_COMMAND; DIRECTORY and HINGE, whose commands the spec does not list, may answer any command so. What records
DIRECTORY returns is left open (R17). -/
def Obligations.MailboxSlots : Prop :=
  ∀ (s : State) (slot : Fin 4), s.node.alive = true →
    (∀ (code detail : Nat) (data : List Word), s.node.mgmt.running = true → s.node.slotBusy slot = true → code < 256 →
      let service := (s.node.reg mgtPage (requestOff slot)).toNat / 2 ^ 24
      let command := (s.node.reg mgtPage (requestOff slot)).toNat / 2 ^ 16 % 256
      let answers := fun (c : Nat) (d : Option Nat) (ws : List Word) => Answers (.mailboxResponse slot code detail data) s (fun m =>
        Answered slot c d ws s.node m ∧ OnlyIn answerParts s.node m)
      (knownService service = true → knownCommand service command = true → service ≠ 5 → service ≠ 6 →
        s.node.lengthBad slot = false → answers code (some detail) data) ∧
      (service = 5 → Answers (.mailboxResponse slot code detail data) s (fun m =>
        (∃ ws : List Word, (code ≠ 0 ∨ s.node.cfg.directory = [] → ws = data) ∧
          (Answered slot code (some detail) ws s.node m ∨ Answered slot 4 none [] s.node m)) ∧ OnlyIn answerParts s.node m)) ∧
      (service = 6 → Answers (.mailboxResponse slot code detail data) s (fun m =>
        (Answered slot code (some detail) data s.node m ∨ Answered slot 4 none [] s.node m) ∧ OnlyIn answerParts s.node m)) ∧
      (service = 0 ∨ 10 < service → answers 3 none []) ∧
      (knownService service = true → knownCommand service command = false → answers 4 none [])) ∧
    (∀ (code detail : Nat) (data : List Word), s.node.slotBusy slot = false →
      Answers (.mailboxResponse slot code detail data) s (fun m => OnlyIn [] s.node m)) ∧
    (s.node.slotBusy slot = true → Answers (.mailboxTimeout slot) s (fun m =>
      ResponseWritten slot 10 none [] s.node m ∧ OnlyIn answerParts s.node m)) ∧
    (∀ src : Src, Reachable s mgtPage → src.port ∉ (s.node.hdr mgtPage).keyArmed →
      (ownsSlot src slot = true → s.node.slotBusy slot = false →
        ((s.node.reg mgtPage (requestOff slot)).toNat % 256 ≤ 63 →
          Answers (.mailboxDoorbell src (1#4 <<< slot.val)) s (fun m =>
            m.rsp.ok = true ∧ (∀ k : Fin 4, m.slotBusy k = (s.node.slotBusy k || decide (k = slot))) ∧
            RegsBut [regKey mgtPage 0x044 0] s.node m ∧ OnlyIn [.regs, .rsp] s.node m)) ∧
        (63 < (s.node.reg mgtPage (requestOff slot)).toNat % 256 →
          Answers (.mailboxDoorbell src (1#4 <<< slot.val)) s (fun m =>
            m.rsp.ok = true ∧ ResponseWritten slot 5 none [] s.node m ∧ OnlyIn (.rsp :: answerParts) s.node m))) ∧
      (ownsSlot src slot = false ∨ s.node.slotBusy slot = true →
        Answers (.mailboxDoorbell src (1#4 <<< slot.val)) s (fun m =>
          m.rsp.ok = true ∧ m.fld mgtPage Fld.mgtMbxStatDrops = Nat.min (s.node.fld mgtPage Fld.mgtMbxStatDrops + 1) 65535 ∧
          (∀ k : Fin 4, m.slotBusy k = s.node.slotBusy k) ∧
          RegsBut [regKey mgtPage 0x044 0] s.node m ∧ OnlyIn [.regs, .rsp] s.node m)))

/-- R57, R58, R401: COMPILE starts a job while fewer than four exist; a command that names a job that does not exist
answers BAD_ARGUMENT, and each state of a job has its answer; a request whose LEN lies outside its command's limits answers
BAD_LENGTH (R46, notes/assumptions/35.md). DISCARD frees a job that is not staged. The model's own
choices in it: notes/assumptions/38.md, notes/assumptions/40.md and notes/assumptions/49.md. -/
def Obligations.RouteJobQueries : Prop :=
  ∀ (s : State) (slot : Fin 4), s.node.alive = true → s.node.mgmt.running = true → s.node.slotBusy slot = true →
    let answers := fun (i : Instr) (code : Nat) (detail : Option Nat) (data : List Word) =>
      Answers i s (fun m => Answered slot code detail data s.node m ∧ OnlyIn answerParts s.node m)
    let count := (s.node.rt.jobs.filter (fun (j : Job) => decide (j.num ≠ 0))).length
    (s.node.lengthBad slot = true → ∀ (lo hi sel : Word) (num first : Nat),
      answers (.routeCompile slot lo hi) 5 none [] ∧ answers (.routeStatus slot num) 5 none [] ∧
      answers (.routeReport slot num first) 5 none [] ∧ answers (.routeLatency slot num sel) 5 none [] ∧
      answers (.routeDiscard slot num) 5 none [] ∧
      ∀ (code detail : Nat) (data : List Word), answers (.mailboxResponse slot code detail data) 5 none []) ∧
    (s.node.lengthBad slot = false → ∀ lo hi : Word,
      (count < 4 → Answers (.routeCompile slot lo hi) s (fun m =>
        ∃ num : Nat, 1 ≤ num ∧ num ≤ 255 ∧ (∀ j ∈ s.node.rt.jobs, j.num ≠ num) ∧
          m.rt.jobs = s.node.rt.jobs ++ [{
            num := num
            state := .compiling
            addr := lo.toNat + hi.toNat % 256 * 2 ^ 32
            base := if s.node.rt.inForce then some s.node.rt.cfg else none }] ∧
          m.rt.cfg = s.node.rt.cfg ∧ Answered slot 1 (some num) [] s.node m ∧ OnlyIn (.rt :: answerParts) s.node m)) ∧
      (4 ≤ count → answers (.routeCompile slot lo hi) 2 none [])) ∧
    (s.node.lengthBad slot = false → ∀ (num first : Nat) (sel : Word),
      (s.node.job num = none →
        answers (.routeStatus slot num) 6 none [] ∧ answers (.routeReport slot num first) 6 none [] ∧
        answers (.routeLatency slot num sel) 6 none [] ∧ answers (.routeDiscard slot num) 6 none []) ∧
      (∀ j, s.node.job num = some j →
        (j.state = .compiling →
          answers (.routeStatus slot num) 0 (some 1) [] ∧ answers (.routeReport slot num first) 2 none [] ∧
          answers (.routeLatency slot num sel) 2 none []) ∧
        (j.state = .refused →
          answers (.routeStatus slot num) 7 (some j.detail) [] ∧ answers (.routeLatency slot num sel) 7 (some j.detail) [] ∧
          (Node.loadReason j.detail = true → answers (.routeReport slot num first) 0 none (reportWords j.loads first)) ∧
          (Node.loadReason j.detail = false → answers (.routeReport slot num first) 7 (some j.detail) [])) ∧
        (∀ code : Nat, (j.state, code) ∈ [(JobState.admitted, 2), (.staged, 3), (.stale, 5), (.committed, 6)] →
          (s.node.rt.lostDetail = none → answers (.routeStatus slot num) 0 (some code) [BitVec.ofNat 32 (j.detail * 256)]) ∧
          answers (.routeReport slot num first) 0 none (reportWords j.loads first) ∧
          answers (.routeLatency slot num sel) 0 none [s.node.latencyWord j.cfg (Node.cfgDelay j.cfg) sel]) ∧
        (j.state = .staged → Answers (.routeDiscard slot num) s (fun m =>
          m.rt = s.node.rt ∧ m.slotBusy slot = false ∧ (m.reg mgtPage (responseOff slot + 4)).toNat % 256 = 7 ∧
          OnlyIn answerParts s.node m)) ∧
        (j.state ≠ .staged → j.waiting = [] → Answers (.routeDiscard slot num) s (fun m =>
          m.rt = { s.node.rt with jobs := s.node.rt.jobs.filter (fun (x : Job) => decide (x.num ≠ num)) } ∧
          Answered slot 0 none [] s.node m ∧ OnlyIn (.rt :: .cfg :: answerParts) s.node m))))

/-- R58, R59, R61, R79, R80: a compiled job is ADMITTED or REFUSED by its loads, stale where another has committed since;
a COMMIT stages an ADMITTED job unless a crossfade runs or the key is held, when it waits; staging requests the group
commit. A configuration that fits after a loss is staged as a job without a number. A follow copy ends with its held
writes. The model's own choices in it: notes/assumptions/41.md, notes/assumptions/45.md, notes/assumptions/46.md,
notes/assumptions/50.md, notes/assumptions/160.md, notes/assumptions/175.md and notes/assumptions/178.md. -/
def Obligations.RouteStaging : Prop :=
  ∀ (s : State), s.node.alive = true → s.node.mgmt.running = true →
    let inForce := if s.node.rt.inForce then some s.node.rt.cfg else none
    let stagedParts : List Part := [.regs, .hdrs, .mem, .cas, .rt, .strips, .dies, .xpt]
    let stages := fun (num : Nat) (m : Node) =>
      (∃ x ∈ m.rt.jobs, x.num = num ∧ x.state = .staged) ∧ m.cas.groupReq = true ∧
      (m.hdr xptPage).keyHolder = some .core ∧ m.flag xptPage Fld.xptCtrlSwap = true ∧ m.xpt.copying = false ∧
      xptPage ∈ m.rt.stagedPages ∧ m.rt.cfg = s.node.rt.cfg
    (∀ num j cfg, s.node.job num = some j → j.state = .compiling →
      (∀ x ∈ s.node.rt.jobs, x.num = num → x.auto = false) → s.node.boot.job ≠ some num →
      let v := s.node.admission j.base (Graph.bundled cfg)
      let known := (s.node.checkRefusal (Graph.bundled cfg)).isSome || s.node.placed (Graph.bundled cfg)
      let st : JobState := if v.refusal.isSome then .refused else if j.overtaken then .stale else .admitted
      (known = false → Answers (.routeCompileDone num cfg) s (fun m => OnlyIn [] s.node m)) ∧
      (known = true → Answers (.routeCompileDone num cfg) s (fun m =>
        m.rt.jobs = s.node.rt.jobs.map (fun (x : Job) => if x.num = num then
          { x with state := st, cfg := Graph.bundled cfg, detail := v.detail, loads := v.loads } else x) ∧
        (∀ d, v.refusal = some d → m.reg Node.casPage 0x060 = BitVec.ofNat 32 (d * 256 + num % 256)) ∧
        m.rt.cfg = s.node.rt.cfg ∧ RegsBut [regKey Node.casPage 0x060 0] s.node m ∧ OnlyIn [.rt, .regs, .cfg] s.node m))) ∧
    (∀ (slot : Fin 4) num j, s.node.slotBusy slot = true → s.node.lengthBad slot = false → s.node.job num = some j → s.node.running = true →
      (j.state = .compiling ∨ (j.state = .admitted ∧ s.node.stagedJob.isSome = true) →
        Answers (.routeCommit slot num) s (fun m => Answered slot 2 none [] s.node m ∧ OnlyIn answerParts s.node m)) ∧
      (j.state = .refused → Answers (.routeCommit slot num) s (fun m =>
        m.rt = s.node.rt ∧ m.slotBusy slot = false ∧ (m.reg mgtPage (responseOff slot + 4)).toNat % 256 = 7 ∧
        (m.reg mgtPage (responseOff slot + 4)).toNat / 256 = j.detail % 2 ^ 24 ∧
        m.reg Node.casPage 0x060 = BitVec.ofNat 32 (j.detail * 256 + num % 256) ∧ OnlyIn answerParts s.node m)) ∧
      (j.state = .admitted → s.node.stagedJob.isSome = false → s.node.mayStage = false →
        Answers (.routeCommit slot num) s (fun m =>
          m.rt = { s.node.rt with jobs := s.node.rt.jobs.map (fun (x : Job) =>
            if x.num = num then { x with waiting := x.waiting ++ [slot] } else x) } ∧ OnlyIn [.rt] s.node m)) ∧
      (j.state = .admitted → s.node.mayStage = true →
        Answers (.routeCommit slot num) s (fun m => stages num m ∧ (∃ x ∈ m.rt.jobs, x.num = num ∧ slot ∈ x.waiting) ∧
          OnlyIn stagedParts s.node m))) ∧
    (∀ j, s.node.running = true → s.node.mayStage = true →
      s.node.rt.jobs.find? (fun (x : Job) => decide (x.state = .admitted) && (x.auto || !x.waiting.isEmpty)) = some j →
      Answers .routeStageStart s (fun m => stages j.num m ∧ OnlyIn stagedParts s.node m)) ∧
    (∀ cfg, s.node.running = true → s.node.rt.readmitWaits = true → s.node.rt.inForce = true → s.node.mayStage = true →
      Graph.plan (Graph.bundled cfg) = Graph.plan s.node.rt.cfg →
      let v := s.node.admission inForce (Graph.bundled cfg)
      (v.refusal = none → s.node.placed (Graph.bundled cfg) = true → Answers (.readmitAfterLoss cfg) s (fun m =>
        stages 0 m ∧ m.rt.readmitWaits = false ∧ OnlyIn stagedParts s.node m)) ∧
      (∀ d, v.refusal = some d → (s.node.checkRefusal (Graph.bundled cfg)).isSome = true ∨ s.node.placed (Graph.bundled cfg) = true →
        Answers (.readmitAfterLoss cfg) s (fun m =>
        m.rt.readmitWaits = false ∧
        m.rt.lostDetail = some (match s.node.rt.lostSlots.head? with | some slot => d / 65536 * 65536 + 0x100 + slot | none => d) ∧
        m.rt.cfg = s.node.rt.cfg ∧ Raised Node.casPage 6 s.node m ∧
        m.reg Node.casPage 0x060 = BitVec.ofNat 32 (d * 256 + s.node.rt.forceJob % 256) ∧
        OnlyIn (.rt :: .free :: .str :: .sht :: faultParts) s.node m))) ∧
    (s.node.xpt.copying = true → s.node.running = true → s.node.xpt.swapWaits = false →
      Answers .followCopyEnd s (fun m =>
        m.xpt.copying = false ∧ m.xpt.held = [] ∧ m.xpt.active = s.node.xpt.active ∧ OnlyIn [.xpt, .mem] s.node m ∧
        (s.node.xpt.held = [] → Memory.wf s.node.mem = true → m.xpt.dirty = false ∧
          ∀ k < xptSize, m.rdByte (xptBase (!s.node.xpt.active) + k) = s.node.rdByte (xptBase s.node.xpt.active + k))))

/-- R87, R91, R96 to R102, R104, R106, R108: requests to Shutters, the ends of ramps, fades and restores, bundle reports,
mutes, pushes and the end of a refill hold. The model's own choices in it: notes/assumptions/2.md and
notes/assumptions/66.md. -/
def Obligations.ShutterEvents : Prop :=
  ∀ (s : State), s.node.alive = true →
    (∀ (id : ShutterId), (s.node.shut id).present = true →
      let sh := s.node.shut id
      let others := fun (m : Node) => ∀ k, k ≠ shutKey id → Sparse.get (fun _ => ({} : Shutter)) m.sht.shutters k =
        Sparse.get (fun _ => {}) s.node.sht.shutters k
      (∀ r, sh.ramp = some r → Answers (.shutterRampEnd id) s (fun m =>
        m.shut id = { sh with gain := r.target, ramp := none } ∧ others m ∧ OnlyIn [.sht] s.node m)) ∧
      (sh.pstate = .fading → Answers (.protectFadeEnd id) s (fun m =>
        m.shut id = { sh with pstate := .faded } ∧ others m ∧ OnlyIn [.sht] s.node m)) ∧
      (sh.pstate = .restoring → Answers (.protectRestoreEnd id) s (fun m =>
        m.shut id = { sh with pstate := .clear } ∧ others m ∧ OnlyIn [.sht] s.node m)) ∧
      (∀ (req : ShutCfg) (k : Nat), sh.held = false →
        let sh := runTo (Nat.min k s.node.s) sh
        let target : Word := if sh.unfed || sh.forced || req.shut then 0 else req.gain
        let len := halfMsSamples (rampUnits req.ramp) (rateHz s.node.rate)
        let gives := fun (u : Shutter) => Answers (.shutterRequest id req k) s (fun m =>
          m.shut id = u ∧ others m ∧ OnlyIn [.sht] s.node m)
        let starts := fun (g : Word) => gives { sh with
          cfg := req
          ramp := some { g0 := g, g1 := target, law := req.law, len := len, total := len, start := g, target := target } }
        (sh.ramp = none → target = sh.gain → gives { sh with cfg := req }) ∧
        (sh.ramp = none → target ≠ sh.gain → starts sh.gain) ∧
        (∀ r, sh.ramp = some r → target = r.target → gives { sh with cfg := req }) ∧
        (∀ r, sh.ramp = some r → target ≠ r.target → target ≠ r.start → starts (gainNow sh)) ∧
        (∀ r, sh.ramp = some r → target ≠ r.target → target = r.start → Answers (.shutterRequest id req k) s (fun m =>
          (r.done = 0 → m.shut id = { sh with cfg := req, gain := r.start, ramp := none }) ∧
          (0 < r.done → ∃ q, (m.shut id).ramp = some q ∧ q.target = r.start ∧ q.total = r.done ∧ q.done = 0 ∧ q.down = !r.down ∧
            q.start = gainNow sh ∧
            ((r.down = true → r.done ≤ r.first + 1) → ∀ t < r.done, rampAt q t = rampAt r (r.done - 1 - t))) ∧
          m.fld shtPage Fld.shtEventsReversals = Nat.min (s.node.fld shtPage Fld.shtEventsReversals + 1) 65535 ∧
          others m ∧ OnlyIn [.sht, .regs] s.node m)))) ∧
    (∀ path : ShutterId, (s.node.shut path).present = true → (s.node.shut path).held = true →
      (s.node.shut path).inHold = false → Answers (.refillHoldEnd path) s (fun m =>
        (m.shut path).held = false ∧
        (shutAim (s.node.shut path) (s.node.shut path).cfg = 0 → (m.shut path).gain = 0 ∧ (m.shut path).ramp = none) ∧
        (shutAim (s.node.shut path) (s.node.shut path).cfg ≠ 0 → ∃ r, (m.shut path).ramp = some r ∧ r.start = 0 ∧
          r.target = (s.node.shut path).cfg.gain) ∧
        RegsBut [regKey xptPage 0x010 0] s.node m ∧ OnlyIn [.sht, .strips, .regs] s.node m)) ∧
    (∀ b : Nat, 1 ≤ b → b ≤ 255 →
      let was := s.node.bundle b
      let late := decide (s.node.running = true) && decide (s.node.nextBoundary ≤ s.node.clk.now + 58800)
      let reported := fun (m : Node) =>
        if late then (m.bundle b).late = true ∧ (m.bundle b).reported = was.reported
        else (m.bundle b).reported = true ∧ (m.bundle b).late = was.late
      Answers (.bundleEventReport b .unfinished) s (fun m =>
        m.bundle b = (if late then { was with late := true } else { was with reported := true, sinksToo := true }) ∧
        OnlyIn [.sht] s.node m) ∧
      (∀ i : InputId,
        let failed := { s.node.input i with event := true, healthy := 0 }
        Answers (.bundleEventReport b (.underrun i)) s (fun m =>
          reported m ∧ m.input i = { failed with missing := true } ∧ OnlyIn [.sht] s.node m) ∧
        Answers (.bundleEventReport b (.validation i)) s (fun m =>
          reported m ∧ m.input i = { failed with invalid := true } ∧ OnlyIn [.sht] s.node m))) ∧
    (s.node.sht.mutePin = false → Answers .muteNAssert s (fun m =>
      m.sht.mutePin = true ∧ m.sht.cause3 = true ∧ (m.reg shtPage 0x010).getLsbD 2 = true ∧
      m.fld shtPage Fld.shtMutesPin = Nat.min (s.node.fld shtPage Fld.shtMutesPin + 1) 65535 ∧ OnlyIn [.sht, .regs] s.node m)) ∧
    Answers .muteNRelease s (fun m =>
      m.sht = { s.node.sht with mutePin := false, muteClear := 0 } ∧ OnlyIn [.sht] s.node m) ∧
    (∀ src : Src, Reachable s shtPage → src.port ∉ (s.node.hdr shtPage).keyArmed →
      Answers (.shtMuteAllWrite src true) s (fun m =>
        m.rsp.ok = true ∧ m.flag shtPage Fld.shtCtrlMuteAll = true ∧ m.sht.cause3 = true ∧ OnlyIn [.sht, .regs, .rsp] s.node m) ∧
      Answers (.shtMuteAllWrite src false) s (fun m =>
        m.rsp.ok = true ∧ m.flag shtPage Fld.shtCtrlMuteAll = false ∧ m.sht = s.node.sht ∧
        RegsBut [regKey shtPage 0x040 0] s.node m ∧ OnlyIn [.regs, .rsp] s.node m) ∧
      (∀ id : ShutterId, id = s.node.selShutter → 1 ≤ id.kind → id.kind ≤ 4 → (s.node.shut id).present = true → (s.node.shut id).dropping = false →
          s.node.fld shtPage Fld.pgCtrlCommitMode ≠ 2 → s.node.sht.queue.length < 256 →
          (∀ e ∈ s.node.sht.queue, e.1 ≠ id) →
          Answers (.shtPush src) s (fun m =>
            m.rsp.ok = true ∧ m.sht = { s.node.sht with
              queue := s.node.sht.queue ++ [(id, s.node.pushCfg)]
              late := id :: s.node.sht.late.filter (fun x => decide (x ≠ id)) } ∧
            OnlyIn [.sht, .rsp] s.node m)) ∧
      ((s.node.shut s.node.selShutter).present = false → Answers (.shtPush src) s (fun m =>
        m.rsp.ok = true ∧ m.fld shtPage Fld.shtQstatDrops = Nat.min (s.node.fld shtPage Fld.shtQstatDrops + 1) 65535 ∧
        (m.reg shtPage 0x010).getLsbD 3 = true ∧ OnlyIn [.regs, .rsp] s.node m)))

/-! Coefficient windows, FIR chains, delay lines and steering. -/

/-- R131 to R137, R142: each action of BQD.ACT and FIR.ACT on the selected strip of the page's own die, the drop of an
action on no strip, the end of a PREP's copy, and the swap at its sample, which under IMMEDIATE is due at once where no
item of the strip has started. R134: a write goes on under the items that run on the die. The model's own choice in it:
notes/assumptions/2.md. -/
def Obligations.CoefficientBanks : Prop :=
  ∀ (s : State) (d : Die), s.node.alive = true → (s.node.die d).poisoned = [] → (s.node.die d).steerCopying = false →
    let st := fun (n : Node) (kind idx : Nat) => n.strip kind idx
    let stands := (List.range 9).all (fun k => (s.node.engine d k).item.isNone || (s.node.engine d k).late)
    let parts := fun (ps : List Part) => if stands then ps else .regs :: .dies :: .cas :: .free :: ps
    (∀ src : Src, Reachable s (bqdPage d) → src.port ∉ (s.node.hdr (bqdPage d)).keyArmed →
      let drops := fun (i : Instr) => Answers i s (fun m =>
        m.rsp.ok = true ∧ m.fld (bqdPage d) Fld.bqdErrDrops = Nat.min (s.node.fld (bqdPage d) Fld.bqdErrDrops + 1) 65535 ∧
        (m.reg (bqdPage d) 0x010).getLsbD 1 = true ∧ OnlyIn (parts [.regs, .rsp]) s.node m)
      (s.node.block (s.node.bqdSel d).1 (s.node.bqdSel d).2 = none →
        drops (.bqdWriteActive src d) ∧ drops (.bqdWriteInactive src d) ∧ drops (.bqdReadActive src d) ∧
        drops (.bqdReadInactive src d) ∧ drops (.bqdPrep src d) ∧ drops (.bqdSwapreq src d) ∧ drops (.bqdCancel src d)) ∧
      (∀ kind idx b r, s.node.bqdSel d = (kind, idx) → s.node.block kind idx = some b → b.die = d.val →
        recordOff kind b.sections (s.node.fld (bqdPage d) Fld.bqdSelRecord) = some r →
        let t := s.node.strip kind idx
        let bank := fun (active : Bool) => if t.bank = active then b.loc1 + r else b.loc0 + r
        let set := fun (i : Instr) (u : StripSt) => Answers i s (fun m =>
          m.rsp.ok = true ∧ m.strip kind idx = u ∧
          (∀ k j, Node.stripKey k j ≠ Node.stripKey kind idx → m.strip k j = s.node.strip k j) ∧ OnlyIn (parts [.strips, .rsp]) s.node m)
        let writes := fun (i : Instr) (off : Nat) => Answers i s (fun m =>
          m.rsp.ok = true ∧
          (∀ k < 6, m.rdWord (Node.fenAddr d (off + 4 * k)) = s.node.reg (bqdPage d) (0x044 + 4 * k)) ∧
          m.rdWord (Node.fenAddr d (off + 24)) = 0 ∧ m.rdWord (Node.fenAddr d (off + 28)) = 0 ∧
          MemBut (Node.fenAddr d off) 32 s.node m ∧ OnlyIn (parts [.mem, .rsp]) s.node m)
        let reads := fun (i : Instr) (off : Nat) => Answers i s (fun m =>
          m.rsp.ok = true ∧
          (∀ k < 6, m.reg (bqdPage d) (0x044 + 4 * k) = s.node.rdWord (Node.fenAddr d (off + 4 * k))) ∧
          (stands = true → RegsBut ((List.range 6).map (fun k => regKey (bqdPage d) (0x044 + 4 * k) 0)) s.node m) ∧
          OnlyIn (parts [.regs, .rsp]) s.node m)
        writes (.bqdWriteActive src d) (bank true) ∧ reads (.bqdReadActive src d) (bank true) ∧
        (t.prep = false → reads (.bqdReadInactive src d) (bank false)) ∧
        (t.prep = true → set (.bqdReadInactive src d) { t with heldAcc := t.heldAcc ++ [(r, none)] }) ∧
        (t.snapped = false → t.due = false →
          (t.prep = false → writes (.bqdWriteInactive src d) (bank false)) ∧
          set (.bqdPrep src d) { t with prep := true }) ∧
        (t.prep = true → set (.bqdWriteInactive src d) { t with heldAcc := t.heldAcc ++ [(r, some (s.node.bqdWords d))] }) ∧
        (t.snapped = true ∨ t.due = true →
          (t.prep = false → drops (.bqdWriteInactive src d)) ∧ set (.bqdPrep src d) { t with prepAfter := true }) ∧
        (s.node.fld (bqdPage d) Fld.pgCtrlCommitMode ≠ 2 → set (.bqdSwapreq src d) { t with marked := true }) ∧
        (s.node.fld (bqdPage d) Fld.pgCtrlCommitMode = 2 →
          (t.prep = true ∨ s.node.stripStarted d kind idx = true → s.node.running = true →
            set (.bqdSwapreq src d) { t with snapped := true }) ∧
          (t.prep = false → s.node.running = true → s.node.stripStarted d kind idx = false →
            set (.bqdSwapreq src d) { t with snapped := false, due := true }) ∧
          (t.prep = false → s.node.running = false → Answers (.bqdSwapreq src d) s (fun m =>
            m.rsp.ok = true ∧ (m.reg (bqdPage d) 0x010).getLsbD 0 = true ∧
            m.strip kind idx = { t with
              snapped := false
              due := false
              bank := !t.bank
              swapped := none
              prep := t.prepAfter
              prepAfter := false } ∧ OnlyIn (parts [.strips, .regs, .rsp]) s.node m))) ∧
        set (.bqdCancel src d) { t with
          marked := false
          snapped := t.snapped && decide (s.node.fld (bqdPage d) Fld.pgCtrlCommitMode ≠ 2) })) ∧
    (∀ src : Src, Reachable s (firPage d) → src.port ∉ (s.node.hdr (firPage d)).keyArmed →
      let drops := fun (i : Instr) => Answers i s (fun m =>
        m.rsp.ok = true ∧ m.fld (firPage d) Fld.firErrDrops = Nat.min (s.node.fld (firPage d) Fld.firErrDrops + 1) 65535 ∧
        (m.reg (firPage d) 0x010).getLsbD 1 = true ∧ OnlyIn [.regs, .rsp] s.node m)
      (s.node.chain (s.node.fld (firPage d) Fld.firSelStrip) = none →
        drops (.firPrep src d) ∧ drops (.firSwapreq src d) ∧ drops (.firCancel src d)) ∧
      (∀ idx b, s.node.fld (firPage d) Fld.firSelStrip = idx → s.node.chain idx = some b → b.die = d.val →
        let t := s.node.strip 3 idx
        let set := fun (i : Instr) (u : StripSt) => Answers i s (fun m =>
          m.rsp.ok = true ∧ m.strip 3 idx = u ∧
          (∀ k j, Node.stripKey k j ≠ Node.stripKey 3 idx → m.strip k j = s.node.strip k j) ∧ OnlyIn [.strips, .rsp] s.node m)
        (t.firSnapped = false → t.firDue = false → set (.firPrep src d) { t with firPrep := true }) ∧
        (t.firSnapped = true ∨ t.firDue = true → set (.firPrep src d) { t with firPrepAfter := true }) ∧
        (s.node.fld (firPage d) Fld.pgCtrlCommitMode ≠ 2 → set (.firSwapreq src d) { t with firMarked := true }) ∧
        (s.node.fld (firPage d) Fld.pgCtrlCommitMode = 2 →
          (t.firPrep = true ∨ s.node.stripStarted d 3 idx = true → s.node.running = true →
            set (.firSwapreq src d) { t with firSnapped := true }) ∧
          (t.firPrep = false → s.node.running = true → s.node.stripStarted d 3 idx = false →
            set (.firSwapreq src d) { t with firSnapped := false, firDue := true }) ∧
          (t.firPrep = false → s.node.running = false → Answers (.firSwapreq src d) s (fun m =>
            m.rsp.ok = true ∧ (m.reg (firPage d) 0x010).getLsbD 0 = true ∧
            m.strip 3 idx = { t with
              firSnapped := false
              firDue := false
              firBank := !t.firBank
              firSwapped := none
              firPrep := t.firPrepAfter
              firPrepAfter := false } ∧ OnlyIn [.strips, .regs, .rsp] s.node m))) ∧
        set (.firCancel src d) { t with
          firMarked := false
          firSnapped := t.firSnapped && decide (s.node.fld (firPage d) Fld.pgCtrlCommitMode ≠ 2) })) ∧
    (∀ kind idx b, s.node.block kind idx = some b → b.die = d.val → (st s.node kind idx).prep = true →
      (st s.node kind idx).heldAcc = [] →
      let t := st s.node kind idx
      let from_ := if t.bank then b.loc1 else b.loc0
      let into := if t.bank then b.loc0 else b.loc1
      Answers (.bqdPrepEnd d kind idx) s (fun m =>
        m.strip kind idx = { t with prep := false } ∧
        (∀ k < b.size, m.rdByte (Node.fenAddr d (into + k)) = s.node.rdByte (Node.fenAddr d (from_ + k))) ∧
        MemBut (Node.fenAddr d into) b.size s.node m ∧ (m.reg (bqdPage d) 0x010).getLsbD 3 = true ∧
        RegsBut [regKey (bqdPage d) 0x010 0] s.node m ∧ OnlyIn [.mem, .strips, .regs] s.node m)) ∧
    (∀ idx b, s.node.chain idx = some b → b.die = d.val → (st s.node 3 idx).firPrep = true → Memory.wf s.node.mem = true →
      b.loc0 + b.size ≤ b.loc1 ∨ b.loc1 + b.size ≤ b.loc0 →
      let t := st s.node 3 idx
      let from_ := if t.firBank then b.loc1 else b.loc0
      let into := if t.firBank then b.loc0 else b.loc1
      Answers (.firPrepEnd d idx) s (fun m =>
        m.strip 3 idx = { t with firPrep := false } ∧
        (∀ k < b.size, m.rdByte (Node.fenAddr d (into + k)) = s.node.rdByte (Node.fenAddr d (from_ + k))) ∧
        MemBut (Node.fenAddr d into) b.size s.node m ∧ (m.reg (firPage d) 0x010).getLsbD 3 = true ∧
        RegsBut [regKey (firPage d) 0x010 0] s.node m ∧ OnlyIn [.mem, .strips, .regs] s.node m)) ∧
    (let strips := s.node.dieStrips d
      let point := fun (fir : Bool) => if s.node.running then some (s.node.swapAt d fir) else none
      let block := fun (t : StripSt) => if t.due then
        { t with
          bank := !t.bank
          due := false
          swapped := point false
          prepAfter := false
          prep := t.prep || t.prepAfter } else t
      let chain := fun (t : StripSt) => if t.firDue then
        { t with
          firBank := !t.firBank
          firDue := false
          firSwapped := point true
          firPrepAfter := false
          firPrep := t.firPrep || t.firPrepAfter } else t
      let dueB := strips.any (fun e => (st s.node e.1 e.2).due)
      let dueF := strips.any (fun e => (st s.node e.1 e.2).firDue)
      let blocks := !(dueB && dueF && decide (s.node.swapAt d true < s.node.swapAt d false))
      let chains := !(dueB && dueF && decide (s.node.swapAt d false < s.node.swapAt d true))
      Answers (.coeffBankSwap d) s (fun m =>
        (∀ e ∈ strips, st m e.1 e.2 =
          (if chains then chain else id) ((if blocks then block else id) (st s.node e.1 e.2))) ∧
        (dueB && blocks = true → (m.reg (bqdPage d) 0x010).getLsbD 0 = true) ∧
        (dueF && chains = true → (m.reg (firPage d) 0x010).getLsbD 0 = true) ∧
        RegsBut [regKey (bqdPage d) 0x010 0, regKey (firPage d) 0x010 0] s.node m ∧ OnlyIn [.strips, .regs] s.node m))

/-- R146, R151, R153, R155 to R157: what ends or resumes a glide or a jump, the end of a steering copy, which leaves SET at an
entry written after the cutoff, the window of S + 8 samples that arrives from DRAM, two in a jump, with the last good
sample held over poisoned words, and the end of the poison hold. The model's own choices in it: notes/assumptions/2.md,
notes/assumptions/172.md and notes/assumptions/176.md. -/
def Obligations.DelayAndSteering : Prop :=
  ∀ (s : State) (d : Die) (kind idx : Nat), s.node.alive = true →
    let t := s.node.strip kind idx
    let set := fun (i : Instr) (u : StripSt) => Answers i s (fun m =>
      m.strip kind idx = u ∧ (∀ k j, Node.stripKey k j ≠ Node.stripKey kind idx → m.strip k j = s.node.strip k j) ∧
      OnlyIn [.strips] s.node m)
    (∀ c, s.node.delayCfg kind idx = some c → c.die = d.val →
      (t.mode = .gliding → set (.glideEnd d kind idx)
        { t with mode := .still, applied := t.target * 256, len := 0, done := 0, slowed := false }) ∧
      (t.mode = .jumping → set (.jumpEnd d kind idx)
        { t with mode := .still, applied := t.target * 256, len := 0, done := 0, slowed := false }) ∧
      (t.mode = .heldTarget → set (.jumpEnd d kind idx) { t with applied := t.target * 256, done := 64 }) ∧
      (t.mode = .waitFill → t.len ≠ 0 → set (.waitFillResume d kind idx) { t with mode := .gliding }) ∧
      (t.mode = .waitFill → t.len = 0 → set (.waitFillResume d kind idx) { t with mode := .jumping, len := 64, done := 0 })) ∧
    (∀ c, kind = 3 → s.node.delayCfg 3 idx = some c → c.die = d.val → t.poison = true →
      set (.poisonHoldEnd d idx) { t with poisonRun := Nat.max t.poisonD (Node.delayInForce t) + 1 + s.node.s }) ∧
    (s.node.running = false → Answers (.delayPrefetchArrival d idx) s (fun m => OnlyIn [] s.node m)) ∧
    (∀ c, kind = 3 → s.node.stripOf idx = some c → c.die = d.val → c.dram = true → s.node.running = true →
      t.mode ≠ .jumping → t.mode ≠ .heldTarget → Graph.stripAt s.node.rt.old idx = none → (s.node.die d).steerCopying = false →
      Node.fenAddr d (c.window + 4 * (s.node.s + 8)) ≤ dramBase →
      let first : Int := (s.node.mediaSample 0 : Int) - s.node.windowAge t false
      let cell := fun (k : Nat) => dramBase + c.ring + 4 * ((first + k) % (Node.dramRing : Int)).toNat
      let bad := fun (k : Nat) => s.node.dram.poisoned.contains (cell k / 64)
      let reads := (s.node.windowReads c t).filter (fun r => !r.2.1)
      let seen := fun (k : Nat) => reads.any (fun r => decide (r.2.2 = first + k))
      let good := fun (k : Nat) => (List.range k).foldl (fun w i =>
        if seen i && !bad i then s.node.rdWord (cell i) else w) t.lastRead
      let mutes := (reads.filter (fun r => (List.range (s.node.s + 8)).any (fun k => decide (r.2.2 = first + k) && bad k))).map (·.1)
      Answers (.delayPrefetchArrival d idx) s (fun m =>
        let u := { t with lastRead := good (s.node.s + 8) }
        (∀ k < s.node.s + 8, m.rdWord (Node.fenAddr d (c.window + 4 * k)) = if bad k then good k else s.node.rdWord (cell k)) ∧
        MemBut (Node.fenAddr d c.window) (4 * (s.node.s + 8)) s.node m ∧
        m.cas = { s.node.cas with fetched := s.node.cas.fetched ++ [c.num] } ∧
        (mutes = [] → m.strip 3 idx = u ∧ OnlyIn [.mem, .dies, .strips, .cas] s.node m) ∧
        (mutes ≠ [] → m.strip 3 idx = { u with
            poison := true
            poisonRun := 0
            poisonSkip := mutes.foldl Nat.max 0 + 1
            poisonD := Node.delayInForce t } ∧
          OnlyIn [.mem, .dies, .strips, .cas, .sht, .regs] s.node m ∧
          (t.poison = false → (s.node.shut ⟨3, 0, idx⟩).present = true →
            m.shut ⟨3, 0, idx⟩ = setCause 6 32 (runTo (mutes.foldl Nat.min (mutes.headD 0)) (s.node.shut ⟨3, 0, idx⟩)) ∧
            m.fld (dlyPage d) Fld.dlyPoisonCount = Nat.min (s.node.fld (dlyPage d) Fld.dlyPoisonCount + 1) 65535 ∧
            (m.reg (dlyPage d) 0x010).getLsbD 3 = true)))) ∧
    (∀ c, kind = 3 → s.node.stripOf idx = some c → c.die = d.val → c.dram = true → s.node.running = true →
      t.mode = .jumping ∨ t.mode = .heldTarget → Graph.stripAt s.node.rt.old idx = none → (s.node.die d).steerCopying = false →
      Node.fenAddr d (c.window + 4 * (s.node.s + 8)) ≤ dramBase → Node.fenAddr d (c.window2 + 4 * (s.node.s + 8)) ≤ dramBase →
      c.window + 4 * (s.node.s + 8) ≤ c.window2 ∨ c.window2 + 4 * (s.node.s + 8) ≤ c.window → s.node.dram.poisoned = [] →
      let first := fun (jumpTo : Bool) => (s.node.mediaSample 0 : Int) - s.node.windowAge t jumpTo
      let cell := fun (jumpTo : Bool) (k : Nat) => dramBase + c.ring + 4 * ((first jumpTo + k) % (Node.dramRing : Int)).toNat
      let good := fun (jumpTo : Bool) (w : Word) => (List.range (s.node.s + 8)).foldl (fun w (k : Nat) =>
        if (s.node.windowReads c t).any (fun r => decide (r.2.1 = jumpTo ∧ r.2.2 = first jumpTo + (k : Int))) then
          s.node.rdWord (cell jumpTo k) else w) w
      Answers (.delayPrefetchArrival d idx) s (fun m =>
        (∀ k < s.node.s + 8, m.rdWord (Node.fenAddr d (c.window + 4 * k)) = s.node.rdWord (cell false k) ∧
          m.rdWord (Node.fenAddr d (c.window2 + 4 * k)) = s.node.rdWord (cell true k)) ∧
        m.strip 3 idx = { t with lastRead := good true (good false t.lastRead) } ∧
        m.cas = { s.node.cas with fetched := s.node.cas.fetched ++ [c.num] } ∧
        OnlyIn [.mem, .dies, .strips, .cas] s.node m)) ∧
    (∀ a b, (s.node.die d).steerCopying = true → s.node.steerLoc d (s.node.die d).steerBank = some a →
      s.node.steerLoc d (!(s.node.die d).steerBank) = some b → a + Node.steerSize ≤ b ∨ b + Node.steerSize ≤ a →
      (s.node.die d).steerHeld = [] → Memory.wf s.node.mem = true →
      let newer := fun (k : Nat) => (s.node.die d).steerSet.any (fun (e : SteerEntry) =>
        decide (k = 11 + 8 * e.entry) && decide (s.node.steerEntry d a e.kind e.num e.entry ≠ e))
      Answers (.steerCopyEnd d) s (fun m =>
        (m.die d).steerCopying = false ∧ m.flag (dlyPage d) Fld.dlySteerCopying = false ∧
        (∀ k < Node.steerSize, m.rdByte (Node.fenAddr d (b + k)) =
          if 8 ≤ k ∧ k % 8 = 3 ∧ newer k = false then s.node.rdByte (Node.fenAddr d (a + k)) &&& 0x7F else s.node.rdByte (Node.fenAddr d (a + k))) ∧
        MemBut (Node.fenAddr d b) Node.steerSize s.node m ∧ OnlyIn [.mem, .dies, .regs] s.node m))

/-! Streams, the Sluice and the Ethernet MACs. -/

/-- R189, R196, R198 to R204: an unmatched packet is counted; a good packet on time for an empty slot is stored and its
path counted; a slot is judged at its deadline; errors of Sluice SRAM are counted and raised, and a bank that fails
its march is retired, the streams whose rings lie in it waiting without a place; a read of a descriptor latches its other words. The model's own choices in it:
notes/assumptions/87.md, notes/assumptions/88.md and notes/assumptions/89.md. -/
def Obligations.StreamsAndSluice : Prop :=
  ∀ (s : State), s.node.alive = true →
    (∀ p : StreamPacket, s.node.running = true → s.node.receives p.port = true → s.node.audioPort p.port p.udpDst = true → p.excluded = false →
      (∀ r ∈ s.node.rt.cfg.rx, r.dstAddr ≠ p.dst ∨ r.udpDst ≠ p.udpDst) →
      Answers (.streamPacketReceived p) s (fun m =>
        (p.port.val = 0 → m.fld sluPage Fld.sluUnmatchedEth0 = Nat.min (s.node.fld sluPage Fld.sluUnmatchedEth0 + 1) 255) ∧
        RegsBut [regKey sluPage 0x070 0] s.node m ∧ OnlyIn [.regs] s.node m)) ∧
    (∀ p : StreamPacket, s.node.receives p.port = false ∨ s.node.audioPort p.port p.udpDst = false →
      Answers (.streamPacketReceived p) s (fun m => OnlyIn [] s.node m)) ∧
    (∀ (p : StreamPacket) (r : RxStreamCfg), s.node.running = true → s.node.receives p.port = true →
      s.node.audioPort p.port p.udpDst = true → s.node.rt.inForce = true → p.excluded = false →
      s.node.rt.cfg.rx = [r] → r.dstAddr = p.dst → r.udpDst = p.udpDst → r.interop = false → s.node.packetCheck r p = 0 →
      p.stamp ≤ s.node.clk.index + 1 → s.node.clk.index + 1 < p.stamp + r.depth → 0 < r.channels →
      p.samples.length = r.channels * s.node.s → (s.node.rxs r.num).unplaced = false →
      ((Node.ringSlotOf (s.node.rxs r.num) p.stamp).wrote = [] → s.node.str.poisoned = [] →
        Answers (.streamPacketReceived p) s (fun m =>
          (∀ i (h : i < p.samples.length), m.rdWord (sluiceBase + s.node.slotOff r p.stamp + 4 * i) = p.samples[i]) ∧
          (Node.ringSlotOf (m.rxs r.num) p.stamp).wrote = [(p.seq, 2 ^ s.node.s - 1)] ∧
          (m.rxs r.num).version = p.version ∧
          MemBut (sluiceBase + s.node.slotOff r p.stamp) (4 * p.samples.length) s.node m ∧
          RegsIn [sluPage] s.node m ∧ OnlyIn [.mem, .str, .regs] s.node m)) ∧
      ((Node.ringSlotOf (s.node.rxs r.num) p.stamp).wrote = [(p.seq, 2 ^ s.node.s - 1)] →
        Answers (.streamPacketReceived p) s (fun m =>
          m.fld sluPage Fld.sluBog0Duplicate r.num = Nat.min (s.node.fld sluPage Fld.sluBog0Duplicate r.num + 1) 65535 ∧
          RegsIn [sluPage] s.node m ∧ OnlyIn [.regs] s.node m))) ∧
    (∀ (r : RxStreamCfg) (k t : Nat), s.node.running = true → s.node.rxCfg k = some r → s.node.clk.index + 1 = t + r.depth →
      let x := s.node.rxs k
      let z := Node.ringSlotOf x t
      let whole := Node.slotMask z = 2 ^ s.node.streamS r - 1 ∧ z.poisoned = false
      (x.unplaced = true → Answers (.slotDeadline k) s (fun m => OnlyIn [] s.node m)) ∧
      (x.unplaced = false →
      (whole → x.state = .waiting → x.healthy = 1 → Answers (.slotDeadline k) s (fun m =>
        m.rxs k = { x with state := .healthy, healthy := 2 } ∧ OnlyIn [.str, .sht] s.node m)) ∧
      (whole → x.state ≠ .waiting → x.state ≠ .incompatible → Answers (.slotDeadline k) s (fun m =>
        m.rxs k = { x with state := .healthy, healthy := Nat.min 255 (x.healthy + 1) } ∧ OnlyIn [.str] s.node m)) ∧
      (¬whole → x.state ≠ .waiting → x.state ≠ .incompatible → Answers (.slotDeadline k) s (fun m =>
        (m.rxs k).healthy = 0 ∧ (Node.ringSlotOf (m.rxs k) t).missing = true ∧
        (m.rxs k).state = (if z.poisoned then .underrun else if z.invalid then .invalid else if z.early then .overrun else .underrun) ∧
        (m.input ⟨0, k⟩).event = true ∧ RegsIn [sluPage] s.node m ∧ OnlyIn [.str, .sht, .regs] s.node m)))) ∧
    (∀ (c : TxStreamCfg) (k sub lo hi : Nat), s.node.txCfg k = some c → c.interop = false → sub ≠ s.node.cfg.eid →
      let others := (s.node.txs k).subscribers.filter (fun e => decide (e.1 ≠ sub))
      (lo ≤ hi → lo ≤ 2 → 1 ≤ hi → Answers (.streamSubscribe k sub true lo hi) s (fun m =>
        m.txs k = { s.node.txs k with subscribers := others ++ [(sub, lo, hi)] } ∧ OnlyIn [.str] s.node m)) ∧
      (lo ≤ hi → 2 < lo → Answers (.streamSubscribe k sub true lo hi) s (fun m =>
        m.fld strPage Fld.strVersionIncompat = Nat.min (s.node.fld strPage Fld.strVersionIncompat + 1) 255 ∧
        (m.reg strPage 0x010).getLsbD 0 = true ∧ RegsIn [strPage] s.node m ∧ OnlyIn [.regs] s.node m)) ∧
      Answers (.streamSubscribe k sub false lo hi) s (fun m =>
        m.txs k = { s.node.txs k with subscribers := others } ∧ OnlyIn [.str] s.node m)) ∧
    (∀ addr,
      Answers (.sluiceEccError addr true) s (fun m =>
        addr / 8 * 8 ∈ m.str.poisoned ∧ Raised sluPage 2 s.node m ∧ (m.reg sluPage 0x010).getLsbD 3 = true ∧
        m.fld sluPage Fld.sluEccUncorrected = Nat.min (s.node.fld sluPage Fld.sluEccUncorrected + 1) 255 ∧
        OnlyIn (.str :: faultParts) s.node m) ∧
      Answers (.sluiceEccError addr false) s (fun m =>
        m.fld sluPage Fld.sluEccCorrected = Nat.min (s.node.fld sluPage Fld.sluEccCorrected + 1) 255 ∧
        Raised sluPage 1 s.node m ∧ OnlyIn faultParts s.node m)) ∧
    (∀ b : Fin 8,
      Answers (.sluiceBankMarchEnd b true) s (fun m => m.flt.nextSeq = s.node.flt.nextSeq ∧ OnlyIn [.flt] s.node m) ∧
      (s.node.str.retired.getLsbD b = false → Answers (.sluiceBankMarchEnd b false) s (fun m =>
        m.str.retired = s.node.str.retired ||| (1#8 <<< b.val) ∧ m.str.poisoned = s.node.str.poisoned ∧ m.str.tx = s.node.str.tx ∧
        (∀ r ∈ s.node.rt.cfg.rx, r.ringBase < (b.val + 1) * 0x40000 → b.val * 0x40000 < r.ringBase + s.node.ringLen r →
          (m.rxs r.num).unplaced = true ∧ (m.rxs r.num).slots = [] ∧ (m.rxs r.num).healthy = 0) ∧
        m.flt.nextSeq = (s.node.flt.nextSeq + 1) % 4294967296 ∧ (m.rt.inForce = true → m.rt.readmitWaits = true) ∧
        OnlyIn (.str :: .rt :: .sht :: faultParts) s.node m))) ∧
    (∀ src : Src,
      (Reachable s strPage → (s.node.hdr strPage).frozen = none → Answers (.strDescRead src) s (fun m =>
        m.rsp = ⟨true, s.node.strDesc.getD 0 0⟩ ∧
        (∀ k : Fin 3, m.reg strPage (0x048 + 4 * k) = s.node.strDesc.getD (k + 1) 0) ∧
        RegsBut [regKey strPage 0x048 0, regKey strPage 0x04C 0, regKey strPage 0x050 0] s.node m ∧
        OnlyIn [.regs, .rsp] s.node m)) ∧
      (Reachable s sluPage → (s.node.hdr sluPage).frozen = none → Answers (.sluDescRead src) s (fun m =>
        m.rsp = ⟨true, s.node.sluDesc.getD 0 0⟩ ∧
        (∀ k : Fin 3, m.reg sluPage (0x048 + 4 * k) = s.node.sluDesc.getD (k + 1) 0) ∧
        RegsBut [regKey sluPage 0x048 0, regKey sluPage 0x04C 0, regKey sluPage 0x050 0] s.node m ∧
        OnlyIn [.regs, .rsp] s.node m)))

/-- R207 to R221: received frames are checked, filtered and delivered into the ring's next descriptor, and the frame being received
when the MAC stops is still taken; ring transfers beyond the casement's reservation wait; a ring frame fills the transmit buffer and
goes out when no audio-class frame waits; PAUSE holds ring frames and not audio; a ring frame that is sent is written back and HEAD passes it; counters count and clear on a
read of their low word; links, which stay down until the first casement (R23), retraining, buffer errors and loopback tests. The model's own choices in it:
notes/assumptions/91.md, notes/assumptions/92.md, notes/assumptions/94.md, notes/assumptions/95.md, notes/assumptions/201.md and
notes/assumptions/202.md. -/
def Obligations.EthernetPorts : Prop :=
  ∀ (s : State) (k : Fin 4), s.node.alive = true →
    let page := macPage k
    let x := s.node.mac k
    let cnt := fun (n : Node) (c : Nat) => Sparse.get (fun _ => 0) (n.mac k).counters c
    let counts := fun (cs : List (Nat × Nat)) (m : Node) =>
      ∀ c : Nat, cnt m c = (match cs.find? (fun e => decide (e.1 = c)) with
        | some e => (cnt s.node c + e.2) % 2 ^ 64
        | none => cnt s.node c)
    let others := fun (m : Node) => ∀ j, j ≠ k.val → m.mac j = s.node.mac j
    let inWork := fun (a len : Nat) => 0x10000000 ≤ a ∧ a + len ≤ 0x10800000
    let desc := s.node.rxDesc k (s.node.rxHead k)
    let takes := fun (f : RxFrame) => s.node.receives k = true ∨
      (f.begun = true ∧ (s.node.hdr page).busy = true ∧ x.retired = false ∧ x.idle = false)
    (∀ f : RxFrame,
      (¬takes f → x.rxBad = false → Answers (.frameReceived k f) s (fun m => OnlyIn [] s.node m)) ∧
      (takes f → x.rxBad = true → 64 ≤ f.wireLen → f.fcsOk = true → Answers (.frameReceived k f) s (fun m =>
        counts [(cntRxFrames, 1), (cntRxOctets, f.wireLen), (cntRxNobuf, 1)] m ∧ (m.mac k).rxBad = false ∧
        (m.reg page 0x010).getLsbD 3 = true ∧ others m ∧ OnlyIn [.macs, .regs] s.node m)) ∧
      (takes f → x.rxBad = false →
        (f.wireLen < 64 → Answers (.frameReceived k f) s (fun m =>
          counts [(cntRxRunt, 1)] m ∧ others m ∧ OnlyIn [.macs] s.node m)) ∧
        (64 ≤ f.wireLen → f.fcsOk = false → s.node.flag page Fld.macCfgKeepBad = false →
          Answers (.frameReceived k f) s (fun m => counts [(cntRxFcsErr, 1)] m ∧ others m ∧ OnlyIn [.macs] s.node m)) ∧
        (64 ≤ f.wireLen → f.fcsOk = true → f.macControl = false →
          (s.node.addrAccepted k f.bytes = false → Answers (.frameReceived k f) s (fun m =>
            counts [(cntRxFrames, 1), (cntRxOctets, f.wireLen), (cntRxFiltered, 1)] m ∧ others m ∧ OnlyIn [.macs] s.node m)) ∧
          (s.node.addrAccepted k f.bytes = true → f.wireLen ≤ s.node.maxLen k →
            (s.node.audioClass k f = true → Answers (.frameReceived k f) s (fun m =>
              counts [(cntRxFrames, 1), (cntRxOctets, f.wireLen), (cntRxAudio, 1)] m ∧ others m ∧ OnlyIn [.macs] s.node m)) ∧
            (s.node.audioClass k f = false → f.noBandwidth = false → x.rxHeld ≠ [] →
              Answers (.frameReceived k f) s (fun m => (∃ h, (m.mac k).rxHeld = x.rxHeld ++ [h] ∧ h.frame = f ∧ h.fcsErr = false) ∧
                counts [(cntRxFrames, 1), (cntRxOctets, f.wireLen)] m ∧ others m ∧ OnlyIn [.macs] s.node m)) ∧
            (s.node.audioClass k f = false → f.noBandwidth = false → x.rxHeld = [] →
              (s.node.rxEmpty k = true → Answers (.frameReceived k f) s (fun m =>
                counts [(cntRxFrames, 1), (cntRxOctets, f.wireLen), (cntRxNobuf, 1)] m ∧ (m.reg page 0x010).getLsbD 3 = true ∧
                others m ∧ OnlyIn [.macs, .regs] s.node m)) ∧
              (∀ a, s.node.rxEmpty k = false → s.node.remapped = false → inWork desc 32 →
                (s.node.rdWord (desc + 4)).getLsbD 31 = true →
                a = (s.node.rdWord desc).toNat + (s.node.rdWord (desc + 8)).toNat % 256 * 2 ^ 32 →
                f.bytes.length ≤ (s.node.rdWord (desc + 4)).toNat % 16384 → inWork a f.bytes.length → 0 < f.bytes.length →
                a + f.bytes.length ≤ desc ∨ desc + 32 ≤ a →
                (s.node.ringRoom (Node.descCost desc a f.bytes.length) = false → Answers (.frameReceived k f) s (fun m =>
                  (∃ h, (m.mac k).rxHeld = [h] ∧ h.frame = f ∧ h.fcsErr = false) ∧
                  counts [(cntRxFrames, 1), (cntRxOctets, f.wireLen)] m ∧ others m ∧ OnlyIn [.macs] s.node m)) ∧
                (s.node.ringRoom (Node.descCost desc a f.bytes.length) = true → Answers (.frameReceived k f) s (fun m =>
                  (∀ j (h : j < f.bytes.length), m.rdByte (a + j) = f.bytes[j]) ∧
                  (m.rdWord (desc + 4)).getLsbD 31 = false ∧ (m.rdWord (desc + 4)).toNat % 16384 = f.bytes.length ∧
                  (m.rdWord (desc + 12)).toNat = Nat.min f.wireLen 65535 ∧
                  (∀ y, ¬(a ≤ y ∧ y < a + f.bytes.length) → ¬(desc + 4 ≤ y ∧ y < desc + 28 ∧ ¬(desc + 8 ≤ y ∧ y < desc + 12)) →
                    m.rdByte y = s.node.rdByte y) ∧
                  m.fld page Fld.macRxrHeadIndex =
                    (s.node.fld page Fld.macRxrHeadIndex + 1) % s.node.ringSize k Fld.macRxrBaseHiSize ∧
                  (m.reg page 0x010).getLsbD 1 = true ∧ counts [(cntRxFrames, 1), (cntRxOctets, f.wireLen)] m ∧ others m ∧
                  RegsIn [page] s.node m ∧ OnlyIn [.mem, .dram, .macs, .regs, .str] s.node m)))))))) ∧
    (s.node.receives k = true →
      (∀ q : Nat,
        (s.node.flag page Fld.macCfgRxPauseEn = false → Answers (.pauseFrameReceived k q) s (fun m =>
          counts [(cntRxFrames, 1), (cntRxOctets, 64), (cntRxPause, 1)] m ∧ (m.mac k).paused = x.paused ∧
          (m.reg page 0x010).getLsbD 4 = true ∧ others m ∧ RegsBut [regKey page 0x010 0] s.node m ∧ OnlyIn [.macs, .regs] s.node m)) ∧
        (s.node.flag page Fld.macCfgRxPauseEn = true → Answers (.pauseFrameReceived k q) s (fun m =>
          counts [(cntRxFrames, 1), (cntRxOctets, 64), (cntRxPause, 1)] m ∧ (m.mac k).paused = decide (q % 65536 ≠ 0) ∧
          m.fld page Fld.macPauseLeft ≤ q % 65536 ∧ (m.reg page 0x010).getLsbD 4 = true ∧ others m ∧
          RegsBut [regKey page 0x010 0, regKey page 0x0A0 0] s.node m ∧ OnlyIn [.macs, .regs] s.node m))) ∧
      (x.sending ≠ none ∨ x.waits ≠ none → Answers (.txDescriptorSend k) s (fun m => OnlyIn [] s.node m)) ∧
      (∀ a, x.sending = none → x.waits = none → s.node.txEmpty k = false → s.node.remapped = false →
        let d := s.node.txDesc k (s.node.txHead k)
        let len := (s.node.rdWord (d + 4)).toNat % 16384
        inWork d 32 → (s.node.rdWord (d + 4)).getLsbD 31 = true → s.node.dram.poisoned = [] →
        a = (s.node.rdWord d).toNat + (s.node.rdWord (d + 8)).toNat % 256 * 2 ^ 32 → inWork a (len + 1) →
        (s.node.ringRoom (Node.descCost d a len) = false → Answers (.txDescriptorSend k) s (fun m =>
          (m.mac k).txHeld = true ∧ (m.mac k).sending = none ∧ (m.mac k).waits = none ∧ counts [] m ∧ others m ∧
          OnlyIn [.macs] s.node m)) ∧
        (s.node.ringRoom (Node.descCost d a len) = true → Answers (.txDescriptorSend k) s (fun m =>
          (m.mac k).ringBuf = s.node.dmaRead a len ∧ (m.mac k).sendBad = false ∧
          (x.audioOn = false → x.audio = [] → x.paused = false →
            (m.mac k).sending = some (s.node.txHead k) ∧ (m.mac k).waits = none) ∧
          (x.audioOn = true ∨ x.audio ≠ [] ∨ x.paused = true →
            (m.mac k).sending = none ∧ (m.mac k).waits = some (s.node.txHead k)) ∧
          counts [] m ∧ others m ∧ OnlyIn [.macs, .str] s.node m)))) ∧
    (x.audioOn = true → Answers (.txFrameSent k true) s (fun m =>
      counts ([(cntTxFrames, 1), (cntTxOctets, x.audio.headD 0), (cntTxAudio, 1)] ++
        (if x.paused && !x.pauseWaits then [(cntTxAudioPaused, 1)] else [])) m ∧
      (m.mac k).audio = x.audio.tail ∧ others m ∧ OnlyIn [.macs] s.node m)) ∧
    (x.audioOn = false → Answers (.txFrameSent k true) s (fun m => OnlyIn [] s.node m)) ∧
    (x.sending = none → Answers (.txFrameSent k false) s (fun m => OnlyIn [] s.node m)) ∧
    (∀ idx, x.sending = some idx → s.node.remapped = false → inWork (s.node.txDesc k idx) 32 →
      x.ringBuf.length + 4 ≤ s.node.maxLen k →
      Answers (.txFrameSent k false) s (fun m =>
        (x.waits = none → (m.mac k).sending = none) ∧ (m.rdWord (s.node.txDesc k idx + 4)).getLsbD 31 = false ∧
        m.fld page Fld.macTxrHeadIndex = (s.node.fld page Fld.macTxrHeadIndex + 1) % s.node.ringSize k Fld.macTxrBaseHiSize ∧
        counts [(cntTxFrames, 1), (cntTxOctets, Nat.max 60 x.ringBuf.length + 4)] m ∧
        others m ∧ MemBut (s.node.txDesc k idx) 32 s.node m ∧ RegsIn [page] s.node m ∧
        OnlyIn [.mem, .dram, .macs, .regs] s.node m)) ∧
    (let ended := { x with paused := false, pauseWaits := false }
     Answers (.pauseExpiry k) s (fun m =>
        (x.audioOn = true ∨ x.sending ≠ none ∨ (x.audio = [] ∧ x.waits = none) → m.mac k = ended) ∧
        (s.node.receives k = true → x.audioOn = false → x.sending = none → x.audio ≠ [] → m.mac k = { ended with audioOn := true }) ∧
        (s.node.receives k = true → x.audioOn = false → x.sending = none → x.audio = [] → ∀ idx, x.waits = some idx →
          (m.mac k).sending = some idx ∧ (m.mac k).waits = none) ∧
        m.fld page Fld.macPauseLeft = 0 ∧ others m ∧ RegsBut [regKey page 0x0A0 0] s.node m ∧ OnlyIn [.macs, .regs] s.node m)) ∧
    (∀ (src : Src) (w : Word), Reachable s page → src.port ∉ (s.node.hdr page).keyArmed →
      Answers (.txrTailWrite src k w) s (fun m =>
        m.rsp.ok = true ∧ m.fld page Fld.macTxrTailIndex = w.toNat % 4096 ∧ RegsBut [regKey page 0x088 0] s.node m ∧
        OnlyIn [.regs, .rsp] s.node m) ∧
      Answers (.rxrTailWrite src k w) s (fun m =>
        m.rsp.ok = true ∧ m.fld page Fld.macRxrTailIndex = w.toNat % 4096 ∧ RegsBut [regKey page 0x098 0] s.node m ∧
        OnlyIn [.regs, .rsp] s.node m)) ∧
    (∀ (src : Src) (c : Fin 16), Reachable s page → (s.node.hdr page).frozen = none →
      Answers (.macCounterRead src k c) s (fun m =>
        m.rsp = ⟨true, BitVec.ofNat 32 (cnt s.node c)⟩ ∧ m.reg page (0x104 + 8 * c) = BitVec.ofNat 32 (cnt s.node c / 2 ^ 32) ∧
        cnt m c = 0 ∧ (∀ j, j ≠ c.val → cnt m j = cnt s.node j) ∧ others m ∧
        RegsBut [regKey page (0x104 + 8 * c) 0] s.node m ∧ OnlyIn [.macs, .regs, .rsp] s.node m)) ∧
    (s.node.outOfReset = false → Answers (.linkChange k true) s (fun m => OnlyIn [] s.node m)) ∧
    (x.link = false → x.retired = false → x.idle = false → s.node.outOfReset = true → Answers (.linkChange k true) s (fun m =>
      m.mac k = { x with link := true } ∧ (m.reg page 0x010).getLsbD 2 = true ∧ others m ∧ OnlyIn [.macs, .regs] s.node m)) ∧
    (x.link = true → Answers (.linkChange k false) s (fun m =>
      (m.mac k).link = false ∧ counts [(cntLinkDown, 1)] m ∧ (m.reg page 0x010).getLsbD 2 = true ∧ others m ∧
      OnlyIn [.macs, .regs] s.node m)) ∧
    (x.training = true → x.retired = false → x.idle = false → Answers (.serdesRetrainComplete k) s (fun m =>
      m.mac k = { x with training := false, relink := false, link := x.link || (x.relink && s.node.outOfReset) } ∧ others m ∧
      OnlyIn [.macs, .regs] s.node m)) ∧
    (∀ received,
      Answers (.macBufferEccError k false received) s (fun m =>
        m.mac k = { x with testWaits := !x.retired } ∧ Raised page 1 s.node m ∧ others m ∧ OnlyIn (.macs :: faultParts) s.node m) ∧
      Answers (.macBufferEccError k true received) s (fun m =>
        Raised page 2 s.node m ∧ others m ∧
        m.mac k = (let t := { x with testWaits := !x.retired }
          if received then { t with rxBad := true } else { t with sendBad := x.sending.isSome || x.waits.isSome }) ∧ OnlyIn (.macs :: faultParts) s.node m)) ∧
    (s.node.macIdle k = true ∨ x.link = false →
      Answers (.macLoopbackTestEnd k true) s (fun m =>
        m.mac k = { x with testWaits := false } ∧ m.flt.nextSeq = s.node.flt.nextSeq ∧ others m ∧ OnlyIn [.macs, .flt] s.node m) ∧
      (x.retired = false → Answers (.macLoopbackTestEnd k false) s (fun m =>
        (m.mac k).retired = true ∧ (m.mac k).link = false ∧ (m.mac k).waits = none ∧ m.flt.nextSeq = (s.node.flt.nextSeq + 1) % 4294967296 ∧ others m ∧
        OnlyIn (.macs :: faultParts) s.node m)))

/-! The PHC and the PTP service. -/

/-- R222 to R225, R227: writes of the increment, the permit and the step request with each of its results, BUSY among them, a latched read
of the time, and the carry of nanoseconds into seconds. The model's own choices in it: notes/assumptions/8.md and
notes/assumptions/104.md. -/
def Obligations.PhcTime : Prop :=
  ∀ (s : State), s.node.alive = true →
    let x := s.node.phc
    let offset : Int := s.node.stepSec * 1000000000 + s.node.stepNs
    let now : Int := Int.ofNat (x.sec * 1000000000 + x.ns)
    let drops := fun (m : Node) =>
      m.fld phcPage Fld.phcEventsIncrDrops = Nat.min (s.node.fld phcPage Fld.phcEventsIncrDrops + 1) 255 ∧
      (m.reg phcPage 0x010).getLsbD 2 = true
    (∀ src : Src, Reachable s phcPage → src.port ∉ (s.node.hdr phcPage).keyArmed →
      (∀ w : Word,
        (s.node.steering = true →
          Answers (.phcIncrFracWrite src w) s (fun m => m.phc = x ∧ drops m ∧ OnlyIn [.regs, .rsp] s.node m) ∧
          Answers (.phcIncrNsWrite src w) s (fun m => m.phc = x ∧ drops m ∧ OnlyIn [.regs, .rsp] s.node m)) ∧
        (s.node.steering = false →
          Answers (.phcIncrFracWrite src w) s (fun m =>
            m.rsp.ok = true ∧ m.phc = { x with heldFrac := w.toNat } ∧ OnlyIn [.phc, .rsp] s.node m) ∧
          (∀ i : Nat, i = w.toNat % 256 * 4294967296 + x.heldFrac →
            (5363340411 ≤ i → i ≤ 5374077829 → x.heldFrac < 4294967296 → Answers (.phcIncrNsWrite src w) s (fun m =>
              m.rsp.ok = true ∧ m.phc = { x with incr := i } ∧ OnlyIn [.phc, .rsp] s.node m)) ∧
            (i < 5363340411 → Answers (.phcIncrNsWrite src w) s (fun m =>
              m.phc = { x with incr := 5363340411, heldFrac := 5363340411 % 4294967296 } ∧ drops m ∧
              OnlyIn [.phc, .regs, .rsp] s.node m)) ∧
            (5374077829 < i → Answers (.phcIncrNsWrite src w) s (fun m =>
              m.phc = { x with incr := 5374077829, heldFrac := 5374077829 % 4294967296 } ∧ drops m ∧
              OnlyIn [.phc, .regs, .rsp] s.node m))))) ∧
      ((s.node.hdr phcPage).keyHolder = some src.port → Answers (.phcStepPermit src) s (fun m =>
        m.rsp.ok = true ∧ m.phc = { x with permit := true } ∧ OnlyIn [.phc, .rsp] s.node m)) ∧
      (s.node.stepNs.natAbs ≤ 999999999 → 0 ≤ now + offset →
        x.permit = true ∨ offset.natAbs ≤ (s.node.reg phcPage 0x06C).toNat →
        (s.node.stepBusy = true → Answers (.phcStepGo src) s (fun m =>
          m.rsp.ok = true ∧ m.phc = { x with permit := false } ∧ m.fld phcPage Fld.phcStatLastResult = 3 ∧
          RegsBut [regKey phcPage 0x070 0] s.node m ∧ OnlyIn [.phc, .regs, .rsp] s.node m)) ∧
        (s.node.stepBusy = false → Answers (.phcStepGo src) s (fun m =>
          m.rsp.ok = true ∧
          m.phc = { x with sec := (now + offset).toNat / 1000000000 % 2 ^ 48, ns := (now + offset).toNat % 1000000000,
                           epoch := (x.epoch + 1) % 4, permit := false, stepUntil := s.node.clk.now + 4 * Config.hubCycle } ∧
          m.fld phcPage Fld.phcStatLastResult = 0 ∧ m.reg phcPage 0x078 = Node.satWord offset ∧
          m.fld phcPage Fld.phcEventsSteps = Nat.min (s.node.fld phcPage Fld.phcEventsSteps + 1) 65535 ∧
          (m.reg phcPage 0x010).getLsbD 0 = true ∧ RegsIn [phcPage] s.node m ∧ OnlyIn [.phc, .regs, .rsp] s.node m))) ∧
      (∀ result, (999999999 < s.node.stepNs.natAbs ∨ now + offset < 0) ∧ result = 2 ∨
          s.node.stepNs.natAbs ≤ 999999999 ∧ 0 ≤ now + offset ∧ x.permit = false ∧
            (s.node.reg phcPage 0x06C).toNat < offset.natAbs ∧ result = 1 →
        Answers (.phcStepGo src) s (fun m =>
          m.phc = { x with permit := false } ∧ m.fld phcPage Fld.phcStatLastResult = result ∧
          m.fld phcPage Fld.phcEventsRefused = Nat.min (s.node.fld phcPage Fld.phcEventsRefused + 1) 255 ∧
          (m.reg phcPage 0x010).getLsbD 1 = true ∧ RegsIn [phcPage] s.node m ∧ OnlyIn [.phc, .regs, .rsp] s.node m)) ∧
      ((s.node.hdr phcPage).frozen = none → Answers (.phcTimeRead src) s (fun m =>
        m.rsp = ⟨true, BitVec.ofNat 32 (x.epoch * 2 ^ 30 + x.ns)⟩ ∧ m.reg phcPage 0x048 = BitVec.ofNat 32 x.sec ∧
        m.reg phcPage 0x04C = BitVec.ofNat 32 (x.sec / 2 ^ 32) ∧ m.reg phcPage 0x050 = BitVec.ofNat 32 x.frac ∧
        RegsBut [regKey phcPage 0x048 0, regKey phcPage 0x04C 0, regKey phcPage 0x050 0] s.node m ∧
        OnlyIn [.regs, .rsp] s.node m))) ∧
    (x.ns < 1000000000 → x.frac < 4294967296 → 0 < x.incr → x.incr < 4294967296 * 1000000000 →
      s.node.clk.now % Config.hubCycle = 0 →
      Answers .phcSecondsCarry s (fun m =>
        m.phc.sec = (x.sec + 1) % 2 ^ 48 ∧ m.phc.ns * 4294967296 + m.phc.frac < x.incr ∧ m.phc.incr = x.incr ∧
        (m.reg phcPage 0x010).getLsbD 3 = true ∧ s.node.clk.now < m.clk.now ∧ RegsBut [regKey phcPage 0x010 0] s.node m ∧
        OnlyIn [.phc, .clk, .regs] s.node m))

/-- R231, R232: what PTP messages, the announce timeout and the commands of the PTP service change, for a node with no
reference slot on PTP: a message of another domain or transport changes nothing, an Announce and each change of the ports has every
port take the state of the best-master algorithm. The parent's identities are answered low word first (notes/assumptions/97.md). The
model's own choices in it: notes/assumptions/99.md, notes/assumptions/100.md, notes/assumptions/203.md and notes/assumptions/204.md. -/
def Obligations.PtpService : Prop :=
  ∀ (s : State), s.node.alive = true → s.node.mgmt.running = true →
    s.node.ptpSlots 0 = [] → s.node.ptpSlots 1 = [] →
    let x := s.node.ptp
    let state := fun (n : Node) (k : Nat) (expired : Bool) (m : Node) =>
      m.ptpPort k = { n.ptpPort k with state := n.decidePort k expired }
    (∀ (port : Fin 4) (msg : PtpIn), (s.node.ptpPort port).enable = true →
      (msg.domain ≠ x.domain ∨ msg.transport ≠ (if (s.node.ptpPort port).ipv6 then 1 else 0) →
        Answers (.ptpMessageReceived port msg) s (fun m => OnlyIn [] s.node m)) ∧
      (msg.domain = x.domain → msg.transport = (if (s.node.ptpPort port).ipv6 then 1 else 0) →
        (msg.body = .pdelay → Answers (.ptpMessageReceived port msg) s (fun m =>
          m.ptp = { x with pdelayDropped := x.pdelayDropped + 1 } ∧ OnlyIn [.ptp] s.node m)) ∧
        (∀ a, msg.body = .announce a → x.ports.length = 4 → Answers (.ptpMessageReceived port msg) s (fun m =>
          (∀ k < 4, state (s.node.takeAnnounce port a) k false m) ∧
          (m.anySlave = true → ∀ best r, (s.node.takeAnnounce port a).clockBest = some (best, r) →
            m.ptp.gm = best.gm ∧ m.ptp.parent = best.sender ∧ m.ptp.clockClass = best.clockClass % 256 ∧
            m.ptp.accuracy = best.accuracy % 256 ∧ m.ptp.steps = best.steps) ∧
          OnlyIn [.ptp, .regs] s.node m)) ∧
        (∀ t1 t2 t3 t4 f straddles, msg.body = .timing t1 t2 t3 t4 f straddles →
          let d := ((t2 - t1) + (t4 - t3)) / 2
          let o := t2 - t1 - d
          (straddles = true ∨ (s.node.ptpPort port).state ≠ 9 →
            Answers (.ptpMessageReceived port msg) s (fun m => OnlyIn [] s.node m)) ∧
          (straddles = false → (s.node.ptpPort port).state = 9 → o.natAbs < 100 → o.natAbs ≤ (s.node.reg phcPage 0x06C).toNat →
            Answers (.ptpMessageReceived port msg) s (fun m =>
              m.ptp = { x with offset := o, delay := d, freq := f, good := Nat.min 16 (x.good + 1),
                               clockState := if 15 ≤ x.good then 3 else 2,
                               lockedOnce := if 15 ≤ x.good then true else x.lockedOnce } ∧
              (s.node.steering = true → m.phc = s.node.phc ∧ m.regs = s.node.regs) ∧ OnlyIn [.ptp, .phc, .regs] s.node m)) ∧
          (straddles = false → (s.node.ptpPort port).state = 9 → (s.node.reg phcPage 0x06C).toNat < o.natAbs → x.policy = 0 →
            Answers (.ptpMessageReceived port msg) s (fun m =>
              m.ptp.clockState = 1 ∧ m.ptp.offset = o ∧ m.phc.epoch = s.node.phc.epoch ∧ m.phc.permit = s.node.phc.permit ∧
              OnlyIn [.ptp, .phc, .regs] s.node m))))) ∧
    (∀ port : Fin 4, x.ports.length = 4 → (s.node.ptpPort port).enable = true → Answers (.announceReceiptTimeout port) s (fun m =>
      (∀ k < 4, state (s.node.modPort port (fun p => { p with best := none })) k (decide (port.val = k)) m) ∧
      OnlyIn [.ptp, .regs] s.node m)) ∧
    (∀ slot : Fin 4, s.node.slotBusy slot = true → s.node.lengthBad slot = false →
      (∀ w : Word,
        (w.toNat % 4 ≠ 3 → w.toNat / 256 % 256 ≤ 127 → Answers (.ptpProfile slot w) s (fun m =>
          m.ptp.profile = w.toNat % 4 ∧ m.ptp.domain = w.toNat / 256 % 256 ∧
          m.ptp.policy = (if w.toNat / 65536 % 4 = 3 then 1 else w.toNat / 65536 % 4) ∧
          m.ptp.ports = x.ports.map (fun p =>
            { p with state := if p.enable then 4 else 3, best := none, intervals := profileIntervals (w.toNat % 4) }) ∧
          m.slotBusy slot = false ∧ (m.reg mgtPage (responseOff slot + 4)).toNat % 256 = 0)) ∧
        (w.toNat % 4 = 3 ∨ 127 < w.toNat / 256 % 256 → Answers (.ptpProfile slot w) s (fun m =>
          Answered slot 6 none [] s.node m ∧ OnlyIn answerParts s.node m)) ∧
        Answers (.ptpClock slot w) s (fun m =>
          m.ptp.priority1 = w.toNat % 256 ∧ m.ptp.priority2 = w.toNat / 256 % 256 ∧ m.ptp.gmCapable = w.getLsbD 16 ∧
          (x.ports.length = 4 → ∀ k < 4, state { s.node with ptp := { x with
            priority1 := w.toNat % 256, priority2 := w.toNat / 256 % 256, gmCapable := w.getLsbD 16 } } k false m) ∧ m.slotBusy slot = false ∧ (m.reg mgtPage (responseOff slot + 4)).toNat % 256 = 0)) ∧
      (∀ w1 w2 : Word,
        (intervalsOk x.profile w2 = false → Answers (.ptpPort slot w1 w2) s (fun m =>
          Answered slot 6 none [] s.node m ∧ OnlyIn answerParts s.node m)) ∧
        (intervalsOk x.profile w2 = true → x.ports.length = 4 → Answers (.ptpPort slot w1 w2) s (fun m =>
          let port : PtpPort := { enable := w1.getLsbD 2, ipv6 := w1.getLsbD 3, unicast := w1.getLsbD 4, masterOnly := w1.getLsbD 5,
                                  slaveOnly := w1.getLsbD 6, intervals := w2, state := if w1.getLsbD 2 then 4 else 3 }
          m.ptpPort (w1.toNat % 4) = port ∧
          (∀ k < 4, k ≠ w1.toNat % 4 → state (s.node.modPort (w1.toNat % 4) (fun _ => port)) k false m) ∧
          m.slotBusy slot = false ∧ (m.reg mgtPage (responseOff slot + 4)).toNat % 256 = 0))) ∧
      Answers (.ptpStatus slot) s (fun m =>
        Answered slot 0 (some x.clockState)
          [BitVec.ofNat 32 ((s.node.ptpPort 0).state % 16 + (s.node.ptpPort 1).state % 16 * 16
             + (s.node.ptpPort 2).state % 16 * 256 + (s.node.ptpPort 3).state % 16 * 4096),
           Node.satWord x.offset, Node.satWord x.delay, Node.satWord x.freq] s.node m ∧ OnlyIn answerParts s.node m) ∧
      (let a := if x.clockState = 4 then s.node.ownSet
          else { gm := x.gm, sender := x.parent, clockClass := x.clockClass, accuracy := x.accuracy, steps := x.steps }
       Answers (.ptpParent slot) s (fun m =>
          Answered slot 0 none
            [BitVec.ofNat 32 a.gm, BitVec.ofNat 32 (a.gm / 2 ^ 32), BitVec.ofNat 32 a.sender, BitVec.ofNat 32 (a.sender / 2 ^ 32),
             BitVec.ofNat 32 (a.sender / 2 ^ 64),
             BitVec.ofNat 32 (a.clockClass % 256 + a.accuracy % 256 * 256 + a.steps % 65536 * 65536)] s.node m ∧
          OnlyIn answerParts s.node m)))

/-! References and DPLLs. -/

/-- R233 to R239: each event of a reference slot, and each write of the selector's or a slot's configuration, changes the
slot as its table gives and re-evaluates the selection. The model's own choices in it: notes/assumptions/2.md and
notes/assumptions/102.md. -/
def Obligations.ReferenceSlots : Prop :=
  ∀ (s : State) (k : Fin 16) (meas : RefMeas), s.node.alive = true → s.node.refs.slots.length = 16 →
    let x := s.node.slot k
    let parts : List Part := [.refs, .regs, .phc, .free]
    let goes := fun (i : Instr) (u : RefSlot) => Answers i s (fun m =>
      m.slot k = u ∧ (∀ j < 16, j ≠ k.val → m.slot j = s.node.slot j) ∧
      m.refs.active = (s.node.modSlot k (fun _ => u)).selectSlot.1 ∧ OnlyIn parts s.node m)
    let just := fun (i : Instr) (u : RefSlot) => Answers i s (fun m =>
      m.slot k = u ∧ (∀ j < 16, j ≠ k.val → m.slot j = s.node.slot j) ∧ m.refs.active = s.node.refs.active ∧
      OnlyIn [.refs, .regs] s.node m)
    (x.state ≠ .disabled → x.state ≠ .noSignal → goes (.refSignalLoss k meas)
      { x with state := .noSignal, abs := [], rel := 0, drift := 0, wtrLeft := 0, agreed := 0, phaseIgnored := false }) ∧
    (x.state = .noSignal → s.node.slotCfgOk k = true → s.node.slotEnabled k = true →
      just (.refSignalPresent k) { x with state := .validating }) ∧
    (x.state = .validating → s.node.qlGood k = true → s.node.monitorsWithin k Node.hardLimits 1 1 = true →
      (s.node.flag refPage Fld.refScfg0WtrEn k = true → just (.refValidationDone k meas)
        { x with state := .waitRestore, wtrLeft := Nat.min 3600 (s.node.fld refPage Fld.refScfg0WtrS k) }) ∧
      (s.node.flag refPage Fld.refScfg0WtrEn k = false → goes (.refValidationDone k meas) { x with state := .qualified })) ∧
    (x.state = .waitRestore → goes (.refWaitRestoreDone k meas) { x with state := .qualified, wtrLeft := 0 }) ∧
    (x.state = .votedOut → 60 ≤ x.agreed → just (.refVotedOutReturn k) { x with state := .validating, agreed := 0 }) ∧
    (x.state = .votedOut → x.agreed < 60 → just (.refVotedOutReturn k) x) ∧
    (∀ q : Option (BitVec 16), ∀ good : Bool, good = (s.node.modSlot k (fun r => { r with received := q })).qlGood k →
      (x.state = .qualified ∨ x.state = .degraded ∨ x.state = .waitRestore →
        goes (.refQlChange k q meas) { x with received := q, state := if good then x.state else .qlLow }) ∧
      (x.state = .qlLow → good = true → goes (.refQlChange k q meas) { x with received := q, state := .validating }) ∧
      (x.state = .qlLow ∧ good = false ∨ x.state = .noSignal ∨ x.state = .validating →
        just (.refQlChange k q meas) { x with received := q })) ∧
    (s.node.slotKind k ≤ 4 → x.state ≠ .disabled → x.state ≠ .noSignal → s.node.refs.active = some k.val →
      s.node.refs.dplls.length = 4 → Answers (.missingEdgeHold k) s (fun m =>
        (m.slot k) = { x with phaseIgnored := true } ∧ m.dpll 1 = { s.node.dpll 1 with held := true } ∧
        OnlyIn [.refs] s.node m)) ∧
    (∀ (abs : List (Option Int)) (v : Int), x.state = .qualified → s.node.slotKind k ≠ 7 → abs.getD k none = some v →
      s.node.fld refPage Fld.refFlimAbsHard * 100 < v.natAbs → Answers (.refFrequencyGate abs meas) s (fun m =>
        (m.slot k).abs = (v :: x.abs).take 17 ∧ (m.slot k).state = .disqualified ∧ (m.reg refPage 0x010).getLsbD 2 = true ∧
        OnlyIn parts s.node m)) ∧
    (∀ a b : Nat, s.node.usableSlots = [a, b] → s.node.slotRank a = s.node.slotRank b →
      s.node.refs.disputes = [] →
      (Nat.max 1 (s.node.fld refPage Fld.refAgreePpb) * 100 < (s.node.slotMean a - s.node.slotMean b).natAbs →
        Answers (.refDisputeJudge meas) s (fun m =>
          m.refs.disputes = [(a, b)] ∧ (m.reg refPage 0x010).getLsbD 3 = true ∧
          m.fld refPage Fld.refEventsDisputes = Nat.min (s.node.fld refPage Fld.refEventsDisputes + 1) 255 ∧
          OnlyIn parts s.node m)) ∧
      ((s.node.slotMean a - s.node.slotMean b).natAbs ≤ Nat.max 1 (s.node.fld refPage Fld.refAgreePpb) * 100 →
        Answers (.refDisputeJudge meas) s (fun m => m.refs.disputes = [] ∧ OnlyIn parts s.node m))) ∧
    (∀ src : Src, Reachable s refPage → src.port ∉ (s.node.hdr refPage).keyArmed →
      (∀ v : Word,
        (wordField v Fld.refCtrlMode = 2 ∨ wordField v Fld.refCtrlMode = 3 → Answers (.refCtrlWrite src v meas) s (fun m =>
          m.rsp.ok = true ∧ m.fld refPage Fld.refCtrlMode = wordField v Fld.refCtrlMode ∧ m.refs.active = none ∧
          m.refs.slots = s.node.refs.slots ∧ OnlyIn (.rsp :: parts) s.node m)) ∧
        (wordField v Fld.refCtrlMode = 1 → (s.node.hdr refPage).active = true → s.node.refs.disputes = [] →
          Answers (.refCtrlWrite src v meas) s (fun m =>
            m.rsp.ok = true ∧ m.fld refPage Fld.refCtrlManual = wordField v Fld.refCtrlManual ∧
            m.refs.active = (if s.node.usable (wordField v Fld.refCtrlManual) then some (wordField v Fld.refCtrlManual) else none) ∧
            m.refs.slots = s.node.refs.slots ∧ OnlyIn (.rsp :: parts) s.node m))) ∧
      (∀ (r : Fin 5) (v : Word), s.node.fld refPage Fld.refSelSlot = k.val → Answers (.refSlotCfgWrite src r v meas) s (fun m =>
        m.rsp.ok = true ∧
        m.slot k = { state := if m.slotEnabled k then .noSignal else .disabled, received := m.nativeQl k } ∧
        (r = 0 → m.slotEnabled k = decide (wordField v Fld.refScfg0Enable ≠ 0)) ∧
        (∀ j < 16, j ≠ k.val → m.slot j = s.node.slot j) ∧ OnlyIn (.rsp :: parts) s.node m)) ∧
      (s.node.fld refPage Fld.refSelSlot = k.val → (s.node.hdr refPage).frozen = none → Answers (.refSstatRead src) s (fun m =>
        m.rsp.ok = true ∧ m.reg refPage 0x08C 0xFFFF = BitVec.ofInt 32 (x.abs.headD 0) ∧
        m.reg refPage 0x090 0xFFFF = BitVec.ofInt 32 x.rel ∧ m.reg refPage 0x094 0xFFFF = BitVec.ofInt 32 x.drift ∧
        m.rsp.data.toNat % 256 = slotCode x.state ∧
        RegsBut [regKey refPage 0x088 0xFFFF, regKey refPage 0x08C 0xFFFF, regKey refPage 0x090 0xFFFF,
          regKey refPage 0x094 0xFFFF] s.node m ∧ OnlyIn [.regs, .rsp] s.node m))) ∧
    (∀ slot : Fin 4, s.node.mgmt.running = true → s.node.slotBusy slot = true → s.node.lengthBad slot = false →
      (s.node.rt.inForce = false → Answers (.refpolReload slot meas) s (fun m =>
        Answered slot 0 none [] s.node m ∧ OnlyIn answerParts s.node m)) ∧
      (s.node.rt.inForce = true → Answers (.refpolReload slot meas) s (fun m =>
        m.slotBusy slot = false ∧ (m.reg mgtPage (responseOff slot + 4)).toNat % 256 = 0 ∧
        (∀ e ∈ s.node.rt.cfg.refpol, e.1 = refPage → 0x070 ≤ e.2.1 → e.2.1 ≤ 0x080 →
          (∀ e' ∈ s.node.rt.cfg.refpol, regKey e'.1 e'.2.1 e'.2.2.1 = regKey e.1 e.2.1 e.2.2.1 → e' = e) →
          m.reg refPage e.2.1 e.2.2.1 = e.2.2.2))))

/-- R241, R244 to R247, R254: the lock sequence of a DPLL, its loss of lock, the end of a slewed switch, the expiry of
holdover, and its faults and their end. The model's own choice in it: notes/assumptions/2.md. -/
def Obligations.DpllStates : Prop :=
  ∀ (s : State) (k : Fin 4), s.node.alive = true → s.node.refs.dplls.length = 4 →
    let x := s.node.dpll k
    let goes := fun (i : Instr) (u : Dpll) => Answers i s (fun m =>
      m.dpll k = u ∧ (∀ j < 4, j ≠ k.val → m.dpll j = s.node.dpll j) ∧ m.refs.active = s.node.refs.active ∧
      RegsBut [regKey refPage 0x010 0, regKey (dplPage k) 0x010 0] s.node m ∧ OnlyIn [.refs, .regs] s.node m)
    (x.state = .acquiring → ∀ err : Nat,
      (err ≤ s.node.lockWindow k → s.node.bwSet k < s.node.bwNow k →
        goes (.dpllBwStepDown ⟨k, err⟩) { x with bw := s.node.bwNow k - 1 }) ∧
      (err ≤ s.node.lockWindow k → s.node.bwNow k ≤ s.node.bwSet k →
        goes (.dpllBwStepDown ⟨k, err⟩) { x with state := .locked, bw := s.node.bwSet k, lockedSecs := 0 }) ∧
      (s.node.lockWindow k < err → goes (.dpllBwStepDown ⟨k, err⟩) x) ∧
      (4 * s.node.lockWindow k < err → Answers (.dpllLockLoss ⟨k, err⟩) s (fun m =>
        (m.dpll k).state = .acquiring ∧ (m.dpll k).bw = s.node.bwAcquire k ∧ OnlyIn [.refs] s.node m))) ∧
    (x.state = .locked → ∀ err : Nat,
      (err ≤ 4 * s.node.lockWindow k → goes (.dpllLockLoss ⟨k, err⟩) x) ∧
      (4 * s.node.lockWindow k < err → Answers (.dpllLockLoss ⟨k, err⟩) s (fun m =>
        (m.dpll k).state = .acquiring ∧ (m.dpll k).bw = s.node.bwAcquire k ∧ (m.dpll k).lockedSecs = 0 ∧
        m.fld (dplPage k) Fld.dplEventsLockLoss = Nat.min (s.node.fld (dplPage k) Fld.dplEventsLockLoss + 1) 65535 ∧
        (m.reg (dplPage k) 0x010).getLsbD 1 = true ∧ OnlyIn [.refs, .regs] s.node m))) ∧
    (k = 1 → x.state = .switching →
      (s.node.slewNow 1 ≠ 0 → goes .dpllSlewComplete x) ∧
      (s.node.slewNow 1 = 0 → s.node.steering = false → goes .dpllSlewComplete { x with state := .locked, slewLeft := 0 }) ∧
      (s.node.slewNow 1 = 0 → s.node.steering = true → Answers .dpllSlewComplete s (fun m =>
        m.dpll 1 = { x with state := .locked, slewLeft := 0 } ∧ m.refs.active = s.node.refs.active ∧
        m.phc.incr = Nat.max 5363340411 (Nat.min 5374077829 (Node.incrOf x.freq)) ∧ OnlyIn [.refs, .regs, .phc] s.node m))) ∧
    (k = 1 → x.state = .holdover → s.node.fld refPage Fld.refHoldoverLimitS ≠ 0 →
      s.node.fld refPage Fld.refHoldoverLimitS ≤ s.node.fld refPage Fld.refHoStatElapsed → Answers .dpllHoldoverExpiry s (fun m =>
      m.dpll 1 = { x with state := .freeRun, keepsHeld := true } ∧ m.flag refPage Fld.refHoStatExpired = true ∧
      (m.reg refPage 0x010).getLsbD 5 = true ∧ m.phc = s.node.phc ∧ OnlyIn [.refs, .regs] s.node m)) ∧
    (Answers (.dpllSynthUnlock k) s (fun m =>
      (m.dpll k).state = .fault ∧ Raised (dplPage k) 1 s.node m ∧ (m.reg (dplPage k) 0x010).getLsbD 2 = true ∧
      OnlyIn (.refs :: faultParts) s.node m)) ∧
    (Answers (.dpllFreqLimit k) s (fun m =>
      (m.dpll k).state = .fault ∧ Raised (dplPage k) 2 s.node m ∧ (m.reg (dplPage k) 0x010).getLsbD 2 = true ∧
      OnlyIn (.refs :: faultParts) s.node m)) ∧
    (x.state = .fault →
      (s.node.dpllInput k = true → k ≠ 1 ∨ s.node.steering = true → Answers (.dpllFaultRecover k) s (fun m =>
        (m.dpll k).state = .acquiring ∧ (m.dpll k).bw = s.node.bwAcquire k ∧ OnlyIn [.refs, .regs] s.node m)) ∧
      (s.node.dpllInput k = false → Answers (.dpllFaultRecover k) s (fun m =>
        (m.dpll k).state = .freeRun ∧ (m.dpll k).freq = 0 ∧ OnlyIn [.refs, .regs, .phc] s.node m)))

/-! Local audio. -/

/-- R257 to R263: the states of an AES3 receiver, its frames, slips and blocks, the read of a capture, and the channel
status that a transmitter's block carries; R234, R235 and R237: reference slots that name the receiver follow its lock and
grade. The model's own choice in it: notes/assumptions/2.md. -/
def Obligations.AesPorts : Prop :=
  ∀ (s : State) (k : Fin 16), s.node.alive = true →
    let page := aesPage k
    let state := s.node.aesState k
    let x := s.node.aes k
    let held := fun (m : Node) => ∀ src ∈ s.node.inputSources ⟨1, k⟩, (s.node.shut ⟨1, 0, src.num⟩).present = true →
      (m.shut ⟨1, 0, src.num⟩).held = true ∧ (m.shut ⟨1, 0, src.num⟩).inHold = true
    let pages : List Page := [page, refPage, phcPage, dplPage 1, dplPage 2, dplPage 3]
    let moves := fun (q : Nat) (m : Node) => m.aesState k = q ∧ (m.reg page 0x010).getLsbD 0 = true ∧ RegsIn pages s.node m
    (2 ≤ state → state ≠ 4 → Answers (.aesRxSignalLoss k) s (fun m =>
      moves 1 m ∧ (m.aes k).opens = true ∧ OnlyIn [.regs, .loc] s.node m)) ∧
    (state = 4 → Answers (.aesRxSignalLoss k) s (fun m =>
      moves 1 m ∧ (m.input ⟨1, k⟩).event = true ∧ (m.input ⟨1, k⟩).down = true ∧
      (∀ j ∈ s.node.aesSlots k, (m.slot j).state = .noSignal ∨ (m.slot j).state = .disabled) ∧
      OnlyIn [.regs, .sht, .refs, .phc, .free] s.node m)) ∧
    (state = 1 → Answers (.aesRxPreamblesFound k) s (fun m =>
      moves 2 m ∧ held m ∧ OnlyIn [.regs, .sht, .loc] s.node m)) ∧
    (∀ (rate : Nat) (ratio : Word), 2 ≤ state → rate < 2800 ∨ 21600 < rate → state ≠ 4 →
      Answers (.aesRxRateMeasured k rate ratio) s (fun m => moves 1 m ∧ OnlyIn [.regs, .loc] s.node m)) ∧
    (∀ (rate : Nat) (ratio : Word), state = 4 → 2800 ≤ rate → rate ≤ 21600 → s.node.act page Fld.aesCfgRxSync = 0 →
      let d := Int.natAbs ((x.lockRatio.toNat : Int) - ratio.toNat)
      (d * 50 ≤ x.lockRatio.toNat → ratioJumps s.node k rate ratio = false → Answers (.aesRxRateMeasured k rate ratio) s (fun m =>
        m.aesState k = 4 ∧ m.reg page 0x048 = ratio ∧ (m.aes k).lockRatio = x.lockRatio ∧ RegsIn [page] s.node m ∧
        OnlyIn [.regs, .loc] s.node m)) ∧
      (x.lockRatio.toNat < d * 50 ∨ ratioJumps s.node k rate ratio = true → Answers (.aesRxRateMeasured k rate ratio) s (fun m =>
        moves 1 m ∧ m.reg page 0x048 = ratio ∧ (m.input ⟨1, k⟩).down = true ∧
        OnlyIn [.regs, .loc, .sht, .refs, .phc, .free] s.node m))) ∧
    (∀ (rate : Nat) (ratio : Word), state = 2 → 2800 ≤ rate → rate ≤ 21600 →
      (s.node.act page Fld.aesCfgRxSync = 0 → Answers (.aesRxRateMeasured k rate ratio) s (fun m =>
        moves 3 m ∧ m.reg page 0x048 = ratio ∧ (m.aes k).lockRatio = ratio ∧ OnlyIn [.regs, .loc] s.node m)) ∧
      (s.node.act page Fld.aesCfgRxSync ≠ 0 → ratio = 0x20000000 → Answers (.aesRxRateMeasured k rate ratio) s (fun m =>
        m.aesState k = 2 ∧ m.flag page Fld.aesRxStatModeErr = true ∧ RegsIn [page] s.node m ∧
        OnlyIn [.regs, .loc] s.node m))) ∧
    (state = 3 → Answers (.aesRxSettled k) s (fun m =>
      moves 4 m ∧ (m.aes k).opens = true ∧ (m.input ⟨1, k⟩).down = false ∧
      (s.node.refs.slots.length = 16 → ∀ j ∈ s.node.aesSlots k, (s.node.slot j).state = .noSignal → (m.slot j).state = .validating) ∧
      OnlyIn [.regs, .loc, .sht, .refs] s.node m)) ∧
    (∀ a b : Subframe, state ≠ 0 → s.node.flag page Fld.aesCfgVMute = false → Answers (.aesRxFrame k a b) s (fun m =>
      (m.aes k).lastA = (if a.parityError then x.lastA else (a.audio.setWidth 32 <<< 8 : Word)) ∧
      (m.aes k).lastB = (if b.parityError then x.lastB else (b.audio.setWidth 32 <<< 8 : Word)) ∧
      (a.parityError = true → b.parityError = false →
        m.fld page Fld.aesRxErrParity = Nat.min (s.node.fld page Fld.aesRxErrParity + 1) 255) ∧
      m.flag page Fld.aesRxStatVA = a.v ∧ m.flag page Fld.aesRxStatVB = b.v ∧
      (a.v = true → m.fld page Fld.aesRxVcntVA = Nat.min (s.node.fld page Fld.aesRxVcntVA + 1) 65535) ∧
      RegsIn [page] s.node m ∧ OnlyIn [.regs, .loc] s.node m)) ∧
    (∀ a b : Subframe, state ≠ 0 → s.node.flag page Fld.aesCfgVMute = true → a.v = true → b.v = false → 7 ≤ x.vRunA →
      x.vHeldA = false → s.node.inputBundle ⟨1, k⟩ ≠ 0 → Answers (.aesRxFrame k a b) s (fun m =>
        (m.aes k).vHeldA = true ∧ (m.input ⟨1, k⟩).down = true ∧ OnlyIn [.regs, .loc, .sht] s.node m)) ∧
    (∀ full, state = 4 → s.node.act page Fld.aesCfgRxSync ≠ 0 → Answers (.aesRxSlip k full) s (fun m =>
      let centre := 4 + Nat.min s.node.s (s.node.samplesBegun s.node.clk.now - 1)
      m.fld page Fld.aesRxErrSlips = Nat.min (s.node.fld page Fld.aesRxErrSlips + 1) 255 ∧
      (m.aes k).block = (if full then x.block.drop (Nat.max 1 (x.block.length - centre))
        else x.block ++ List.replicate (Nat.max 1 (centre - x.block.length)) (x.lastA, x.lastB)) ∧
      (m.input ⟨1, k⟩).event = true ∧ (m.reg page 0x010).getLsbD 3 = true ∧ RegsIn [page] s.node m ∧
      OnlyIn [.regs, .loc, .sht] s.node m)) ∧
    (state ≠ 0 → Answers (.aesRxBlockEnd k .badSync) s (fun m =>
      m.fld page Fld.aesRxErrBlksync = Nat.min (s.node.fld page Fld.aesRxErrBlksync + 1) 255 ∧
      (m.reg page 0x010).getLsbD 2 = true ∧ RegsIn [page] s.node m ∧ OnlyIn [.regs] s.node m)) ∧
    (∀ csA csB ua ub ok, state ≠ 0 →
      ((csA.getD 0 0).getLsbD 0 = true → ok = false → Answers (.aesRxBlockEnd k (.complete csA csB ua ub ok)) s (fun m =>
        m.fld page Fld.aesRxErrCrcc = Nat.min (s.node.fld page Fld.aesRxErrCrcc + 1) 255 ∧
        (m.reg page 0x010).getLsbD 2 = true ∧ RegsIn [page] s.node m ∧ OnlyIn [.regs] s.node m)) ∧
      ((csA.getD 0 0).getLsbD 0 = false ∨ ok = true → Answers (.aesRxBlockEnd k (.complete csA csB ua ub ok)) s (fun m =>
        m.aes k = { x with capture := [csA, csB, ua, ub] } ∧ m.flag page Fld.aesRxStatPro = (csA.getD 0 0).getLsbD 0 ∧
        m.flag page Fld.aesRxStatFresh = true ∧ (m.reg page 0x010).getLsbD 1 = true ∧
        (∀ j ∈ s.node.aesSlots k, ((csA.getD 0 0).getLsbD 0 = false → (m.slot j).received = none) ∧
          ((csA.getD 0 0).getLsbD 0 = true → (csA.getD 4 0).toNat % 4 = 1 → s.node.refs.slots.length = 16 →
            (m.slot j).received = some (BitVec.ofNat 16 (s.node.fld refPage Fld.refQlmapG1)))) ∧
        RegsIn pages s.node m ∧ OnlyIn [.regs, .loc, .refs, .phc, .free] s.node m))) ∧
    (∀ src : Src, Reachable s page → (s.node.hdr page).frozen = none → Answers (.aesCapRead src k) s (fun m =>
      m.rsp = ⟨true, s.node.aesCapWord k 0⟩ ∧
      m.aes k = { x with capLatch := (List.range 5).map (fun j => s.node.aesCapWord k (j + 1)) } ∧
      OnlyIn [.loc, .rsp] s.node m)) ∧
    (s.node.flag page Fld.aesTxStatRunning = true → x.txStops = false → Answers (.aesTxBlockStart k) s (fun m =>
      m.aes k = { x with txCs := s.node.aesSent k } ∧ m.flag page Fld.aesTxStatCsPending = false ∧
      RegsBut [regKey page 0x0A0 0] s.node m ∧ OnlyIn [.regs, .loc] s.node m)) ∧
    (s.node.flag page Fld.aesTxStatRunning = true → x.txStops = true → Answers (.aesTxBlockStart k) s (fun m =>
      m.aes k = { x with txStops := false } ∧ m.flag page Fld.aesTxStatRunning = false ∧
      RegsBut [regKey page 0x0A0 0] s.node m ∧ OnlyIn [.regs, .loc] s.node m)) ∧
    (s.node.flag page Fld.aesTxStatRunning = false → Answers (.aesTxBlockStart k) s (fun m => OnlyIn [] s.node m))

/-- R265 to R269, R272, R273: framing errors and slips of a TDM port, its committed masks and the fades of its slots,
inputs that are stuck, and the two steps of a decimator's change. The model's own choice in it:
notes/assumptions/2.md. -/
def Obligations.TdmAndDecimators : Prop :=
  ∀ (s : State), s.node.alive = true →
    (∀ p : Fin 8, (s.node.hdr (tdmPage p)).active = true →
      let page := tdmPage p
      let x := s.node.tdm p
      let rx : Word := BitVec.ofNat 32 (s.node.act page Fld.tdmRxmaskSlot)
      let tx : Word := BitVec.ofNat 32 (s.node.act page Fld.tdmTxmaskSlot)
      Answers (.tdmFramingError p) s (fun m =>
        m.fld page Fld.tdmErrFraming = Nat.min (s.node.fld page Fld.tdmErrFraming + 1) 255 ∧
        m.flag page Fld.tdmStatClocked = false ∧ (m.reg page 0x010).getLsbD 1 = true ∧ m.tdm p = { x with framing := true } ∧
        (m.input ⟨2, p⟩).event = true ∧ RegsIn [page] s.node m ∧ OnlyIn [.regs, .loc, .sht] s.node m) ∧
      (∀ full, s.node.act page Fld.tdmCfgMaster = 0 → Answers (.tdmSlip p full) s (fun m =>
        m.fld page Fld.tdmErrSlips = Nat.min (s.node.fld page Fld.tdmErrSlips + 1) 255 ∧ m.fld page Fld.tdmStatFifo = 2 ∧
        (m.reg page 0x010).getLsbD 2 = true ∧ (m.input ⟨2, p⟩).event = true ∧ RegsIn [page] s.node m ∧
        OnlyIn [.regs, .sht] s.node m)) ∧
      (∀ frame, x.waiting = true → x.fades = [] →
        (s.node.flag page Fld.tdmMaskctlGraceful = false → Answers (.tdmMaskApply p frame) s (fun m =>
          m.tdmAct p false = rx ∧ m.tdmAct p true = tx ∧ (m.tdm p).waiting = false ∧
          (∀ f ∈ (m.tdm p).fades, f.up = true ∧ f.start = frame ∧ f.len = 32) ∧
          RegsIn [page] s.node m ∧ OnlyIn [.regs, .loc] s.node m)) ∧
        (s.node.flag page Fld.tdmMaskctlGraceful = true → Answers (.tdmMaskApply p frame) s (fun m =>
          m.tdmAct p false = rx ||| s.node.tdmAct p false ∧ m.tdmAct p true = tx ||| s.node.tdmAct p true ∧
          (m.tdm p).waiting = false ∧
          (∀ f ∈ (m.tdm p).fades, f.up = (if f.output then tx else rx).getLsbD f.slot ∧ f.start = frame ∧ f.len = 32) ∧
          RegsIn [page] s.node m ∧ OnlyIn [.regs, .loc] s.node m)))) ∧
    (∀ (p : Fin 8) (output : Bool) (slot : Fin 32) (f : SlotFade),
      (s.node.tdm p).fades.find? (fun x => decide (x.output = output ∧ x.slot = slot.val)) = some f →
      Answers (.tdmSlotFadeEnd p output slot) s (fun m =>
        (m.tdm p).fades = (s.node.tdm p).fades.filter (fun x => !decide (x.output = output ∧ x.slot = slot.val)) ∧
        m.tdmAct p output = (if f.up then s.node.tdmAct p output
          else s.node.tdmAct p output &&& ~~~(1#32 <<< slot.val)) ∧
        m.tdmAct p (!output) = s.node.tdmAct p (!output) ∧ RegsIn [tdmPage p] s.node m ∧ OnlyIn [.regs, .loc] s.node m)) ∧
    (∀ i : Fin 64,
      (s.node.boot.drvPresent = true → Answers (.sdinStuck i) s (fun m =>
        m.pinStuck i = true ∧ m.fld sdiPage Fld.sdiEventsStuck = Nat.min (s.node.fld sdiPage Fld.sdiEventsStuck + 1) 65535 ∧
        (m.reg sdiPage 0x010).getLsbD 0 = true ∧
        (∀ k ∈ s.node.pinReaders i, s.node.flag decPage Fld.decStatSettling k = false → (m.input ⟨3, k⟩).down = true) ∧
        RegsIn [sdiPage] s.node m ∧ OnlyIn [.regs, .sht] s.node m)) ∧
      (s.node.pinStuck i = true → Answers (.sdinStuckClear i) s (fun m =>
        m.pinStuck i = false ∧ (∀ k ∈ s.node.pinReaders i, (m.input ⟨3, k⟩).down = false) ∧
        RegsIn [sdiPage] s.node m ∧ OnlyIn [.regs, .sht] s.node m))) ∧
    (∀ k : Fin 64,
      ((s.node.dec k).changing = true → (s.node.dec k).ran ≤ 32 → 32 < (s.node.dec k).ran + s.node.s →
        Answers (.decBankSwap k) s (fun m =>
        m.fld decPage Fld.decStatBank k = 1 - s.node.fld decPage Fld.decStatBank k ∧
        m.fld decPage Fld.decStatPin k = s.node.act decPage Fld.decCfgPin k ∧
        m.fld decPage Fld.decStatPreset k = s.node.act decPage Fld.decCfgPreset k ∧
        m.flag decPage Fld.decStatFading k = false ∧ m.flag decPage Fld.decStatSettling k = true ∧
        m.dec k = { ran := (s.node.dec k).ran, late := 32 - (s.node.dec k).ran } ∧ (m.reg decPage 0x010).getLsbD 1 = true ∧
        RegsIn [decPage] s.node m ∧ OnlyIn [.regs, .loc, .sht] s.node m)) ∧
      (s.node.flag decPage Fld.decStatSettling k = true → s.node.fld decPage Fld.decStatSettleLeft k ≤ s.node.s →
        Answers (.decSettleEnd k) s (fun m =>
        m.flag decPage Fld.decStatSettling k = false ∧ m.fld decPage Fld.decStatSettleLeft k = 0 ∧
        m.dec k = { s.node.dec k with opens := true } ∧ (m.reg decPage 0x010).getLsbD 0 = true ∧
        (s.node.pinStuck (s.node.fld decPage Fld.decStatPin k) = true → (m.input ⟨3, k⟩).down = true) ∧
        RegsIn [decPage] s.node m ∧ OnlyIn [.regs, .loc, .sht] s.node m)))

/-! Drive outputs. -/

/-- R284, R288 to R296, R299, R277: each event of a drive channel changes the channel's state as R288 gives, its pins and
its sink Shutter, and no other channel. The model's own choices in it: notes/assumptions/2.md,
notes/assumptions/107.md, notes/assumptions/108.md and notes/assumptions/109.md. -/
def Obligations.DriveChannels : Prop :=
  ∀ (s : State) (c : Chan), s.node.alive = true →
    let i : Nat := c.val
    let page := modPage (i / 8)
    let st := s.node.chState i
    let d := s.node.drv i
    let chstat := regKey page (0x050 + 0x20 * (i % 8)) 0
    let event := regKey page 0x010 0
    let enters := fun (code : Nat) (m : Node) => m.chState i = code ∧ (m.reg page 0x010).getLsbD (i % 8) = true
    let others := fun (m : Node) => ∀ j < 192, j ≠ i → m.drv j = s.node.drv j
    let atZero := fun (m : Node) => (m.drv i).pins = .zero ∧ (m.drv i).loop = false ∧ (m.drv i).marks = false ∧
      m.chFld i Fld.modChstatFollowed = 0 ∧ m.chFld i Fld.modChstatBusy = 0 ∧
      ((s.node.shut (drvSink i)).present = true →
        (m.shut (drvSink i)).held = true ∧ (m.shut (drvSink i)).gain = 0 ∧ (m.shut (drvSink i)).ramp = none)
    let trips := fun (ins : Instr) (cause code : Nat) =>
      st = 3 ∨ st = 4 ∨ st = 8 ∨ (st = 2 ∧ s.node.chFld i Fld.modChstatFollowed = 1) →
        let severe := decide (3 ≤ s.node.tripsRecent i)
        Answers ins s (fun m =>
          enters (if severe then 6 else 5) m ∧ atZero m ∧ others m ∧ m.chFld i Fld.modChstatTripCause = cause ∧
          m.chFld i Fld.modChstatIdOk = 0 ∧ (m.drv i).cooling = true ∧ (m.drv i).coolAt = s.node.clk.now ∧ (m.drv i).alone = true ∧
          (m.drv i).toStandby = decide (st = 8) ∧
          (m.drv i).trips = (s.node.clk.now :: d.trips).take 16 ∧
          m.fld page (Fld.modTripsTotal (i % 8)) = Nat.min (s.node.fld page (Fld.modTripsTotal (i % 8)) + 1) 65535 ∧
          (s.node.tripRecorded i = true → m.fld page Fld.pgFltcapMore = 1) ∧
          (severe = false → s.node.tripRecorded i = false → Raised page code s.node m) ∧
          (severe = false → s.node.tripRecorded i = true → m.flt = s.node.flt) ∧
          (severe = true → s.node.tripRecorded i = true → Raised page 3 s.node m) ∧
          (severe = true → s.node.tripRecorded i = false → m.flt.nextSeq = (s.node.flt.nextSeq + 2) % 4294967296) ∧
          RegsIn [page, fltPage] s.node m ∧ OnlyIn [.regs, .flt, .drive, .sht] s.node m)
    (st = 2 → Answers (.senseFollowed c) s (fun m =>
      m.chFld i Fld.modChstatFollowed = 1 ∧ m.chState i = 2 ∧ RegsBut [chstat] s.node m ∧ OnlyIn [.regs] s.node m)) ∧
    (st = 2 → s.node.chFld i Fld.modChstatFollowed = 1 → Answers (.channelRun c) s (fun m =>
      enters 3 m ∧ m.drv i = { d with
        pins := .mod
        loop := decide (s.node.fld page (Fld.modLoopBw (i % 8)) ≠ 0) } ∧
      ((s.node.shut (drvSink i)).present = true → (m.shut (drvSink i)).held = false) ∧ others m ∧
      RegsBut [chstat, event] s.node m ∧ OnlyIn [.regs, .drive, .sht] s.node m)) ∧
    (st = 2 → s.node.chFld i Fld.modChstatFollowed = 0 → s.node.chActive i = false → Answers (.followTimeout c) s (fun m =>
      enters 0 m ∧ (m.drv i).pins = .highZ ∧ m.chFld i Fld.modChstatFollowTmo = 1 ∧ m.flt = s.node.flt ∧ others m ∧
      RegsBut [chstat, event] s.node m ∧ OnlyIn [.regs, .drive, .sht] s.node m)) ∧
    (st = 2 → s.node.chFld i Fld.modChstatFollowed = 0 → s.node.chActive i = true → Answers (.followTimeout c) s (fun m =>
      enters 1 m ∧ atZero m ∧ (m.drv i).retry = true ∧ m.chFld i Fld.modChstatFollowTmo = 1 ∧ m.flt = s.node.flt ∧ others m ∧
      RegsBut [chstat, event] s.node m ∧ OnlyIn [.regs, .drive, .sht] s.node m)) ∧
    (Answers (.releaseRetryExpiry c) s (fun m =>
      m.drv i = { d with retry := false } ∧ others m ∧ OnlyIn [.drive] s.node m)) ∧
    (st = 4 → d.stop = .ending → Answers (.stopComplete c) s (fun m =>
      enters (if s.node.chActive i then 1 else 0) m ∧ (m.drv i).pins = (if s.node.chActive i then .zero else .highZ) ∧
      (m.drv i).stop = .none ∧ (m.drv i).loop = false ∧ (m.drv i).marks = false ∧ m.chFld i Fld.modChstatBusy = 0 ∧
      m.chFld i Fld.modChstatPending = 0 ∧ others m ∧ RegsBut [chstat, event] s.node m ∧
      OnlyIn [.regs, .drive, .sht] s.node m)) ∧
    (∀ coarse : Nat,
      (s.node.chFld i Fld.modProtIlim < coarse → trips (.channelTrip c (.overcurrent coarse)) 1 1) ∧
      (coarse ≤ s.node.chFld i Fld.modProtIlim → Answers (.channelTrip c (.overcurrent coarse)) s (fun m => OnlyIn [] s.node m))) ∧
    trips (.channelTrip c .staticHigh) 2 2 ∧ trips (.channelTrip c .staticLow) 3 2 ∧ trips (.senseLost c) 4 2 ∧
    (st = 0 ∨ st = 1 ∨ (st = 2 ∧ s.node.chFld i Fld.modChstatFollowed = 0) ∨ st = 5 ∨ st = 6 ∨ st = 7 ∨ st = 9 →
      (∀ cause, Answers (.channelTrip c cause) s (fun m => OnlyIn [] s.node m)) ∧
      Answers (.senseLost c) s (fun m => OnlyIn [] s.node m)) ∧
    (st = 5 → Answers (.coolDownEnd c) s (fun m =>
      (m.drv i).cooling = false ∧ (s.node.chActive i = false → enters 0 m ∧ (m.drv i).pins = .highZ) ∧
      (s.node.chActive i = true → d.toStandby = true → enters 7 m) ∧
      (s.node.chActive i = true → d.toStandby = false →
        enters (if s.node.chHinged i = true ∧ s.node.dutyLeases.getLsbD (s.node.chGroup i) = false then 7 else 1) m) ∧
      others m ∧ RegsBut [chstat, event] s.node m ∧ OnlyIn [.regs, .drive] s.node m)) ∧
    (st = 8 → s.node.chActive i = true → Answers (.fencingComplete c) s (fun m =>
      enters 7 m ∧ atZero m ∧ others m ∧ RegsBut [chstat, event] s.node m ∧ OnlyIn [.regs, .drive, .sht] s.node m)) ∧
    (d.carrierWaits = true → st ≠ 2 → ∀ lo hi p : Nat,
      (lo, hi) = (if s.node.chAct i Fld.modCarrierCmode = 1 then (894, 2621) else (656, 873)) →
      p = Nat.max lo (Nat.min hi (s.node.chAct i Fld.modCarrierPeriod)) → Answers (.carrierApply c) s (fun m =>
        m.drv i = { d with
          cmode := decide (s.node.chAct i Fld.modCarrierCmode = 1)
          period := p
          phase := Nat.min (s.node.chAct i Fld.modCarrierPhase) (p - 1)
          carrierWaits := false } ∧
        m.fld page (Fld.modClipPclamp (i % 8)) = (if p = s.node.chAct i Fld.modCarrierPeriod
          then s.node.fld page (Fld.modClipPclamp (i % 8)) else Nat.min (s.node.fld page (Fld.modClipPclamp (i % 8)) + 1) 65535) ∧
        others m ∧ RegsBut [regKey page (0x058 + 0x20 * (i % 8)) 0] s.node m ∧ OnlyIn [.regs, .drive] s.node m)) ∧
    (st = 3 → 8 ≤ s.node.drive.missing → Answers .driveBlockMissingStop s (fun m =>
      enters 4 m ∧ m.chFld i Fld.modChstatBusy = 1 ∧ m.drv i = { d with
        stop := .ending
        loop := false
        periods := 0
        pins := .half } ∧ (∀ j < 192, s.node.chState j ≠ 3 → m.drv j = s.node.drv j) ∧
      RegsIn ((List.range 24).map modPage) s.node m ∧ OnlyIn [.regs, .drive] s.node m)) ∧
    (st = 1 ∨ st = 5 ∨ st = 6 ∨ st = 7 ∨ st = 9 → Answers (.noStageTimeout c) s (fun m =>
      m.chFld i Fld.modChstatIdOk = 0 ∧ m.fld snsPage Fld.snsIdstatResult i = 6 ∧ others m ∧
      RegsBut [chstat, regKey snsPage 0x044 i, regKey snsPage 0x010 0] s.node m ∧ OnlyIn [.regs, .drive] s.node m)) ∧
    (∀ (frame : List Byte) (period : Nat), st = 1 ∨ st = 5 ∨ st = 6 ∨ st = 7 ∨ st = 9 →
      let r := identityResult i frame
      let ids := chstat :: regKey snsPage 0x010 0 :: (List.range 9).map (fun k => regKey snsPage (0x044 + 4 * k) i)
      (2 ≤ r → r ≤ 5 → Answers (.identityFrameReceived c frame period) s (fun m =>
        m.chFld i Fld.modChstatIdOk = 0 ∧ m.fld snsPage Fld.snsIdstatResult i = r ∧ (m.drv i).frame = [] ∧
        m.fld snsPage Fld.snsIdstatBad i = Nat.min (s.node.fld snsPage Fld.snsIdstatBad i + 1) 255 ∧ others m ∧
        RegsBut ids s.node m ∧ OnlyIn [.regs, .drive] s.node m)) ∧
      (r = 1 ∨ r = 7 → Answers (.identityFrameReceived c frame period) s (fun m =>
        m.fld snsPage Fld.snsIdstatFrames i = Nat.min (s.node.fld snsPage Fld.snsIdstatFrames i + 1) 65535 ∧
        m.fld snsPage Fld.snsIdstatVersion i = (frame.getD 2 0).toNat ∧ (m.drv i).frame = frame ∧
        (m.drv i).notFree = decide (r = 7) ∧
        (d.frame = frame → m.chFld i Fld.modChstatIdOk = 1 ∧ m.fld snsPage Fld.snsIdstatResult i = r ∧
          (m.drv i).dualInput = decide ((frame.getD 9 0).toNat / 2 % 2 = 1)) ∧
        (d.frame ≠ frame → m.chFld i Fld.modChstatIdOk = s.node.chFld i Fld.modChstatIdOk) ∧ others m ∧
        RegsBut ids s.node m ∧ OnlyIn [.regs, .drive] s.node m))) ∧
    (∀ (frame : List Byte) (period : Nat), st = 2 → s.node.chFld i Fld.modChstatFollowed = 0 → s.node.chActive i = true → 16 < period →
      identityResult i frame = 7 → Answers (.identityFrameReceived c frame period) s (fun m =>
        enters 1 m ∧ atZero m ∧ (m.drv i).retry = true ∧ m.chFld i Fld.modChstatNotFollowed = 1 ∧ m.flt = s.node.flt ∧
        others m ∧ RegsIn [page, snsPage] s.node m ∧ OnlyIn [.regs, .drive, .sht] s.node m)) ∧
    (∀ src : Src, Reachable s page → src.port ∉ (s.node.hdr page).keyArmed →
      let keys := [chstat, regKey page (0x040 + 0x20 * (i % 8)) 0]
      (d.stop = .none → Answers (.channelEnable src c) s (fun m =>
        m.rsp.ok = true ∧ m.chEnabled i = true ∧ RegsBut keys s.node m ∧ OnlyIn [.regs, .rsp] s.node m)) ∧
      (d.stop = .fading → d.toOff = false → Answers (.channelEnable src c) s (fun m =>
        m.rsp.ok = true ∧ m.chEnabled i = true ∧ (m.drv i).stop = .none ∧ m.chFld i Fld.modChstatBusy = 0 ∧
        m.chState i = (if d.fromRun then 3 else 2) ∧ others m ∧
        ((s.node.shut (drvSink i)).present = true → (m.shut (drvSink i)).forced = false ∧
          (d.fromRun = false → (m.shut (drvSink i)).held = true ∧ (m.shut (drvSink i)).gain = 0)) ∧
        RegsBut (event :: regKey shtPage 0x06C 0 :: keys) s.node m ∧ OnlyIn [.regs, .rsp, .drive, .sht] s.node m)) ∧
      (d.stop = .asked → Answers (.channelEnable src c) s (fun m =>
        m.rsp.ok = true ∧ m.chEnabled i = true ∧ (m.drv i).stop = (if d.toOff then .asked else .none) ∧ m.chState i = st ∧ others m ∧
        RegsBut keys s.node m ∧ OnlyIn [.regs, .rsp, .drive] s.node m)) ∧
      (d.stop = .ending ∨ (d.stop = .fading ∧ d.toOff = true) → Answers (.channelEnable src c) s (fun m =>
        m.rsp.ok = true ∧ m.chEnabled i = true ∧ m.chFld i Fld.modChstatPending = 1 ∧ m.chState i = st ∧
        RegsBut keys s.node m ∧ OnlyIn [.regs, .rsp] s.node m)) ∧
      (Answers (.channelDisable src c) s (fun m =>
        m.rsp.ok = true ∧ m.chEnabled i = false ∧ m.chFld i Fld.modChstatPending = 0 ∧ m.chState i = st ∧
        (m.drv i).stop = (if (st = 2 ∨ st = 3) ∧ d.stop = .none then .asked else d.stop) ∧ others m ∧
        RegsBut keys s.node m ∧ OnlyIn [.regs, .rsp, .drive] s.node m)) ∧
      (Answers (.channelClear src c) s (fun m =>
        m.rsp.ok = true ∧ (m.drv i).trips = [] ∧ (st ≠ 6 → m.chState i = st) ∧
        (st = 6 → enters (if s.node.chActive i = false then 0 else
          if s.node.chHinged i = true ∧ s.node.dutyLeases.getLsbD (s.node.chGroup i) = false then 7 else 1) m) ∧ others m ∧
        RegsBut (event :: keys) s.node m ∧ OnlyIn [.regs, .rsp, .drive] s.node m))) ∧
    (∀ g : Fin 64, Sparse.get (fun _ => 0) s.node.drive.firstMet g.val ≠ 0 → i ∈ s.node.groupChans g.val →
      s.node.chEnabled i = true → s.node.mayRelease i = false → st = 1 ∨ st = 7 → Answers (.lateMemberTimeout g) s (fun m =>
        m.chFld i Fld.modChstatLateMember = 1 ∧ m.drv i = { d with alone := true } ∧ m.chState i = st ∧
        (∀ j, j ∉ s.node.groupChans g.val → m.drv j = s.node.drv j) ∧ RegsIn ((List.range 24).map modPage) s.node m ∧
        OnlyIn [.regs, .drive] s.node m)) ∧
    (∀ src : Src, Reachable s snsPage → (s.node.hdr snsPage).frozen = none → s.node.fld snsPage Fld.snsSelChannel = i →
      Answers (.snsIdstatRead src) s (fun m =>
        m.rsp = ⟨true, s.node.reg snsPage 0x044 i⟩ ∧ m.fld snsPage Fld.snsIdstatResult i = s.node.fld snsPage Fld.snsIdstatResult i ∧
        m.fld snsPage Fld.snsIdstatFrames i = 0 ∧ m.fld snsPage Fld.snsIdstatBad i = 0 ∧
        RegsBut [regKey snsPage 0x044 i] s.node m ∧ OnlyIn [.regs, .rsp] s.node m))

/-! The CARRIER and FAULT services. -/

/-- R279, R280, R331: the commands of the CARRIER service, of which each answers NOT_PRESENT without a drive die, the end
of a plan, and the commands of the FAULT service. The model's own choices in it: notes/assumptions/38.md,
notes/assumptions/113.md, notes/assumptions/117.md and notes/assumptions/118.md. -/
def Obligations.CarrierAndFaultServices : Prop :=
  ∀ (s : State) (slot : Fin 4), s.node.alive = true → s.node.mgmt.running = true →
    let dr := s.node.drive
    let f := s.node.flt
    let num : Nat := f.nextJob
    let answers := fun (i : Instr) (code : Nat) (detail : Option Nat) (data : List Word) =>
      Answers i s (fun m => Answered slot code detail data s.node m ∧ OnlyIn answerParts s.node m)
    let distance := fun (i : Instr) (c p : Nat) =>
      (∀ t, s.node.carrierDistance [] c p = some t →
        answers i 0 none [BitVec.ofNat 32 p, BitVec.ofNat 32 (t.num / t.den),
          BitVec.ofNat 32 (t.freq + t.kind * 256 + t.other * 65536)]) ∧
      (s.node.carrierDistance [] c p = none → Answers i s (fun m =>
        (∃ d w, Answered slot 0 none [BitVec.ofNat 32 p, d, w] s.node m) ∧ OnlyIn answerParts s.node m))
    (s.node.slotBusy slot = true → s.node.lengthBad slot = false →
      (s.node.boot.drvPresent = false → ∀ (word : Word) (freqs : List Word) (k : Nat),
        answers (.carrierProtect slot word freqs) 11 none [] ∧ answers (.carrierPlan slot word) 11 none [] ∧
        answers (.carrierStatus slot k) 11 none [] ∧ answers (.carrierReport slot k) 11 none [] ∧
        answers (.carrierCheck slot word) 11 none []) ∧
      (s.node.boot.drvPresent = true →
        (∀ (word : Word) (freqs : List Word), freqs.length = word.toNat % 64 →
          let fs := freqs.map (fun w => w.toNat % 2 ^ 24)
          (freqs.length ≤ 32 → (∀ v ∈ fs, 100000 ≤ v ∧ v ≤ 16000000) → Answers (.carrierProtect slot word freqs) s (fun m =>
            m.drive = { dr with protectedFreqs := fs } ∧ Answered slot 0 none [] s.node m ∧
            OnlyIn (.drive :: answerParts) s.node m)) ∧
          (32 < freqs.length ∨ (∃ v ∈ fs, v < 100000 ∨ 16000000 < v) → answers (.carrierProtect slot word freqs) 6 none [])) ∧
        (∀ word : Word,
          let first := word.toNat % 256
          let count := word.toNat / 256 % 256
          (192 < first + count → answers (.carrierPlan slot word) 6 none []) ∧
          (first + count ≤ 192 → (∃ j ∈ dr.jobs, j.state = 1) → answers (.carrierPlan slot word) 2 none []) ∧
          (first + count ≤ 192 → (∀ j ∈ dr.jobs, j.state ≠ 1) → Answers (.carrierPlan slot word) s (fun m =>
            m.drive.jobs.find? (fun j => decide (j.num = dr.nextJob)) =
              some { num := dr.nextJob, first := first, count := count, state := 1 } ∧
            m.drive.ch = dr.ch ∧ m.drive.protectedFreqs = dr.protectedFreqs ∧
            Answered slot 1 (some dr.nextJob) [] s.node m ∧ OnlyIn (.drive :: answerParts) s.node m))) ∧
        (∀ k : Nat,
          (dr.jobs.find? (fun j => decide (j.num = k)) = none → answers (.carrierStatus slot k) 6 none []) ∧
          (∀ j, dr.jobs.find? (fun j => decide (j.num = k)) = some j →
            (j.state ≠ 1 → answers (.carrierStatus slot k) 0 (some j.state) [BitVec.ofNat 32 j.smallest, BitVec.ofNat 32 j.short]) ∧
            (j.state = 1 → Answers (.carrierStatus slot k) s (fun m =>
              (∃ d w, Answered slot 0 (some 1) [d, w] s.node m) ∧ OnlyIn answerParts s.node m)))) ∧
        (∀ c : Nat, (192 ≤ c → answers (.carrierReport slot c) 6 none []) ∧
          (c < 192 → distance (.carrierReport slot c) c (s.node.drv c).period)) ∧
        (∀ word : Word, (192 ≤ word.toNat % 256 → answers (.carrierCheck slot word) 6 none []) ∧
          (∀ c p : Nat, c = word.toNat % 256 → c < 192 → p = word.toNat / 65536 % 4096 →
            (if s.node.chFld c Fld.modCarrierCmode = 1 then 894 ≤ p ∧ p ≤ 2621 else 656 ≤ p ∧ p ≤ 873) →
            distance (.carrierCheck slot word) c p))) ∧
      (∀ first : Word,
        let rs := (f.ring.filter (fun r => decide (seqDist first.toNat r.seq < 2147483648))).take 7
        answers (.faultRead slot first) 0 (some rs.length) (rs.flatMap (fun r => (List.range 8).map (recordWord r)))) ∧
      (∀ first last : Word,
        let inRange := fun (r : Record) => decide (seqDist first.toNat r.seq ≤ seqDist first.toNat last.toNat)
        Answers (.faultAck slot first last) s (fun m =>
          m.flt = { f with ring := f.ring.map (fun r => if inRange r then { r with ack := true } else r) } ∧
          m.slotBusy slot = false ∧ (m.reg mgtPage (responseOff slot + 4)).toNat % 256 = 0 ∧
          (m.reg mgtPage (responseOff slot + 4)).toNat / 256 = (f.ring.filter (fun r => inRange r && !r.ack)).length % 2 ^ 24 ∧
          RegsIn (mgtPage :: (List.range 24).map modPage) s.node m ∧ OnlyIn (.flt :: answerParts) s.node m)) ∧
      (∀ word : Word,
        let page := regionPage (word.toNat / 2 ^ 28) (word.toNat / 2 ^ 20 % 256)
        let unit := word.toNat % 256
        (page = none → answers (.faultTest slot word) 6 none []) ∧
        (∀ p, page = some p → hasTest p.block = false ∨ testUnits p.block ≤ unit → answers (.faultTest slot word) 6 none []) ∧
        (∀ p, page = some p → hasTest p.block = true → unit < testUnits p.block →
          (s.node.pagePresent p = false → answers (.faultTest slot word) 11 none []) ∧
          (s.node.pagePresent p = true → Answers (.faultTest slot word) s (fun m =>
            m.flt.jobs = { job := num, region := pageRegion p, page := pageIndex p, unit := unit,
                           result := if s.node.unitRetired p unit = true then 4 else 1 } ::
              f.jobs.filter (fun x => decide (x.job ≠ num)) ∧
            m.flt.ring = f.ring ∧ m.flt.queue = f.queue ∧ m.flt.nextSeq = f.nextSeq ∧
            Answered slot 1 (some num) [] s.node m ∧ OnlyIn (.flt :: .dies :: .reeds :: .macs :: answerParts) s.node m)))) ∧
      (∀ k : Nat,
        (f.jobs.find? (fun j => decide (j.job = k)) = none → answers (.faultStatus slot k) 6 none []) ∧
        (∀ j, f.jobs.find? (fun j => decide (j.job = k)) = some j → answers (.faultStatus slot k) 0 (some j.result) []))) ∧
    (∀ (k : Nat) (j : PlanJob), dr.jobs.find? (fun j => decide (j.num = k ∧ j.state = 1)) = some j → s.node.running = true →
      let planned := fun (c : Nat) => j.first ≤ c ∧ c < j.first + j.count ∧ c < 192 ∧ s.node.chFld c Fld.modCarrierCmode = 1
      (∀ c, planned c → (s.node.hdr (modPage (c / 8))).resetting = false ∧ s.node.fld (modPage (c / 8)) Fld.pgCtrlCommitMode ≠ 2) →
      Answers (.carrierPlanDone k) s (fun m =>
        (∃ done : PlanJob, done ∈ m.drive.jobs ∧ done.num = k ∧ done.first = j.first ∧ done.count = j.count ∧
          done.state = (if (s.node.planPeriods (s.node.planGroups j.first j.count)).2 then 2 else 3)) ∧
        (∀ c, planned c → 894 ≤ m.chFld c Fld.modCarrierPeriod ∧ m.chFld c Fld.modCarrierPeriod ≤ 2621 ∧
          (m.hdr (modPage (c / 8))).commitReq = true) ∧
        (∀ c c', planned c → planned c' → s.node.chGroup c = s.node.chGroup c' →
          m.chFld c Fld.modCarrierPeriod = m.chFld c' Fld.modCarrierPeriod) ∧
        (∀ c < 192, ¬planned c → m.chFld c Fld.modCarrierPeriod = s.node.chFld c Fld.modCarrierPeriod) ∧
        m.drive.ch = dr.ch ∧ RegsIn ((List.range 24).map modPage) s.node m ∧
        OnlyIn [.regs, .hdrs, .drive, .free] s.node m))

/-! DRAM. -/

/-- R301, R305 to R313: refresh and its postponement, activate counting and neighbour refreshes, errors, poison and
rereads, parity replay, the retiring of a rank with and without a spare, the end of a migration, and training. The
model's own choices in it: notes/assumptions/2.md, notes/assumptions/114.md, notes/assumptions/115.md,
notes/assumptions/116.md and notes/assumptions/206.md. -/
def Obligations.DramController : Prop :=
  ∀ (s : State) (r : Fin 4), s.node.alive = true →
    let rank : Nat := r.val
    let d := s.node.dram
    let st := s.node.rankState rank
    let key := fun (off : Nat) => regKey drmPage off 0
    let parts : List Part := .dram :: faultParts
    let spare := (List.range 4).find? (fun k => decide (s.node.rankState k = 2))
    let retired := fun (m : Node) =>
      (∀ sp, spare = some sp → d.migrating = none →
        m.rankState rank = 3 ∧ m.rankState sp = 7 ∧ m.dram.migrating = some (rank, sp) ∧
        m.flag drmPage Fld.drmMigMarkActive = true ∧ m.fld drmPage Fld.drmMigMarkW = 0 ∧ (m.reg drmPage 0x010).getLsbD 1 = true) ∧
      (spare = none ∨ d.migrating.isSome = true →
        m.rankState rank = 6 ∧ m.flag drmPage Fld.drmStatNoSpare = true ∧ m.dram.migrating = d.migrating)
    let counted := fun (f : Field) (cap : Nat) (m : Node) => m.fld drmPage f = Nat.min (s.node.fld drmPage f + 1) cap
    (∀ hot, Answers (.dramHotChange hot) s (fun m =>
      m.flag drmPage Fld.drmStatHot = hot ∧ RegsBut [key 0x07C] s.node m ∧ OnlyIn [.regs] s.node m)) ∧
    (Answers (.dramRefreshCycleEnd r) s (fun m =>
      (∀ k, Sparse.get (fun _ => []) m.dram.tables k = if k / 32 = rank then [] else Sparse.get (fun _ => []) d.tables k) ∧
      m.dram = { d with tables := m.dram.tables } ∧ OnlyIn [.dram] s.node m)) ∧
    (s.node.dramOn = true →
      (Answers (.dramRefreshDue r false) s (fun m => OnlyIn [] s.node m)) ∧
      (s.node.postponed rank < Nat.min 8 (s.node.fld drmPage Fld.drmRefreshPostponeMax) →
        Answers (.dramRefreshDue r true) s (fun m =>
          m.dram = { d with postponed := d.postponed.set rank (s.node.postponed rank + 1) } ∧
          m.fld drmPage Fld.drmRefstatPeak = Nat.max (s.node.fld drmPage Fld.drmRefstatPeak) (s.node.postponed rank + 1) ∧
          RegsBut [key 0x088] s.node m ∧ OnlyIn [.regs, .dram] s.node m)) ∧
      (Nat.min 8 (s.node.fld drmPage Fld.drmRefreshPostponeMax) ≤ s.node.postponed rank →
        Answers (.dramRefreshDue r true) s (fun m =>
          counted Fld.drmRefstatForced 255 m ∧ RegsBut [key 0x088] s.node m ∧ OnlyIn [.regs] s.node m)) ∧
      (Answers (.dramRefreshMakeup r) s (fun m =>
        m.dram = { d with postponed := d.postponed.set rank 0 } ∧
        m.fld drmPage Fld.drmRefstatMakeup = Nat.min (s.node.fld drmPage Fld.drmRefstatMakeup + s.node.postponed rank) 65535 ∧
        RegsBut [key 0x088] s.node m ∧ OnlyIn [.regs, .dram] s.node m)) ∧
      (∀ (b : Fin 32) (row : BitVec 16), s.node.dram16 = true ∨ b.val < 16 →
        let q := s.node.nrQueue (rank / 2)
        let held := q.any (fun e => decide (e.1 = rank ∧ e.2.1 = b.val))
        let t := countActivate (Sparse.get (fun _ => []) d.tables (rank * 32 + b.val)) row.toNat
        let reached := t.any (fun e =>
          decide (e.row = row.toNat ∧ Nat.max 256 (s.node.fld drmPage Fld.drmActThresh) ≤ e.count))
        (16 ≤ q.length → held = true → Answers (.dramActivate r b row) s (fun m =>
          m.dram = { d with heldActs := d.heldActs ++ [(rank, b.val, row.toNat)] } ∧ counted Fld.drmActcntThrottle 65535 m ∧
          (m.reg drmPage 0x010).getLsbD 4 = true ∧ RegsBut [key 0x010, key 0x060] s.node m ∧ OnlyIn [.regs, .dram] s.node m)) ∧
        (reached = false → (q.length < 16 ∨ held = false) → Answers (.dramActivate r b row) s (fun m =>
          Sparse.get (fun _ => []) m.dram.tables (rank * 32 + b.val) = t ∧ m.dram = { d with tables := m.dram.tables } ∧
          OnlyIn [.dram] s.node m)) ∧
        (reached = true → q.length < 16 → Answers (.dramActivate r b row) s (fun m =>
          Sparse.get (fun _ => []) m.dram.tables (rank * 32 + b.val) =
            t.map (fun e => if e.row = row.toNat then { e with count := 0 } else e) ∧
          m.nrQueue (rank / 2) = q ++ [(rank, b.val, row.toNat)] ∧ m.dram.heldActs = d.heldActs ∧
          OnlyIn [.dram] s.node m))) ∧
      (∀ (burst : BitVec 27) (device : BitVec 4),
        let entry := (rank, burst.toNat, device.toNat)
        (st = 1 ∨ st = 7 → Answers (.dramEccError r burst device false) s (fun m =>
          counted Fld.drmEccCorrected 65535 m ∧ m.flag drmPage Fld.drmEcccapValid = true ∧
          (s.node.flag drmPage Fld.drmEcccapValid = false →
            m.fld drmPage Fld.drmEcccapDevice = device.toNat ∧ m.fld drmPage Fld.drmEcccapRank = rank ∧
            m.flag drmPage Fld.drmEcccapUncorr = false ∧ m.fld drmPage Fld.drmEccaddrBurst = burst.toNat) ∧
          m.dram = { d with rereads := entry :: d.rereads } ∧ m.rankState rank = st ∧ Raised drmPage 1 s.node m ∧
          OnlyIn parts s.node m)) ∧
        (st = 3 ∨ st = 6 → Answers (.dramEccError r burst device false) s (fun m =>
          counted Fld.drmEccCorrected 65535 m ∧ m.flt = s.node.flt ∧
          RegsBut [key 0x064, key 0x068, key 0x06C] s.node m ∧ OnlyIn [.regs] s.node m)) ∧
        (st = 1 ∨ st = 3 ∨ st = 6 ∨ st = 7 → Answers (.dramEccError r burst device true) s (fun m =>
          counted Fld.drmEccUncorrected 65535 m ∧ counted Fld.drmPoisonMarked 65535 m ∧
          (∀ a, s.node.burstAddr rank burst.toNat = some a → a ∈ m.dram.poisoned) ∧ (m.reg drmPage 0x010).getLsbD 0 = true ∧
          (st = 1 → retired m) ∧ (st = 3 ∨ st = 6 → m.rankState rank = st ∧ Raised drmPage 2 s.node m) ∧
          (∀ from_ : Fin 4, from_ ≠ r → st = 7 → d.migrating = some (from_.val, rank) →
            m.rankState rank = 4 ∧ m.rankState from_ = 6 ∧ m.dram.migrating = none ∧
            m.flag drmPage Fld.drmMigMarkActive = false ∧ m.flag drmPage Fld.drmStatNoSpare = true) ∧
          OnlyIn parts s.node m))) ∧
      (st = 1 ∨ st = 3 ∨ st = 6 → Answers (.dramCaParityError r) s (fun m =>
        m.dram.replaying = some rank ∧ (st = 1 → retired m) ∧
        (st ≠ 1 → m.rankState rank = st ∧ Raised drmPage 3 s.node m) ∧ OnlyIn parts s.node m)) ∧
      (∀ f sp : Fin 4, f ≠ sp → d.migrating = some (f.val, sp.val) →
        (s.node.running = true → s.node.fld drmPage Fld.drmMigMarkW < s.node.rankSize / 64 - 4 →
          Answers .dramMigrationComplete s (fun m => OnlyIn [] s.node m)) ∧
        (s.node.running = false ∨ s.node.rankSize / 64 - 4 ≤ s.node.fld drmPage Fld.drmMigMarkW → Answers .dramMigrationComplete s (fun m =>
        m.rankState f = 4 ∧ m.rankState sp = 1 ∧ m.dram.migrating = none ∧
        m.dram.windows = d.windows.map (fun k => if k = f.val then sp.val else k) ∧
        m.flag drmPage Fld.drmMigMarkActive = false ∧ m.flag drmPage Fld.drmStatNoSpare = true ∧
        (m.reg drmPage 0x010).getLsbD 2 = true ∧ RegsBut [key 0x010, key 0x070, key 0x078, key 0x07C] s.node m ∧
        OnlyIn [.regs, .dram] s.node m))) ∧
      (Answers .dramZqCalibration s (fun m => m.dram = { d with zqCount := d.zqCount + 1 } ∧ OnlyIn [.dram] s.node m)) ∧
      (Answers (.dramDqsTrack 0) s (fun m => m.dram = { d with dqsCount := d.dqsCount + 1 } ∧ OnlyIn [.dram] s.node m)) ∧
      (st = 1 → Answers (.dramDqsTrack (1#4 <<< rank)) s (fun m => retired m ∧ OnlyIn parts s.node m))) ∧
    (∀ (burst : BitVec 27) (device : BitVec 4),
      let entry := (rank, burst.toNat, device.toNat)
      let tested := fun (m : Node) (result : Nat) => m.flt.ring = s.node.flt.ring.map (fun x =>
        if x.region = 0 ∧ x.page = pageIndex drmPage ∧ (x.unit = rank + 4 * (burst.toNat + 1) ∨ x.unit = rank) ∧ x.stest = 1
        then { x with stest := result } else x)
      entry ∈ d.rereads →
        (Answers (.dramRereadResult r burst device false) s (fun m =>
          m.dram = { d with rereads := d.rereads.filter (fun e => !decide (e = entry)) } ∧ tested m 2 ∧
          m.flt.nextSeq = s.node.flt.nextSeq ∧ OnlyIn [.dram, .flt] s.node m)) ∧
        (st = 1 → Answers (.dramRereadResult r burst device true) s (fun m =>
          entry ∉ m.dram.rereads ∧ tested m 3 ∧ retired m ∧ OnlyIn parts s.node m))) ∧
    (∀ touched : List (BitVec 27), d.replaying = some rank →
      Answers (.dramReplayComplete r true touched) s (fun m => m.dram = { d with replaying := none } ∧ OnlyIn [.dram] s.node m) ∧
      Answers (.dramReplayComplete r false touched) s (fun m =>
        m.dram.replaying = none ∧
        (∀ b ∈ touched, ∀ a, s.node.burstAddr rank b.toNat = some a → a ∈ m.dram.poisoned) ∧
        m.fld drmPage Fld.drmPoisonMarked = Nat.min (s.node.fld drmPage Fld.drmPoisonMarked + touched.length) 65535 ∧
        OnlyIn parts s.node m)) ∧
    (∀ (ch : Fin 2) (k b row : Nat) (rest : List (Nat × Nat × Nat)), s.node.nrQueue ch = (k, b, row) :: rest →
      Answers (.neighbourRefresh ch) s (fun m =>
        counted Fld.drmActcntNr 65535 m ∧ m.dram.refreshed = (s.node.neighbourRows row).map (fun x => (k, b, x)) ∧
        m.dram.heldActs = d.heldActs.filter (fun e => !decide (e.1 = k ∧ e.2.1 = b)) ∧
        ((∀ e ∈ d.heldActs, ¬(e.1 = k ∧ e.2.1 = b)) → m.nrQueue ch = rest ∧ m.dram.tables = d.tables) ∧
        RegsBut [key 0x060] s.node m ∧ OnlyIn [.regs, .dram] s.node m)) ∧
    (∀ src : Src, Reachable s drmPage → src.port ∉ (s.node.hdr drmPage).keyArmed →
      let idle := (s.node.hdr drmPage).active = false ∧ (s.node.hdr drmPage).busy = false ∧ (s.node.hdr drmPage).pending = false
      (idle → Answers (.drmTrainStart src) s (fun m =>
        m.rsp.ok = true ∧ m.flag drmPage Fld.drmStatTraining = true ∧ RegsBut [key 0x07C] s.node m ∧
        OnlyIn [.regs, .rsp] s.node m)) ∧
      ((s.node.hdr drmPage).active = true → Answers (.drmTrainStart src) s (fun m =>
        m.rsp.ok = true ∧ OnlyIn [.rsp] s.node m))) ∧
    (∀ passed : BitVec 4, s.node.flag drmPage Fld.drmStatTraining = true →
      let present := fun (k : Nat) => (s.node.fld drmPage Fld.drmCfgRanks).testBit k
      let isSpare := fun (k : Nat) => s.node.flag drmPage Fld.drmCfgSpareEn && decide (s.node.fld drmPage Fld.drmCfgSpare = k)
      Answers (.dramTrainingEnd passed) s (fun m =>
        m.flag drmPage Fld.drmStatTraining = false ∧ m.flag drmPage Fld.drmStatTrained = true ∧
        m.rankState rank = (if present rank = false then 0 else if passed.getLsbD rank = false then 5
          else if isSpare rank = true then 2 else 1) ∧
        m.dram.windows = (List.range 4).filter (fun k => present k && passed.getLsbD k && !isSpare k) ∧
        m.dram.migrating = none ∧ (m.reg drmPage 0x010).getLsbD 3 = true ∧
        (isSpare rank = true → present rank = true → m.flag drmPage Fld.drmStatNoSpare = !passed.getLsbD rank) ∧
        ((∀ k < 4, present k = true → passed.getLsbD k = true) → m.flt = s.node.flt) ∧ OnlyIn parts s.node m))

/-! Faults and the Sill island. -/

/-- R254, R315 to R318, R320 to R322, R325, R327 to R330, R339: a fault's way to the collector and the ring,
acknowledgement, the stops of the fatal state, the island's own count and fences, the safe state, the watchdog,
temperatures and supplies. The model's own choices in it: notes/assumptions/2.md, notes/assumptions/121.md and
notes/assumptions/185.md. -/
def Obligations.FaultsAndSill : Prop :=
  ∀ (s : State), s.node.sil.powered = true → FatalHalts s.node →
    let f := s.node.flt
    let z := s.node.sil
    let counted := fun (p : Page) (fl : Field) (m : Node) => m.fld p fl = Nat.min (s.node.fld p fl + 1) 255
    let line := fun (p : Page) (k : Nat) (m : Node) => (m.reg p 0x010).getLsbD k = true
    let mods := (List.range 24).map modPage
    let fatal := fun (i : Instr) (p : Page) (code : Nat) => Answers i s (fun m =>
      Raised p code s.node m ∧ m.sil.fatal = true ∧
      (z.fatal = false → m.clk.running = false ∧ m.mgmt.running = false ∧ m.pins.clocked = .low ∧ m.heldLeases = 0) ∧
      OnlyIn faultParts s.node m)
    let acks := fun (i : Instr) (pick : Record → Bool) => Answers i s (fun m =>
      m.rsp.ok = true ∧ m.flt = { f with ring := f.ring.map (fun r => if pick r then { r with ack := true } else r) } ∧
      m.sil.fatal = z.fatal ∧ RegsIn mods s.node m ∧ OnlyIn [.regs, .flt, .rsp] s.node m)
    fatal .xoinLoss refPage 1 ∧
    (∀ rail, (s.node.boot.strapped = true → fatal (.supplyFault rail) silPage 4) ∧
      (s.node.boot.strapped = false → Answers (.supplyFault rail) s (fun m => OnlyIn [] s.node m))) ∧
    (∀ (p : Page) (code unit : Nat) (detail : Word), pageValid p = true → code < 256 →
      Answers (.faultReport p code detail unit) s (fun m =>
        Raised p code s.node m ∧
        (f.queue.length < 64 → ∃ r, m.flt.queue = enqueue f.queue r ∧ r.seq = f.nextSeq ∧
          r.detail = Node.recordDetail p.block detail ∧ r.unit = unit ∧ (p.block = .mod → r.cls = r.orig)) ∧
        (64 ≤ f.queue.length → m.flt.queue = f.queue ∧ m.flt.lost = true ∧
          (p ≠ fltPage → counted fltPage Fld.fltCountsLost m)) ∧
        (faultClass p.block code = 3 → m.sil.fatal = true) ∧ OnlyIn faultParts s.node m)) ∧
    (∀ (r : Record) (rest : List Record), f.queue = r :: rest →
      let auto := decide (r.cls = 1) && s.node.flag fltPage Fld.fltCtrlAutoAckCor
      let r' : Record := { r with
        ack := r.ack || auto
        lostBefore := f.lost }
      let put := fun (ring : List Record) => Answers .faultRecordWrite s (fun m =>
        m.flt = { f with
          ring := ring ++ [r']
          queue := rest
          lost := false } ∧
        line fltPage (if r.cls = 1 then 1 else 0) m ∧ RegsBut [regKey fltPage 0x010 0] s.node m ∧
        OnlyIn [.regs, .flt, .i2c] s.node m)
      (f.ring.length < 256 → put f.ring) ∧
      (∀ old, 256 ≤ f.ring.length → f.ring.find? (·.ack) = some old → put (f.ring.erase old)) ∧
      (256 ≤ f.ring.length → f.ring.find? (·.ack) = none → Answers .faultRecordWrite s (fun m =>
        m.flt = { f with
          queue := rest
          lost := true } ∧
        m.flag fltPage Fld.fltStatOverflow = true ∧ counted fltPage Fld.fltCountsLost m ∧ line fltPage 3 m ∧
        RegsBut [regKey fltPage 0x010 0, regKey fltPage 0x04C 0, regKey fltPage 0x088 0] s.node m ∧
        OnlyIn [.regs, .flt] s.node m))) ∧
    (∀ src : Src, Reachable s fltPage → src.port ∉ (s.node.hdr fltPage).keyArmed →
      (∀ v : Word, acks (.fltAckWrite src v) (fun r => decide (BitVec.ofNat 32 r.seq = v))) ∧
      acks (.fltAckAll src) (fun _ => true) ∧
      ((s.node.hdr fltPage).frozen = none → ∀ r?,
        r? = f.ring.find? (fun r => decide (BitVec.ofNat 32 r.seq = s.node.reg fltPage 0x058)) →
        let word := fun (k : Nat) => match r? with
          | some r => recordWord r k
          | none => 0
        Answers (.fltRecRead src) s (fun m =>
          m.rsp = ⟨true, word 0⟩ ∧ (∀ k < 7, m.reg fltPage (0x064 + 4 * k) = word (k + 1)) ∧
          RegsBut ((List.range 7).map (fun k => regKey fltPage (0x064 + 4 * k) 0)) s.node m ∧
          OnlyIn [.regs, .rsp] s.node m))) ∧
    (z.fatal = true →
      Answers .fatalEthStop s (fun m =>
        (∀ k < 4, (m.mac k).idle = true ∧ ((s.node.mac k).idle = true → m.mac k = s.node.mac k) ∧
          ((s.node.mac k).idle = false → (m.mac k).link = false)) ∧
        RegsIn (mtxPage :: (List.range 4).map macPage) s.node m ∧ OnlyIn [.regs, .macs, .mem, .dram] s.node m) ∧
      Answers .fatalHighZ s (fun m =>
        (s.node.boot.drvPresent = true →
          ∀ c < 192, (m.drv c).pins = .highZ ∧ (m.drv c).loop = false ∧ (m.drv c).marks = false) ∧
        (s.node.boot.drvPresent = false → m.drive = s.node.drive) ∧ m.pins.rail = .highZ ∧
        OnlyIn [.drive, .pins] s.node m)) ∧
    (z.fatal = false → ∀ i ∈ [Instr.fatalEthStop, .fatalHighZ], Answers i s (fun m => OnlyIn [] s.node m)) ∧
    (z.ownTime = false → Answers .sillOwnTimeStart s (fun m =>
      m.sil = { z with
        ownTime := true
        index := z.index + 2
        latchAt := z.latchAt + 2 * s.node.sillLen } ∧
      m.clk.now = Nat.max s.node.clk.now (z.latchAt + 2 * s.node.sillLen) ∧ RegsBut [regKey phcPage 0x010 0] s.node m ∧
      OnlyIn [.sil, .clk, .phc, .regs] s.node m)) ∧
    (z.ownTime = true → Answers .sillCasementTick s (fun m =>
      m.sil = { z with
        index := z.index + 1
        latchAt := z.latchAt + s.node.sillLen } ∧
      m.clk.now = Nat.max s.node.clk.now (z.latchAt + s.node.sillLen) ∧ RegsBut [regKey phcPage 0x010 0] s.node m ∧
      OnlyIn [.sil, .clk, .phc, .regs] s.node m)) ∧
    (s.node.alive = true → s.node.expiredBy 0x068 (-2) = false → Answers .leaseSelfFence s (fun m => OnlyIn [] s.node m)) ∧
    (s.node.alive = true → s.node.act hngPage Fld.hngPartnerEid ≠ 0 → (s.node.hdr hngPage).active = true →
      s.node.expiredBy 0x068 (-2) = true → Answers .leaseSelfFence s (fun m =>
        m.dutyLeases = s.node.dutyLeases &&& s.node.unpairedLeases ∧
        (s.node.dutyLeases &&& ~~~s.node.unpairedLeases = 0 → OnlyIn [] s.node m) ∧
        (∀ k, Node.leaseNums (s.node.dutyLeases &&& ~~~s.node.unpairedLeases) = [k] →
          Raised silPage 5 s.node m ∧ counted silPage Fld.silEventsFences m ∧ line silPage 3 m ∧ line hngPage 3 m ∧
          (m.sil.fatal = false → m.hng.fencing = s.node.hng.fencing ||| (1#66 <<< k) ∧ m.heldLeases = s.node.heldLeases)) ∧
        OnlyIn faultParts s.node m)) ∧
    (∀ src : Src, Reachable s silPage → src.port ∉ (s.node.hdr silPage).keyArmed →
      ((s.node.hdr silPage).keyHolder = some src.port →
        (z.safe = false → Answers (.silSafeForce src) s (fun m =>
          m.rsp.ok = true ∧ m.sil = { z with safe := true } ∧ counted silPage Fld.silEventsSafe m ∧ line silPage 2 m ∧
          m.drive.rails = [] ∧ m.pins.rail = .low ∧
          (s.node.boot.drvPresent = true → ∀ c < 192, s.node.chState c ≠ 0 →
            m.chState c = 9 ∧ (m.drv c).pins = .zero ∧ (m.drv c).loop = false ∧ (m.drv c).marks = false) ∧
          (∀ c < 192, s.node.chState c = 0 → m.chState c = 0 ∧ m.drv c = s.node.drv c) ∧
          RegsIn (silPage :: mods) s.node m ∧ OnlyIn [.regs, .sil, .drive, .sht, .pins, .rsp] s.node m)) ∧
        (z.safe = true → z.fatal = false → Answers (.silSafeRelease src) s (fun m =>
          m.rsp.ok = true ∧ m.sil = { z with safe := false } ∧
          (s.node.boot.drvPresent = true → ∀ c < 192, s.node.chState c = 9 → s.node.chHinged c = false →
            m.chState c = if s.node.chActive c then 1 else 0) ∧
          (∀ c < 192, s.node.chState c ≠ 9 → m.chState c = s.node.chState c ∧ m.drv c = s.node.drv c) ∧
          RegsIn mods s.node m ∧ OnlyIn [.regs, .sil, .drive, .pins, .rsp] s.node m)) ∧
        (∀ v : Word, Answers (.silWdogWrite src v) s (fun m =>
          m.rsp.ok = true ∧ m.fld silPage Fld.silWdogTimeoutMs = v.toNat % 65536 ∧
          m.flag silPage Fld.silWdogEnable = (s.node.flag silPage Fld.silWdogEnable || v.getLsbD 31) ∧
          m.sil = { z with wdogRunning := z.wdogRunning ||
            (v.getLsbD 31 && !s.node.flag silPage Fld.silWdogEnable) } ∧
          RegsBut [regKey silPage 0x048 0] s.node m ∧ OnlyIn [.regs, .sil, .rsp] s.node m))) ∧
      ((s.node.hdr silPage).keyHolder ≠ some src.port → ∀ v : Word,
        ∀ i ∈ [Instr.silSafeForce src, .silSafeRelease src, .silWdogWrite src v],
          Answers i s (fun m => RegsIn [silPage] s.node m ∧ m.reg silPage 0x048 = s.node.reg silPage 0x048 ∧
            OnlyIn [.regs, .rsp] s.node m)) ∧
      (src.port = .core → s.node.flag silPage Fld.silWdogEnable = true → Answers (.silKick src) s (fun m =>
        m.rsp.ok = true ∧ m.sil = { z with wdogRunning := true } ∧ m.flag silPage Fld.silStatWdogExpired = false ∧
        RegsBut [regKey silPage 0x040 0] s.node m ∧ OnlyIn [.regs, .sil, .rsp] s.node m)) ∧
      (src.port ≠ .core → Answers (.silKick src) s (fun m => m.rsp.ok = true ∧ OnlyIn [.rsp] s.node m))) ∧
    (z.wdogRunning = true → Answers .watchdogExpiry s (fun m =>
      Raised silPage 1 s.node m ∧ m.sil.wdogRunning = false ∧ m.flag silPage Fld.silStatWdogExpired = true ∧
      counted silPage Fld.silEventsWdog m ∧ line silPage 0 m ∧ OnlyIn faultParts s.node m)) ∧
    (∀ temps : List Int, temps.length = 8 →
      let present := fun (k : Nat) => s.node.sampled.getD k false
      let above := fun (lim : Int) => ∃ k < 8, present k = true ∧ lim < temps.getD k 0
      let warn := (BitVec.ofNat 8 (s.node.fld silPage Fld.silThermWarn)).toInt
      let shown := fun (m : Node) => ∀ k < 8,
        (m.reg silPage (0x054 + 4 * (k / 4))).toNat / 256 ^ (k % 4) % 256 = tempByte (present k) (temps.getD k 0)
      let temp := [regKey silPage 0x054 0, regKey silPage 0x058 0]
      (¬above warn → z.thermWarn = false → ¬above 124 → Answers (.thermalSample temps) s (fun m =>
        shown m ∧ m.sil = z ∧ RegsBut temp s.node m ∧ OnlyIn [.regs] s.node m)) ∧
      (¬above (warn - 5) → z.thermWarn = true → ¬above 124 → Answers (.thermalSample temps) s (fun m =>
        shown m ∧ m.sil = { z with thermWarn := false } ∧ RegsBut temp s.node m ∧ OnlyIn [.regs, .sil] s.node m)) ∧
      (above warn → z.thermWarn = false → ¬above 124 → Answers (.thermalSample temps) s (fun m =>
        shown m ∧ Raised silPage 2 s.node m ∧ m.sil.thermWarn = true ∧ counted silPage Fld.silEventsTherm m ∧ line silPage 1 m ∧
        (s.node.flag silPage Fld.silSafeAutoTherm = true → m.sil.safe = true) ∧
        (s.node.flag silPage Fld.silSafeAutoTherm = false → m.sil.safe = z.safe ∧ OnlyIn faultParts s.node m))) ∧
      (above 124 → z.thermWarn = true → ¬(∀ k < 8, present k = true → temps.getD k 0 ≤ warn - 5) →
        Answers (.thermalSample temps) s (fun m =>
          shown m ∧ Raised silPage 3 s.node m ∧ m.sil.fatal = true ∧ OnlyIn faultParts s.node m)))

/-! Hinge pairs. -/

/-- R333, R335 to R343: what a message of the partner and a frame on the hinge wire change, the loss of the partner,
renewal, takeover, fences that complete, duties and their conflicts, claims and their decision, and the end of a
resynchronisation. The model's own choices in it: notes/assumptions/122.md, notes/assumptions/124.md and
notes/assumptions/184.md. -/
def Obligations.HingePairs : Prop :=
  ∀ (s : State), s.node.alive = true →
    let h := s.node.hng
    let now := s.node.hngNow
    let term := s.node.hngTerm
    let held := s.node.heldLeases
    let wire := s.node.wireOn
    let word := fun (m : Node) (off : Nat) => m.reg hngPage off
    let line := fun (k : Nat) (m : Node) => (m.reg hngPage 0x010).getLsbD k = true
    let takes := fun (b : BitVec 66) (m : Node) => m.heldLeases = held ||| b ∧
      (b ≠ 0 → word m 0x068 = BitVec.ofNat 32 (now + term)) ∧ (b = 0 → word m 0x068 = word s.node 0x068)
    let pages := hngPage :: (List.range 24).map modPage
    let parts : List Part := [.hng, .regs, .drive]
    let counts := fun (f : Field) (k cap : Nat) (m : Node) => m.fld hngPage f = Nat.min (s.node.fld hngPage f + k) cap
    (∀ p : PairMsg, s.node.paired = true →
      let ours := s.node.flag hngPage Fld.hngStatSenior
      let theirs := p.flags.getLsbD 0
      let senior := if ours = true ∧ theirs = false then true else if theirs = true ∧ ours = false then false
        else decide (Config.eui.toNat < p.eui.toNat)
      let r := s.node.casementOf p.renewAt.toNat 32
      Answers (.pairMessageReceived p) s (fun m =>
        m.flag hngPage Fld.hngStatPartnerUp = true ∧ m.flag hngPage Fld.hngStatSenior = senior ∧ m.hng.lastMsg = some now ∧
        m.hng.partnerHeld = Node.leaseBits p.held ∧
        m.hng.newOff = (if senior = false ∧ p.off ≠ word s.node 0x074 then some p.off else h.newOff) ∧
        (p.flags.getLsbD 2 = true → word m 0x06C = BitVec.ofNat 32 (r + term) ∧ m.hng.ackDue = some r) ∧
        (p.flags.getLsbD 3 = true → p.flags.getLsbD 2 = false → word m 0x068 =
          if r ≤ now ∧ now - r ≤ s.node.hngRenew / 2 then BitVec.ofNat 32 (r + term) else word s.node 0x068) ∧
        (p.flags.getLsbD 3 = false → word m 0x068 = word s.node 0x068) ∧
        m.flag hngPage Fld.hngStatCfgDiff = decide (p.cfgSeq ≠ h.cfgSeq) ∧
        (p.cfgSeq ≠ h.cfgSeq →
          (s.node.flag hngPage Fld.hngStatCfgDiff = false → Raised hngPage 4 s.node m) ∧
          (s.node.flag hngPage Fld.hngStatCfgDiff = true → m.flt = s.node.flt) ∧
          m.hng.differing = h.differing ∧ (m.hng.matching = h.matching ∨ m.flag hngPage Fld.hngStatResync = true)) ∧
        (p.casement + 3 ≤ now → counts Fld.hngDigestLate 1 255 m ∧ m.hng.differing = h.differing) ∧
        OnlyIn faultParts s.node m)) ∧
    (∀ t, h.lastMsg = some t → now ≤ t + 8 → Answers .partnerLost s (fun m => OnlyIn [] s.node m)) ∧
    (s.node.paired = true → (∀ t, h.lastMsg = some t → t + 8 < now) →
      (∀ t, h.lastMsg = none → h.memberSince = some t → t + 8 ≤ now) →
      s.node.flag hngPage Fld.hngStatPartnerUp = true ∨ s.node.flag hngPage Fld.hngStatSenior = false →
      Answers .partnerLost s (fun m =>
      m.flag hngPage Fld.hngStatPartnerUp = false ∧ m.flag hngPage Fld.hngStatSenior = true ∧ Raised hngPage 2 s.node m ∧
      line 1 m ∧ OnlyIn faultParts s.node m)) ∧
    (∀ src : Src, Reachable s hngPage → src.port ∉ (s.node.hdr hngPage).keyArmed →
      (s.node.mgmt.running = false → Answers (.hngRenew src) s (fun m => m.rsp.ok = true ∧ OnlyIn [.rsp] s.node m)) ∧
      (src.port = .core → s.node.paired = true → s.node.mgmt.running = true → Answers (.hngRenew src) s (fun m =>
        m.rsp.ok = true ∧ m.hng = { h with
          offered := some now
          wireSent := if wire then some (hingeFrame 1 now) else h.wireSent } ∧ OnlyIn [.hng, .rsp] s.node m)) ∧
      (src.port ≠ .core → Answers (.hngRenew src) s (fun m => m.rsp.ok = true ∧ OnlyIn [.rsp] s.node m))) ∧
    (∀ f : Word, wire = true →
      let r := s.node.casementOf (f.toNat / 2 ^ 16) 6
      let good := f.toNat / 2 ^ 24 = 0xB4 ∧ crc8 [(f >>> 24).setWidth 8, (f >>> 16).setWidth 8, (f >>> 8).setWidth 8] = f.toNat % 256
      let type := f.toNat / 2 ^ 22 % 4
      (¬good → Answers (.hingeFrameReceived f) s (fun m =>
        counts Fld.hngSeccntWireBad 1 15 m ∧ RegsBut [regKey hngPage 0x080 0] s.node m ∧ OnlyIn [.regs] s.node m)) ∧
      (good → type = 0 → Answers (.hingeFrameReceived f) s (fun m =>
        m.hng = { h with lastWire := some now } ∧ OnlyIn [.hng] s.node m)) ∧
      (good → type = 1 → Answers (.hingeFrameReceived f) s (fun m =>
        word m 0x06C = BitVec.ofNat 32 (r + term) ∧ m.hng = { h with
          lastWire := some now
          known := true
          shortened := false
          ackDue := some r
          wireSent := some (hingeFrame 2 r) } ∧ RegsBut [regKey hngPage 0x06C 0] s.node m ∧ OnlyIn [.hng, .regs] s.node m)) ∧
      (good → type = 2 → Answers (.hingeFrameReceived f) s (fun m =>
        word m 0x068 = (if r ≤ now ∧ now - r ≤ s.node.hngRenew / 2 then BitVec.ofNat 32 (r + term) else word s.node 0x068) ∧
        m.hng = { h with lastWire := some now } ∧ RegsBut [regKey hngPage 0x068 0] s.node m ∧ OnlyIn [.hng, .regs] s.node m)) ∧
      (good → type = 3 → Answers (.hingeFrameReceived f) s (fun m =>
        word m 0x06C = (if (BitVec.ofNat 32 (now + 1) - word s.node 0x06C).toInt < 0 then BitVec.ofNat 32 (now + 1)
          else word s.node 0x06C) ∧
        m.hng = { h with
          lastWire := some now
          released := h.released ||| h.partnerHeld
          partnerHeld := 0
          shortened := true } ∧ RegsBut [regKey hngPage 0x06C 0] s.node m ∧ OnlyIn [.hng, .regs] s.node m))) ∧
    (s.node.expiredBy 0x06C 2 = false → Answers .leaseTakeover s (fun m => OnlyIn [] s.node m)) ∧
    (∀ b : BitVec 66, s.node.paired = true → b ≠ 0 → s.node.expiredBy 0x06C 2 = true →
      b = (if h.shortened then h.released else h.partnerHeld ||| h.released) &&& s.node.eligible &&& ~~~h.partnerYields &&&
        ~~~h.yielded &&& ~~~held → Answers .leaseTakeover s (fun m =>
        takes b m ∧ counts Fld.hngEventsTakeovers (Node.leaseNums b).length 65535 m ∧ line 2 m ∧
        m.hng.partnerHeld = h.partnerHeld &&& ~~~b ∧ m.hng.released = h.released &&& ~~~b ∧
        RegsIn pages s.node m ∧ OnlyIn parts s.node m)) ∧
    (∀ k : Fin 66, 64 ≤ k.val → now ≤ h.dutyFenced → Answers (.leaseFenceComplete k) s (fun m => OnlyIn [] s.node m)) ∧
    (∀ k : Fin 66, h.fencing.getLsbD k = true → (if k.val < 64 then s.node.groupFenced k = true else h.dutyFenced < now) →
      Answers (.leaseFenceComplete k) s (fun m =>
        m.heldLeases = held &&& ~~~(1#66 <<< k.val) ∧ m.hng = { h with
          fencing := h.fencing &&& ~~~(1#66 <<< k.val)
          wireSent := if wire then some (hingeFrame 3 0) else h.wireSent } ∧
        (wire = true ∨ s.node.mgmt.running = true → counts Fld.hngEventsReleases 1 255 m) ∧ line 3 m ∧
        RegsBut [regKey hngPage 0x010 0, regKey hngPage 0x05C 0, regKey hngPage 0x060 0, regKey hngPage 0x064 0,
          regKey hngPage 0x088 0] s.node m ∧ OnlyIn [.hng, .regs] s.node m)) ∧
    (∀ (k : Fin 66) (eid : Nat) (priority : Byte) (eui : BitVec 64), 64 ≤ k.val → s.node.dutyLeases.getLsbD k = true →
      eid ≠ s.node.cfg.eid → eid ≠ s.node.act hngPage Fld.hngPartnerEid → Answers (.dutyReceived k eid priority eui) s (fun m =>
        m.flag hngPage Fld.hngStatDutyConflict = true ∧
        (s.node.flag hngPage Fld.hngStatDutyConflict = false → Raised hngPage 5 s.node m ∧ line 3 m) ∧
        (s.node.outranks priority.toNat eui = true → m.sil.fatal = false → m.hng = h ∧ m.heldLeases = held) ∧
        (s.node.outranks priority.toNat eui = false → m.hng.yielded = h.yielded ||| (1#66 <<< k.val) ∧
          m.dutyLeases.getLsbD k = false ∧
          (m.sil.fatal = false → m.hng.fencing = h.fencing ||| (1#66 <<< k.val) ∧ m.heldLeases = held)) ∧
        OnlyIn faultParts s.node m)) ∧
    (h.duty64 ≠ 0 → h.duty65 ≠ 0 → Answers .dutyAnnounce s (fun m => OnlyIn [] s.node m)) ∧
    (∀ k : Fin 66, 64 ≤ k.val → s.node.dutyLeases.getLsbD k = true → (if k.val = 64 then h.duty64 else h.duty65) = 0 →
      Answers .dutyAnnounce s (fun m =>
      (k.val, now) ∈ m.hng.dutySent ∧ (k.val = 64 → m.hng.duty64 = term) ∧ (k.val = 65 → m.hng.duty65 = term) ∧
      m.hng.fencing = h.fencing ∧ OnlyIn [.hng] s.node m)) ∧
    (s.node.expiredBy 0x06C 2 = false → Answers .leaseClaim s (fun m => OnlyIn [] s.node m)) ∧
    (∀ b : BitVec 66, s.node.paired = true → b ≠ 0 → s.node.expiredBy 0x06C 2 = true →
      b = s.node.eligible &&& ~~~held &&& ~~~h.partnerHeld &&& ~~~h.yielded &&& ~~~h.partnerYields →
      Answers .leaseClaim s (fun m =>
        m.hng = { h with mine := some ⟨now, b, s.node.act hngPage Fld.hngCfgPriority, Config.eui⟩ } ∧
        OnlyIn [.hng] s.node m)) ∧
    (∀ (leases : List Nat) (priority : Byte) (eui : BitVec 64), Answers (.claimReceived leases priority eui) s (fun m =>
      (∃ b : BitVec 66, (∀ k < 66, b.getLsbD k = decide (k ∈ leases)) ∧
        m.hng = { h with theirs := some ⟨now, b, priority.toNat, eui⟩ }) ∧ OnlyIn [.hng] s.node m)) ∧
    (∀ c : Claim, h.mine = some c →
      let own := c.leases &&& ~~~h.partnerHeld
      let seen := match h.theirs with
        | some t => if c.casement ≤ t.casement ∧ t.casement < c.casement + 3 then t.leases else 0
        | none => 0
      let win := match h.theirs with
        | some t => s.node.outranks t.priority t.eui
        | none => true
      let sure := s.node.flag hngPage Fld.hngStatPartnerUp = true ∨ (∀ t, h.lastMsg = some t → term ≤ now - t)
      (now < c.casement + 3 → Answers .claimDecision s (fun m => OnlyIn [] s.node m)) ∧
      (c.casement + 3 ≤ now → Answers .claimDecision s (fun m =>
        m.hng.mine = none ∧ m.hng.theirs = none ∧
        (sure → win = true → takes own m) ∧
        (sure → win = false → takes (own &&& ~~~seen) m ∧ counts Fld.hngEventsClaimsLost (Node.leaseNums (own &&& seen)).length 255 m) ∧
        (¬sure → win = true → takes (own &&& seen) m) ∧
        (¬sure → win = false → takes 0 m) ∧
        m.heldLeases &&& h.partnerHeld &&& ~~~held = 0 ∧ RegsIn pages s.node m ∧ OnlyIn parts s.node m))) ∧
    (h.matching < s.node.digestLimit → Answers .resyncComplete s (fun m => OnlyIn [] s.node m)) ∧
    (s.node.flag hngPage Fld.hngStatResync = true → s.node.flag hngPage Fld.hngStatCfgDiff = false →
      s.node.digestLimit ≤ h.matching → (∀ e ∈ s.node.strips, e.2.held = false) →
      Answers .resyncComplete s (fun m =>
        m.flag hngPage Fld.hngStatResync = false ∧ RegsBut [regKey hngPage 0x04C 0] s.node m ∧ OnlyIn [.regs] s.node m))

/-! Ranori control, the directory and saved configurations. -/

/-- R16, R344 to R349: the checks that a control message passes, versions, the directory's answers and refused streams,
and the commands of the CONFIG and RANORI services. The model's own choices in it: notes/assumptions/126.md,
notes/assumptions/128.md and notes/assumptions/129.md. -/
def Obligations.ControlAndConfig : Prop :=
  ∀ (s : State), s.node.alive = true →
    let c := s.node.cfg
    let num : Nat := c.nextJob
    let busy := c.owner.isSome = true ∨ c.waiting.isSome = true
    let counts := fun (f : Field) (cap : Nat) (m : Node) => m.fld hngPage f = Nat.min (s.node.fld hngPage f + 1) cap ∧
      RegsBut [regKey hngPage 0x080 0] s.node m
    (∀ p : ControlMsg,
      let x := s.node.fillBucket (s.node.sessionOf p.sender)
      let fresh := x.highest < p.seq + 64 ∧ p.seq ∉ x.seen
      let y := fun (m : Node) => m.sessionOf p.sender
      let others := fun (m : Node) => ∀ q, q ≠ p.sender → m.sessionOf q = s.node.sessionOf q
      let taken := fun (m : Node) => (y m).highest = Nat.max x.highest p.seq ∧ p.seq ∈ (y m).seen ∧
        (y m).tokens = x.tokens - oneToken ∧ others m
      (p.tagOk = false → Answers (.controlMessageReceived p) s (fun m =>
        counts Fld.hngSeccntTagFail 255 m ∧ OnlyIn [.regs] s.node m)) ∧
      (p.tagOk = true → ¬fresh → Answers (.controlMessageReceived p) s (fun m =>
        counts Fld.hngSeccntReplay 255 m ∧ OnlyIn [.regs] s.node m)) ∧
      (p.tagOk = true → fresh → x.tokens < oneToken → Answers (.controlMessageReceived p) s (fun m =>
        counts Fld.hngSeccntRateDrop 255 m ∧ (y m).highest = x.highest ∧ (y m).seen = x.seen ∧ others m ∧
        OnlyIn [.regs, .cfg] s.node m)) ∧
      (p.tagOk = true → fresh → oneToken ≤ x.tokens →
        (∀ lo hi, p.kind = .offer lo hi → lo ≤ hi → lo ≤ 4 → 2 ≤ hi → Answers (.controlMessageReceived p) s (fun m =>
          taken m ∧ (y m).version = Nat.min 4 hi ∧ (y m).state = 1 ∧ OnlyIn [.cfg] s.node m)) ∧
        (∀ lo hi, p.kind = .offer lo hi → hi < lo ∨ 4 < lo ∨ hi < 2 → Answers (.controlMessageReceived p) s (fun m =>
          taken m ∧ (y m).state = 2 ∧ counts Fld.hngSeccntIncompat 15 m ∧ OnlyIn [.cfg, .regs] s.node m)) ∧
        (p.kind = .close → Answers (.controlMessageReceived p) s (fun m =>
          taken m ∧ (y m).state = 3 ∧ OnlyIn [.cfg] s.node m)) ∧
        (p.kind = .other → Answers (.controlMessageReceived p) s (fun m =>
          taken m ∧ (y m).state = x.state ∧ (y m).version = x.version ∧ OnlyIn [.cfg] s.node m)))) ∧
    (∀ eid node : Nat,
      (s.node.dutyLeases.getLsbD 65 = false → Answers (.registerEndpoint eid node) s (fun m => OnlyIn [] s.node m)) ∧
      (s.node.dutyLeases.getLsbD 65 = true →
        (∀ e, c.directory.find? (fun e => decide (e.1 = eid)) = some e → Answers (.registerEndpoint eid node) s (fun m =>
          m.rsp = (if e.2 = node then ⟨true, 0⟩ else ⟨false, BitVec.ofNat 32 duplicateEid⟩) ∧ OnlyIn [.rsp] s.node m)) ∧
        (c.directory.find? (fun e => decide (e.1 = eid)) = none →
          (Sys2Proof.eidOk eid = false → Answers (.registerEndpoint eid node) s (fun m =>
            m.rsp = ⟨false, BitVec.ofNat 32 badArgument⟩ ∧ OnlyIn [.rsp] s.node m)) ∧
          (Sys2Proof.eidOk eid = true → 2097152 ≤ c.directory.length → Answers (.registerEndpoint eid node) s (fun m =>
            m.rsp = ⟨false, BitVec.ofNat 32 refusedCode⟩ ∧ OnlyIn [.rsp] s.node m)) ∧
          (Sys2Proof.eidOk eid = true → c.directory.length < 2097152 → Answers (.registerEndpoint eid node) s (fun m =>
            let place := s.node.dmaAddr (s.node.dramTop - 2097152 * 64 + 64 * c.directory.length) 64
            m.rsp = ⟨true, 0⟩ ∧ m.cfg = { c with directory := c.directory ++ [(eid, node)] } ∧
            (∀ x, place = some x → MemBut x 64 s.node m) ∧ (place = none → m.mem = s.node.mem) ∧
            OnlyIn [.rsp, .cfg, .mem, .dram, .free] s.node m))))) ∧
    (∀ refused : List Nat, Answers (.registrationRetry refused) s (fun m =>
      m.cfg = { c with refused := refused } ∧
      (∀ k ∈ s.node.rt.cfg.sinks, k.id.kind = 0 →
        (∀ k' ∈ s.node.rt.cfg.sinks, k'.id.kind = 0 → shutKey (Node.sinkShut k'.id) = shutKey (Node.sinkShut k.id) →
          s.node.eidRefused refused k'.id = s.node.eidRefused refused k.id) →
        let sh := s.node.shut (Node.sinkShut k.id)
        sh.present = true → (m.shut (Node.sinkShut k.id)).forced = s.node.eidRefused refused k.id ∧
          (m.shut (Node.sinkShut k.id)).cfg = sh.cfg ∧
          (s.node.eidRefused refused k.id = true → sh.forced = false → sh.held = false → sh.ramp = none → sh.gain ≠ 0 →
            ∃ r, (m.shut (Node.sinkShut k.id)).ramp = some r ∧ r.target = 0)) ∧
      RegsBut [regKey shtPage 0x06C 0] s.node m ∧ OnlyIn [.cfg, .sht, .regs] s.node m)) ∧
    (∀ slot : Fin 4, s.node.mgmt.running = true → s.node.slotBusy slot = true → s.node.lengthBad slot = false →
      let answers := fun (i : Instr) (code : Nat) (detail : Option Nat) (data : List Word) =>
        Answers i s (fun m => Answered slot code detail data s.node m ∧ OnlyIn answerParts s.node m)
      let ended := fun (code detail : Nat) (m : Node) => m.slotBusy slot = false ∧
        (m.reg mgtPage (responseOff slot + 4)).toNat = detail % 2 ^ 24 * 256 + code
      let runs := fun (m : Node) (adopted : Option (List Byte)) => ∃ j : ConfigJob,
        m.cfg.jobs.find? (fun j => decide (j.num = num)) = some j ∧ j.state = 1 ∧ j.adopted = adopted
      let starts := fun (i : Instr) (adopted : Option (List Byte)) =>
        (s.node.flash.running.isSome = true → Answers i s (fun m =>
          Answered slot 1 (some num) [] s.node m ∧ runs m adopted ∧ m.cfg.waiting = some num ∧ m.cfg.owner = none ∧
          OnlyIn (.cfg :: answerParts) s.node m)) ∧
        (s.node.flash.running.isSome = false → Answers i s (fun m =>
          ended 1 num m ∧ runs m adopted ∧ m.cfg.owner = some num ∧ m.flag qspPage Fld.qspStatCfgJob = true ∧
          m.copySeq s.node.copyToSave.1 = none ∧ m.copySeq (!s.node.copyToSave.1) = s.node.copySeq (!s.node.copyToSave.1) ∧
          RegsIn [mgtPage, qspPage] s.node m ∧ OnlyIn (.cfg :: .flash :: answerParts) s.node m))
      (busy → answers (.configSave slot) 2 none []) ∧
      (¬busy → s.node.rt.inForce = false → answers (.configSave slot) 7 none []) ∧
      (¬busy → s.node.rt.inForce = true → starts (.configSave slot) none) ∧
      answers (.configList slot) 0 none [s.node.flashWord (copyBase false + 4), s.node.flashWord (copyBase true + 4),
        BitVec.ofNat 32 ((if (s.node.copySeq false).isSome then 1 else 0) + (if (s.node.copySeq true).isSome then 2 else 0) +
          (if s.node.rt.inForce && c.inForceB then 4 else 0))] ∧
      (∀ (lo hi length : Word) (info : SnapshotInfo),
        let addr := lo.toNat + hi.toNat % 256 * 2 ^ 32
        let wrong := snapshotRefusal s.node addr length.toNat info
        (∀ code detail, wrong = some (code, detail) → answers (.configAdopt slot lo hi length info) code detail []) ∧
        (wrong = none → busy → answers (.configAdopt slot lo hi length info) 2 none []) ∧
        (wrong = none → ¬busy → starts (.configAdopt slot lo hi length info)
          (some (s.node.dmaRead (addr + 16) (length.toNat - 16))))) ∧
      (busy → answers (.configReload slot) 2 none []) ∧
      (¬busy → (s.node.rt.jobs.filter (fun (j : Job) => decide (j.num ≠ 0))).length < 4 →
        (s.node.copyChosen = none → Answers (.configReload slot) s (fun m =>
          Answered slot 1 (some num) [] s.node m ∧ m.rt = s.node.rt ∧ OnlyIn (.cfg :: answerParts) s.node m ∧
          ∃ j : ConfigJob, m.cfg.jobs.find? (fun j => decide (j.num = num)) = some j ∧ j.state = 3)) ∧
        (∀ b seq, s.node.copyChosen = some (b, seq) → Answers (.configReload slot) s (fun m =>
          ended 1 num m ∧ runs m none ∧ m.rt.jobs.length = s.node.rt.jobs.length + 1 ∧
          (∃ j ∈ m.rt.jobs, j.addr = 0x80000000 + copyBase b + 16 ∧ j.state = .compiling ∧ j.copy = some (b, seq)) ∧
          RegsIn [mgtPage, sysPage] s.node m ∧ OnlyIn (.cfg :: .rt :: .boot :: answerParts) s.node m))) ∧
      (∀ k : Nat,
        (c.jobs.find? (fun j => decide (j.num = k)) = none → answers (.configStatus slot k) 6 none []) ∧
        (∀ j, c.jobs.find? (fun j => decide (j.num = k)) = some j → answers (.configStatus slot k) 0 (some j.state) [])) ∧
      (∀ eid lo hi : Word,
        let addr := lo.toNat + hi.toNat % 256 * 2 ^ 32
        let named := eid.toNat = 0xFFFFFF ∨ (eid.toNat < 0x800000 ∧ Sys2Proof.eidOk eid.toNat = true)
        (2 ≤ slot.val → answers (.ranoriKey slot eid lo hi) 8 none []) ∧
        (slot.val < 2 → ¬named ∨ s.node.dmaAddr addr 32 = none → answers (.ranoriKey slot eid lo hi) 6 none []) ∧
        (slot.val < 2 → named → (s.node.dmaAddr addr 32).isSome = true → c.keys.length < 256 →
          Answers (.ranoriKey slot eid lo hi) s (fun m =>
            m.cfg = { c with keys := c.keys.filter (fun k => decide (k.1 ≠ eid.toNat)) ++ [(eid.toNat, s.node.dmaRead addr 32)] } ∧
            m.slotBusy slot = false ∧ (m.reg mgtPage (responseOff slot + 4)).toNat % 256 = 0 ∧
            RegsIn [mgtPage, secPage] s.node m ∧ OnlyIn (.cfg :: answerParts) s.node m))) ∧
      (∀ first : Nat, answers (.ranoriSessions slot first) 0 none (((c.sessions.drop first).take 31).flatMap (fun x =>
        [BitVec.ofNat 32 x.peer, BitVec.ofNat 32 (x.version % 16 + x.state % 16 * 16)]))) ∧
      (∀ k : Nat,
        (66 ≤ k → answers (.ranoriHandover slot k) 6 none []) ∧
        (k < 66 → s.node.dutyLeases.getLsbD k = false → answers (.ranoriHandover slot k) 7 none []) ∧
        (k < 66 → s.node.dutyLeases.getLsbD k = true → Answers (.ranoriHandover slot k) s (fun m =>
          m.hng = { s.node.hng with
            fencing := s.node.hng.fencing ||| (1#66 <<< k)
            dutyFenced := if k < 64 then s.node.hng.dutyFenced else s.node.hngNow } ∧ m.heldLeases = s.node.heldLeases ∧
          (m.reg hngPage 0x010).getLsbD 3 = true ∧ m.slotBusy slot = false ∧
          (m.reg mgtPage (responseOff slot + 4)).toNat % 256 = 0 ∧
          RegsIn (mgtPage :: hngPage :: (List.range 24).map modPage) s.node m ∧
          OnlyIn (.hng :: .drive :: answerParts) s.node m)))) ∧
    (∀ (k : Nat) (j : ConfigJob), c.jobs.find? (fun j => decide (j.num = k)) = some j → c.owner = some k →
      let state := fun (m : Node) (v : Nat) => ∃ j' : ConfigJob,
        m.cfg.jobs.find? (fun j => decide (j.num = k)) = some j' ∧ j'.state = v
      Answers (.configSaveDone k none) s (fun m =>
        state m 3 ∧ m.cfg.owner = none ∧ m.flag qspPage Fld.qspStatCfgJob = false ∧
        RegsIn [qspPage] s.node m ∧ OnlyIn [.cfg, .regs] s.node m) ∧
      (∀ bs : List Byte, j.adopted = none → bs.length + 16 ≤ copySpace → ∀ b seq, s.node.copyToSave = (b, seq) →
        Answers (.configSaveDone k (some bs)) s (fun m =>
          state m 2 ∧ m.cfg.owner = none ∧ m.cfg.inForceB = b ∧ m.hng = { s.node.hng with cfgSeq := seq } ∧
          m.flag qspPage Fld.qspStatCfgJob = false ∧ m.flashWord (copyBase b) = copyMagic ∧ m.flashWord (copyBase b + 4) = seq ∧
          (m.flashWord (copyBase b + 8)).toNat = bs.length ∧ (m.flashWord (copyBase b + 12)).toNat = crc32c bs ∧
          m.flashBytes (copyBase b + 16) bs.length = bs ∧
          (∀ off, ¬(copyBase b ≤ off ∧ off < copyBase b + copySpace) → m.flashByte off = s.node.flashByte off) ∧
          RegsIn [qspPage] s.node m ∧ OnlyIn [.cfg, .hng, .flash, .regs] s.node m)))

/-! Ports and flash. -/

/-- R350 to R358: a transaction of the I²C window, its errors, attention messages and a stuck bus. The model's own
choices in it: notes/assumptions/140.md, notes/assumptions/142.md, notes/assumptions/143.md and
notes/assumptions/144.md. -/
def Obligations.I2cPort : Prop :=
  ∀ (s : State), FatalHalts s.node →
    let x := s.node.i2c
    let n1 : Node := { s.node with i2c := { x with acked := true } }
    let counts := fun (n : Node) (f : Field) (m : Node) => m.fld Node.i2cPage f = Nat.min (n.fld Node.i2cPage f + 1) 255
    let errs := regKey Node.i2cPage 0x048 0
    let event := regKey Node.i2cPage 0x010 0
    (∀ sill : Bool,
      let ptr : Byte := if sill then x.ptrSill else x.ptrNode
      let ptrOf := fun (m : Node) => if sill then m.i2c.ptrSill else m.i2c.ptrNode
      (s.node.i2cServes sill = false →
        (∀ bytes, Answers (.i2cWriteTransaction sill bytes) s (fun m =>
          m.i2c.acked = false ∧ ptrOf m = ptr ∧ m.i2c.bank = x.bank ∧ OnlyIn [.i2c] s.node m)) ∧
        (∀ count, Answers (.i2cReadTransaction sill count) s (fun m =>
          m.i2c.acked = false ∧ ptrOf m = ptr ∧ m.i2c.read = x.read ∧ OnlyIn [.i2c] s.node m))) ∧
      (s.node.i2cServes sill = true →
        (∀ p : Byte, Answers (.i2cWriteTransaction sill [p]) s (fun m =>
          m.i2c.acked = true ∧ ptrOf m = p ∧ m.i2c.bank = x.bank ∧ OnlyIn [.i2c] s.node m)) ∧
        (∀ b0 b1 b2 b3 : Byte,
          let w : Word := BitVec.ofNat 32 (b0.toNat + b1.toNat * 2 ^ 8 + b2.toNat * 2 ^ 16 + b3.toNat * 2 ^ 24)
          Answers (.i2cWriteTransaction sill [0xF0, b0, b1, b2, b3]) s (fun m =>
            m.i2c.acked = true ∧ ptrOf m = 0xF4 ∧ m.i2c.bank = (if sill then x.bank else w) ∧ OnlyIn [.i2c] s.node m) ∧
          Answers (.i2cWriteTransaction sill [0xF4, b0, b1, b2, b3]) s (fun m =>
            m.i2c.acked = true ∧ ptrOf m = 0xF8 ∧ m.i2c.rseq = w ∧ OnlyIn [.i2c] s.node m) ∧
          Answers (.i2cWriteTransaction sill [0xF8, b0, b1, b2, b3]) s (fun m =>
            m.i2c.acked = true ∧ ptrOf m = 0xFC ∧
            m.flt.ring = s.node.flt.ring.map (fun r => if decide (BitVec.ofNat 32 r.seq = w) then { r with ack := true } else r) ∧
            m.sil = s.node.sil ∧ OnlyIn [.i2c, .flt, .regs] s.node m)) ∧
        (∀ p b0 b1 b2 b3 : Byte, p.toNat < 128 → p.toNat % 4 = 0 → s.node.sil.fatal = false →
          (s.node.kindOf sill = 0 ∨ s.node.kindOf sill = 2 →
            Answers (.i2cWriteTransaction sill [p, b0]) s (fun m =>
              counts s.node Fld.i2cErrPartial m ∧ ptrOf m = p + 1 ∧ RegsBut [errs] s.node m ∧ OnlyIn [.i2c, .regs] s.node m)) ∧
          (∀ a, s.node.kindOf sill = 0 ∨ s.node.kindOf sill = 2 → s.node.apertureAddr sill p.toNat = some a →
            let done := n1.busWrite i2cSrc a [b0, b1, b2, b3]
            Answers (.i2cWriteTransaction sill [p, b0, b1, b2, b3]) s (fun m =>
              ptrOf m = p + 4 ∧ m.mem = done.mem ∧
              (done.rsp.ok = true → m.regs = done.regs) ∧
              (done.rsp.ok = false → counts done Fld.i2cErrPartial m ∧ RegsBut [errs] done m)))) ∧
        (∀ count : Nat, s.node.kindOf sill = 1 →
          let shown := fun (q : Nat) => if 0x80 ≤ q then ((s.node.windowWord sill (q / 4 * 4)) >>> (8 * (q % 4))).setWidth 8
            else match s.node.flt.ring.find? (fun r => decide (BitVec.ofNat 32 r.seq = x.rseq + BitVec.ofNat 32 (q / 32))) with
              | some r => ((recordWord r (q % 32 / 4)) >>> (8 * (q % 4))).setWidth 8
              | none => (0 : Byte)
          Answers (.i2cReadTransaction sill count) s (fun m =>
            m.i2c.acked = true ∧ m.i2c.read = (List.range count).map (fun j => shown ((ptr.toNat + j) % 256)) ∧
            ptrOf m = ptr + BitVec.ofNat 8 count ∧ OnlyIn [.i2c] s.node m)))) ∧
    (s.node.alive = true →
      Answers .i2cProtocolError s (fun m =>
        counts s.node Fld.i2cErrProtocol m ∧ (m.reg Node.i2cPage 0x010).getLsbD 0 = true ∧
        RegsBut [errs, event] s.node m ∧ OnlyIn [.regs] s.node m) ∧
      Answers .i2cSdaTimeout s (fun m =>
        counts s.node Fld.i2cErrTimeout m ∧ (m.reg Node.i2cPage 0x010).getLsbD 2 = true ∧
        RegsBut [errs, event] s.node m ∧ OnlyIn [.regs] s.node m)) ∧
    (∀ retry : Bool, s.node.sil.powered = true → LinesFollow s.node →
      let i := fun (o : BusOutcome) => if retry then Instr.attentionRetry o else .attentionSend o
      (s.node.attnDue = false → Answers (i .acknowledged) s (fun m => m.i2c = x ∧ OnlyIn [] s.node m)) ∧
      (s.node.attnDue = true →
        Answers (i .acknowledged) s (fun m =>
          m.i2c = { x with
            pend := 0
            attempts := 0
            message := [BitVec.ofNat 8 s.node.nodeAddr, x.pend.setWidth 8, BitVec.ofNat 8 s.node.flt.nextSeq,
              BitVec.ofNat 8 (s.node.flt.nextSeq / 256)]
            messages := x.messages + 1
            stuck := false } ∧ OnlyIn [.i2c] s.node m) ∧
        Answers (i .arbitrationLost) s (fun m => m.i2c = x ∧ OnlyIn [] s.node m) ∧
        Answers (i .namedAsTarget) s (fun m => m.i2c = x ∧ OnlyIn [] s.node m) ∧
        Answers (i .sdaStuck) s (fun m => m.i2c = { x with stuck := true } ∧ OnlyIn [.i2c] s.node m) ∧
        (x.attempts < 7 → Answers (i .notAcknowledged) s (fun m =>
          m.i2c.attempts = x.attempts + 1 ∧ m.i2c.pend = x.pend ∧ m.i2c.messages = x.messages ∧ OnlyIn [.i2c] s.node m)) ∧
        (7 ≤ x.attempts → Answers (i .notAcknowledged) s (fun m =>
          counts s.node Fld.i2cErrAttnFail m ∧ (m.reg Node.i2cPage 0x010).getLsbD 1 = true ∧ m.i2c.messages = x.messages ∧
          (m.i2c.given = true ∨ m.i2c.pend.getLsbD 3 = true) ∧ RegsBut [errs, event] s.node m ∧
          OnlyIn [.i2c, .regs] s.node m)))) ∧
    (∀ high, s.node.sil.powered = true → x.stuck = true → Answers (.stuckBusRetry high) s (fun m =>
      m.i2c.stuck = !high ∧ OnlyIn [.i2c] s.node m))

/-- R359 to R364: requests of the host, the link and its messages, and the commands of the flash. The model's own choices
in it: notes/assumptions/132.md, notes/assumptions/133.md, notes/assumptions/138.md, notes/assumptions/141.md and
notes/assumptions/145.md. -/
def Obligations.PcieAndFlash : Prop :=
  ∀ (s : State), s.node.sil.powered = true → FatalHalts s.node →
    let up := s.node.flag Node.pciPage Fld.pciStatLink = true
    let z := s.node.pci
    (∀ (bar2 : Bool) (o len : Nat) (write : Option (List Byte)),
      let req := Instr.pcieMemoryRequest bar2 o len write
      (¬up → Answers req s (fun m => OnlyIn [] s.node m)) ∧
      (up → s.node.sil.fatal = true → Answers req s (fun m =>
        m.pci.completion = .abort ∧ m.pci.data = [] ∧ OnlyIn [.pci] s.node m)) ∧
      (up → s.node.alive = true →
        let msix := ¬bar2 ∧ ((0x50000 ≤ o ∧ o < 0x50200) ∨ (0x51000 ≤ o ∧ o < 0x51008))
        let target := if bar2 then some (0x100000000 + o) else bar0 s.node o
        let src : Src := if bar2 then ⟨.core, 8⟩ else ⟨.pcie, 0⟩
        (¬msix → target = none →
          (write = none → Answers req s (fun m =>
            m.pci.completion = .success ∧ m.pci.data = List.replicate len 0 ∧
            m.fld Node.pciPage Fld.pciErrRead = Nat.min (s.node.fld Node.pciPage Fld.pciErrRead + 1) 65535 ∧
            RegsBut [regKey Node.pciPage 0x05C 0] s.node m ∧ OnlyIn [.pci, .regs] s.node m)) ∧
          (write ≠ none → Answers req s (fun m =>
            m.fld Node.pciPage Fld.pciErrWrite = Nat.min (s.node.fld Node.pciPage Fld.pciErrWrite + 1) 255 ∧
            RegsBut [regKey Node.pciPage 0x05C 0] s.node m ∧ OnlyIn [.pci, .regs] s.node m))) ∧
        (¬msix → ∀ a, target = some a →
          (write = none →
            let r := s.node.busRead src a len
            (r.2.rsp.ok = true → Answers req s (fun m =>
              m.pci.completion = .success ∧ m.pci.data = r.1 ∧ m.regs = r.2.regs ∧ m.mem = r.2.mem)) ∧
            (r.2.rsp.ok = false → Answers req s (fun m =>
              m.pci.data = List.replicate len 0 ∧ (m.pci.completion = .success ∨ m.pci.completion = .poisoned) ∧
              m.fld Node.pciPage Fld.pciErrRead = Nat.min (r.2.fld Node.pciPage Fld.pciErrRead + 1) 65535 ∧
              RegsBut [regKey Node.pciPage 0x05C 0] r.2 m ∧ m.mem = r.2.mem))) ∧
          (∀ bs, write = some bs →
            let w := s.node.busWrite src a bs
            Answers req s (fun m =>
              m.mem = w.mem ∧ m.pci.completion = .none ∧ (w.rsp.ok = true → m.regs = w.regs) ∧
              (w.rsp.ok = false → m.fld Node.pciPage Fld.pciErrWrite + m.fld Node.pciPage Fld.pciErrNarrow ≤
                w.fld Node.pciPage Fld.pciErrWrite + w.fld Node.pciPage Fld.pciErrNarrow + 1 ∧
                RegsBut [regKey Node.pciPage 0x05C 0] w m)))) ∧
        (∀ k : Nat, bar2 = false → k + len ≤ 512 → o = 0x50000 + k →
          (write = none → 0 < len → Answers req s (fun m =>
            m.pci.completion = .success ∧ m.pci.data = (List.range len).map (fun j => Sparse.get msixReset z.table (k + j)) ∧
            OnlyIn [.pci] s.node m)) ∧
          (∀ b, write = some [b] → k < 512 → Answers req s (fun m =>
            (∀ j < 512, Sparse.get msixReset m.pci.table j = if j = k then b else Sparse.get msixReset z.table j) ∧
            OnlyIn [.pci] s.node m))))) ∧
    (s.node.alive = true →
      (∀ (gen : Fin 4) (width : Fin 3), s.node.outOfReset = false → Answers (.pcieLinkUp gen width) s (fun m => OnlyIn [] s.node m)) ∧
      (∀ (gen : Fin 4) (width : Fin 3), gen ≠ 0 → width ≠ 0 → s.node.outOfReset = true → Answers (.pcieLinkUp gen width) s (fun m =>
        m.flag Node.pciPage Fld.pciStatLink = true ∧ m.fld Node.pciPage Fld.pciStatSpeed = gen.val ∧
        m.fld Node.pciPage Fld.pciStatWidth = width.val ∧ (m.reg Node.pciPage 0x010).getLsbD 0 = true ∧
        RegsBut [regKey Node.pciPage 0x040 0, regKey Node.pciPage 0x010 0] s.node m ∧ OnlyIn [.regs] s.node m)) ∧
      (up → Answers .pcieHotReset s (fun m =>
        m.reg Node.pciPage 0x040 = 0 ∧ (m.reg Node.pciPage 0x010).getLsbD 0 = true ∧
        RegsBut [regKey Node.pciPage 0x040 0, regKey Node.pciPage 0x010 0] s.node m ∧ OnlyIn [.regs] s.node m)) ∧
      (∀ v : Fin 32, up → s.node.vectors.getLsbD v = true → z.told.getLsbD v = false ∨ z.pba.getLsbD v = true →
        let masked := (Sparse.get msixReset z.table (16 * v.val + 12)).getLsbD 0
        Answers (.msixMessage v) s (fun m =>
          m.pci.told.getLsbD v = true ∧ m.pci.pba.getLsbD v = masked ∧
          m.pci.sent = (if masked then z.sent else z.sent ++ [v.val]) ∧ OnlyIn [.pci] s.node m)) ∧
      (∀ v : Fin 32, s.node.vectors.getLsbD v = false → Answers (.msixMessage v) s (fun m =>
        m.pci.sent = z.sent ∧ OnlyIn [] s.node m)) ∧
      (∀ (src : Src) (w : Word), Reachable s Node.pciPage → src.port ∉ (s.node.hdr Node.pciPage).keyArmed →
        Answers (.pciRearm src w) s (fun m =>
          m.rsp.ok = true ∧ (∀ v : Fin 32, w.getLsbD v = true → m.pci.told.getLsbD v = false) ∧ m.pci.sent = z.sent ∧
          OnlyIn [.rsp] s.node m)) ∧
      (∀ src : Src, Reachable s qspPage → src.port ∉ (s.node.hdr qspPage).keyArmed →
        (s.node.hdr qspPage).keyHolder = some src.port →
        let takes := fun (ins : Instr) (op : FlashOp) (bs : List Byte) =>
          let off := s.node.fld qspPage Fld.qspAddrAddr / opSize op * opSize op
          let clash := (∃ b, s.node.imageRuns = some b ∧ off < imageBase b + imageSpace ∧ imageBase b < off + opSize op) ∨
            off < 0x100000 ∨ s.node.cfg.owner.isSome = true ∨ s.node.flash.running.isSome = true
          (src.port = .core ∨ src.port = .pcie →
            (clash → Answers ins s (fun m =>
              m.flag qspPage Fld.qspStatRefused = true ∧ RegsBut [regKey qspPage 0x048 0] s.node m ∧
              OnlyIn [.regs, .rsp] s.node m)) ∧
            (¬clash → Answers ins s (fun m =>
              m.flash = { s.node.flash with running := some (op, off, bs) } ∧ m.flag qspPage Fld.qspStatBusy = true ∧
              RegsBut [regKey qspPage 0x048 0] s.node m ∧ OnlyIn [.regs, .rsp, .flash] s.node m))) ∧
          (src.port ≠ .core → src.port ≠ .pcie → Answers ins s (fun m => OnlyIn [.rsp] s.node m))
        takes (.erase4k src) .erase4k [] ∧ takes (.erase64k src) .erase64k [] ∧
        takes (.program src) .program
          ((List.range 64).flatMap (fun k => Node.leBytes (s.node.reg qspPage (0x100 + 4 * k)).toNat 4))) ∧
      (∀ (op : FlashOp) (off : Nat) (bs : List Byte), s.node.flash.running = some (op, off, bs) → s.node.cfg.waiting = none →
        Answers .qspiCommandEnd s (fun m =>
          m.flash.running = none ∧ m.flag qspPage Fld.qspStatBusy = false ∧ (m.reg qspPage 0x010).getLsbD 0 = true ∧
          (op ≠ .program → ∀ a, m.flashByte a = if off ≤ a ∧ a < off + opSize op then 0xFF else s.node.flashByte a) ∧
          (op = .program → ∀ a, m.flashByte a = if off ≤ a ∧ a < off + bs.length then bs.getD (a - off) 0
            else s.node.flashByte a) ∧
          RegsBut [regKey qspPage 0x048 0, regKey qspPage 0x010 0] s.node m ∧ OnlyIn [.regs, .flash] s.node m)))

/-! Power, boot and shutdown. -/

/-- R365 to R377, R25 and R322: resets and what they keep, the straps and the supply monitor, the census, the choice of
the firmware image, the first commit, the orderly shutdown, and the management cores. The model's own choices in it:
notes/assumptions/134.md, notes/assumptions/135.md, notes/assumptions/136.md, notes/assumptions/137.md and
notes/assumptions/139.md. -/
def Obligations.PowerAndBoot : Prop :=
  ∀ (s : State), FatalHalts s.node →
    let b := s.node.boot
    let z := s.node.sil
    let stage := s.node.fld sysPage Fld.sysBootStage
    let straps := regKey sysPage 0x048 0
    let kept := fun (k : Nat) => keyPage k = fltPage ∨ (keyPage k = silPage ∧ k ≠ regKey silPage 0x048 0) ∨ k = straps
    let hubReset := fun (own : List Page) (m : Node) =>
      (∀ k, keyPage k ≠ fltPage → keyPage k ≠ silPage → k ≠ straps → keyPage k ∉ own →
        Sparse.get resetKey m.regs k = resetKey k) ∧
      (∀ k, kept k → keyPage k ∉ own ∨ k = straps → Sparse.get resetKey m.regs k = Sparse.get resetKey s.node.regs k) ∧
      m.flag silPage Fld.silWdogEnable = false ∧ m.sil.wdogRunning = false ∧ m.sil.index = z.index ∧ m.sil.fatal = z.fatal ∧
      m.hdrs = [] ∧ m.phc = {} ∧ m.rt = {} ∧ m.clk.running = false ∧ m.mgmt.running = false ∧
      (∀ d, (m.die d).engines = ({} : DieSt).engines ∧ (m.die d).retiredBanks = 0) ∧
      m.mem = s.node.mem ∧ m.flash.bytes = s.node.flash.bytes ∧ m.flash.running = none ∧ m.flt = s.node.flt ∧
      m.sht.mutePin = s.node.sht.mutePin ∧ m.pins.refHeld = s.node.pins.refHeld
    let lost := fun (m : Node) => (∀ k, Sparse.get resetKey m.regs k = resetKey k) ∧ m.mem = [] ∧ m.flt = {} ∧
      m.sil.fatal = false ∧ m.flash.bytes = s.node.flash.bytes ∧ m.clk.now = s.node.clk.now
    (z.powered = true → Answers .porAssert s (fun m =>
      hubReset [] m ∧ m.sil.por = true ∧ m.alive = false ∧ m.boot.strapped = false ∧ m.pins.rail = .highZ)) ∧
    (z.powered = true → z.por = true → Answers .porRelease s (fun m =>
      m.sil = { z with por := false } ∧
      m.records = s.node.records.map (fun r => if r.cls < 3 then { r with ack := true } else r) ∧
      m.pins.rail = .highZ ∧ OnlyIn [.sil, .flt, .pins, .regs] s.node m)) ∧
    (∀ balls : BitVec 7, z.powered = true → z.por = false → b.strapped = false → Answers (.strapLatch balls) s (fun m =>
      m.boot = { b with strapped := true } ∧ m.i2c.straps = some (balls.setWidth 6) ∧
      m.fld sysPage Fld.sysStrapsRaw = balls.toNat ∧
      m.fld sysPage Fld.sysBootStage = (if b.railOut = false ∧ stage = 0 then 1 else stage) ∧
      RegsIn [sysPage] s.node m ∧ OnlyIn [.boot, .i2c, .regs] s.node m)) ∧
    (z.powered = true → z.por = false → b.strapped = false → b.railOut = false → Answers (.railOutOfRange true) s (fun m =>
      hubReset [] m ∧ m.boot.railOut = true ∧ m.alive = false)) ∧
    (z.powered = true → z.por = false → b.railOut = true → Answers (.railOutOfRange false) s (fun m =>
      m.boot = { b with railOut := false } ∧ m.flt = s.node.flt ∧
      m.fld sysPage Fld.sysBootStage = (if b.strapped = true ∧ stage = 0 then 1 else stage) ∧
      RegsIn [sysPage] s.node m ∧ OnlyIn [.boot, .regs] s.node m)) ∧
    Answers .vddSillLoss s (fun m =>
      lost m ∧ m.sil.powered = false ∧ m.pins.rail = .undriven ∧ m.pins.clocked = .undriven ∧
      (b.drvHeld = true → ∀ c < 192, (m.drv c).pins = .undriven)) ∧
    (z.powered = false → Answers .vddSillPowerUp s (fun m =>
      lost m ∧ m.sil.powered = true ∧ m.sil.por = true ∧ m.boot.strapped = false)) ∧
    (s.node.alive = true →
      (∀ (present failed : BitVec 6) (drive driveFailed : Bool) (stepping : BitVec 4) (lanes : List (Fin 7 × Fin 2 × Word)),
        stage = 1 → failed &&& present = failed →
        (driveFailed = true → drive = true) →
        let variant := if present = 0x01 ∧ drive = false then 2 else if present = 0x07 ∧ drive = true then 5
          else if present = 0x3F ∧ drive = true then 8 else 0xF
        let there := fun (k : Fin 7) => if k.val = 6 then drive else present.getLsbD k
        let fails := fun (k : Fin 7) => if k.val = 6 then driveFailed else failed.getLsbD k
        Answers (.bootCensus present drive failed driveFailed stepping lanes) s (fun m =>
          (∀ (k : Fin 7) (l : Fin 2), there k = true → (s.node.die k).links.length = 2 →
            (m.link k l).trained = true ∧
            (fails k = true → (m.link k l).down = true) ∧
            (fails k = false → (m.link k l).down = (s.node.link k l).down ∧
              (∀ w, lanes.filter (fun e => decide (e.1 = k ∧ e.2.1 = l)) = [(k, l, w)] →
                (m.link k l).lanes = (s.node.link k l).lanes ||| w ∧ (w ≠ 0 → (m.link k l).training = true)))) ∧
          (∀ k : Fin 7, there k = false → m.die k = s.node.die k) ∧
          m.boot.engPresent = present &&& ~~~failed ∧ m.boot.drvPresent = (drive && !driveFailed) ∧
          m.fld sysPage Fld.sysCensusStepping = stepping.toNat ∧ m.fld sysPage Fld.sysCensusVariant = variant ∧
          m.fld sysPage Fld.sysCensusEngFailed = failed.toNat ∧ m.fld sysPage Fld.sysCensusEngPresent = present.toNat ∧
          m.flag sysPage Fld.sysCensusDrvFailed = driveFailed ∧ m.flag sysPage Fld.sysCensusDrvPresent = drive ∧
          m.fld sysPage Fld.sysBootStage = 2 ∧
          (variant ≠ 0xF → failed = 0 → driveFailed = false → m.flt = s.node.flt) ∧
          (variant = 0xF → failed = 0 → driveFailed = false → Raised sysPage 3 s.node m) ∧
          (variant ≠ 0xF → failed = 0 → driveFailed = true → Raised sysPage 4 s.node m) ∧
          OnlyIn (.boot :: .dies :: faultParts) s.node m)) ∧
      (∀ sigA sigB : Bool, stage = 2 →
        let size := fun (i : Bool) => (s.node.flashWord (imageBase i + 12)).toNat
        let candidate := fun (i : Bool) => s.node.flashWord (imageBase i) = imageMagic ∧ size i ≤ 7339776
        let sound := fun (i : Bool) => (if i then sigB else sigA) = true ∧
          s.node.flashBroken (imageBase i) (256 + size i) = false
        let seq := fun (i : Bool) => (s.node.flashWord (imageBase i + 8)).toNat
        let first := fun (i : Bool) => candidate i ∧
          (candidate (!i) → if i then seq false < seq true else seq true ≤ seq false)
        let result := fun (i : Bool) => if i then Fld.sysBootResultB else Fld.sysBootResultA
        let runs := fun (i : Bool) (m : Node) =>
          m.fld sysPage (result i) = 1 ∧ m.fld sysPage Fld.sysBootStage = 3 ∧ m.mgmt.running = true ∧
          m.flag mtxPage Fld.mtxRemapRemap = true ∧ (∀ r ∈ m.mtx.outstanding, r ∈ s.node.mtx.outstanding ∧ 2 ≤ r.target) ∧
          (∀ r ∈ s.node.mtx.outstanding, 2 ≤ r.target → r ∈ m.mtx.outstanding) ∧ m.flag secPage Fld.secStatImage = i ∧
          m.reg secPage 0x044 = s.node.flashWord (imageBase i + 8) ∧
          (∀ j < size i, m.rdByte (workBase + j) = s.node.flashByte (imageBase i + 256 + j)) ∧ MemBut workBase (size i) s.node m
        (∀ i, first i → sound i → Answers (.bootImageVerified sigA sigB) s (fun m =>
          runs i m ∧ m.flt = s.node.flt ∧ (¬candidate (!i) → m.fld sysPage (result (!i)) = 2) ∧
          RegsIn [sysPage, secPage, mtxPage] s.node m ∧ OnlyIn [.regs, .mem, .mgmt, .mtx] s.node m)) ∧
        (∀ i, first i → ¬sound i → candidate (!i) → sound (!i) → Answers (.bootImageVerified sigA sigB) s (fun m =>
          Raised sysPage 2 s.node m ∧ m.fld sysPage (result i) = 3 ∧ (m.sil.fatal = false → runs (!i) m))) ∧
        (¬candidate false → ¬candidate true → Answers (.bootImageVerified sigA sigB) s (fun m =>
          Raised sysPage 1 s.node m ∧ m.fld sysPage Fld.sysBootStage = 9 ∧ m.fld sysPage (result false) = 2 ∧
          m.fld sysPage (result true) = 2 ∧ m.fld Node.casPage Fld.pgCtrlEnable = 1 ∧
          m.flag secPage Fld.secStatImage = s.node.flag secPage Fld.secStatImage))) ∧
      (s.node.mgmt.running = true →
        (∀ num : Nat, b.job = some num → stage = 7 →
          s.node.refState = 2 ∨ b.clockWaited = true ∨ b.clockWait = 0 ∨ s.node.fld refPage Fld.refCtrlMode = 3 →
          s.node.running = true → s.node.mayStage = true → s.node.rt.inForce = false →
          (∃ j ∈ s.node.rt.jobs, j.num = num ∧ j.state = .admitted) →
          (∀ j ∈ s.node.rt.jobs, j.num ≠ num → j.state ≠ .admitted) → Answers .firstCommit s (fun m =>
            (∃ j ∈ m.rt.jobs, j.num = num ∧ j.state = .staged) ∧ m.cas.groupReq = true ∧ m.rt.cfg = s.node.rt.cfg)) ∧
        (stage ≠ 7 → Answers .firstCommit s (fun m => OnlyIn [] s.node m)) ∧
        (∀ slot : Fin 4, s.node.slotBusy slot = true → s.node.lengthBad slot = false →
          let answers := fun (i : Instr) (code : Nat) (detail : Option Nat) (data : List Word) =>
            Answers i s (fun m => Answered slot code detail data s.node m ∧ OnlyIn answerParts s.node m)
          answers (.systemVersion slot) 0 none [Config.bootRomVersion,
            s.node.flashWord (imageBase (s.node.flag secPage Fld.secStatImage) + 4), s.node.reg secPage 0x044,
            s.node.reg sysPage 0x04C, Config.eui.setWidth 32, (Config.eui >>> 32).setWidth 32] ∧
          (∀ k : Nat, (k ≠ 0 → k = b.shutdownJob → answers (.systemStatus slot k) 0 (some stage) []) ∧
            (k = 0 ∨ k ≠ b.shutdownJob → answers (.systemStatus slot k) 6 none [])) ∧
          (s.node.stagedJob.isSome = true ∨ b.shutdown ≠ 0 → answers (.systemShutdown slot) 2 none []) ∧
          (s.node.stagedJob = none → b.shutdown = 0 → Answers (.systemShutdown slot) s (fun m =>
            m.fld sysPage Fld.sysBootStage = 0xA ∧ m.boot.shutdown = 1 ∧ m.boot.shutdownJob = b.shutdownJob % 255 + 1 ∧
            m.boot.shutdownSlot = slot.val ∧ m.fld hngPage Fld.pgCtrlEnable = 0 ∧ m.slotBusy slot = false ∧
            (m.reg mgtPage (responseOff slot + 4)).toNat = (b.shutdownJob % 255 + 1) * 256 + 1 ∧ m.mem = s.node.mem))) ∧
        (∀ k : Nat, b.shutdown = k → 1 ≤ k → k ≤ 5 → (∀ p ∈ Node.shutdownPages k, (s.node.hdr p).busy = false) →
          Answers .shutdownStepEnd s (fun m =>
            m.boot.shutdown = k + 1 ∧ (k = 5 → m.fld sysPage Fld.sysBootStage = 0xB) ∧
            (∀ p ∈ Node.shutdownPages (k + 1), s.node.pagePresent p = true → m.fld p Fld.pgCtrlEnable = 0)))) ∧
      ((s.node.hdr refPage).active = true → Answers .clockWaitExpiry s (fun m =>
        m.boot = { b with clockWaited := true } ∧ OnlyIn [.boot] s.node m)) ∧
      (∀ src : Src, Reachable s sysPage → src.port ∉ (s.node.hdr sysPage).keyArmed →
        ((s.node.hdr sysPage).keyHolder = some src.port → Answers (.sysReboot src) s (fun m =>
          m.rsp.ok = true ∧ hubReset [sysPage] m ∧ m.fld sysPage Fld.sysBootStage = 1 ∧ m.sil.por = z.por ∧
          m.boot.strapped = b.strapped)) ∧
        ((s.node.hdr sysPage).keyHolder ≠ some src.port → Answers (.sysReboot src) s (fun m =>
          m.rsp.ok = true ∧ m.boot = b ∧ m.fld sysPage Fld.sysBootStage = stage ∧
          RegsBut [regKey sysPage 0x028 0] s.node m ∧ OnlyIn [.regs, .rsp] s.node m))) ∧
      Answers .managementCoresStop s (fun m => m.mgmt.running = false ∧ OnlyIn [.mgmt] s.node m) ∧
      (s.node.imageRuns.isSome = true → Answers .managementCoresResume s (fun m =>
        m.mgmt.running = true ∧
        ((∀ c, (s.node.reed c).poisonedData = [] ∧ (s.node.reed c).poisonedProg = []) → OnlyIn [.mgmt] s.node m) ∧
        (∀ c, (m.reed c).poisonedData = [] ∧
          (m.reed c).poisonedProg = (s.node.reed c).poisonedProg.filter (fun a => (s.node.progCopy c a).isNone)) ∧
        OnlyIn [.mgmt, .reeds, .reedMem, .reedProg] s.node m)))
end

