-- ==== Sys2Proof/Laws/Sparse.lean ====
section
/-! SUPPORT. The sparse map: what a read gives after a write, and that every operation keeps the canonical form. -/

namespace Sys2Proof.Sparse

variable {β : Type}

@[simp] theorem get_nil (d : Nat → β) (k : Nat) : get d [] k = d k := rfl

theorem get_cons (d : Nat → β) (a k : Nat) (v : β) (m : Sparse β) :
    get d ((a, v) :: m) k = if k = a then v else get d m k := rfl

theorem get_erase (d : Nat → β) (m : Sparse β) (k j : Nat) :
    get d (erase m k) j = if j = k then d k else get d m j := by
  induction m with
  | nil => by_cases h : j = k <;> simp [erase, h]
  | cons e m ih =>
    obtain ⟨a, v⟩ := e
    by_cases hk : k = a
    · subst hk
      simp only [erase, if_true, ih, get_cons]
      split <;> simp_all
    · simp only [erase, hk, if_false, get_cons, ih]
      by_cases hj : j = a
      · simp [hj, Ne.symm hk]
      · simp [hj]

theorem get_insert (d : Nat → β) (m : Sparse β) (k j : Nat) (v : β) :
    get d (insert m k v) j = if j = k then v else get d m j := by
  induction m with
  | nil => simp [insert, get_cons]
  | cons e m ih =>
    obtain ⟨a, w⟩ := e
    simp only [insert]
    split
    · next h => subst h; simp only [get_cons]; split <;> rfl
    · next h =>
      split
      · simp only [get_cons]
      · simp only [get_cons, ih]
        by_cases hj : j = a
        · subst hj; simp [Ne.symm h]
        · simp [hj]

/-- A read after a write: the written value at its key, and every other key as before. -/
theorem get_set [DecidableEq β] (d : Nat → β) (m : Sparse β) (k j : Nat) (v : β) :
    get d (set d m k v) j = if j = k then v else get d m j := by
  unfold set
  split
  · next h => rw [get_erase, ← h]
  · exact get_insert d m k j v

@[simp] theorem get_set_same [DecidableEq β] (d : Nat → β) (m : Sparse β) (k : Nat) (v : β) :
    get d (set d m k v) k = v := by simp [get_set]

theorem get_set_ne [DecidableEq β] (d : Nat → β) (m : Sparse β) {k j : Nat} (v : β) (h : j ≠ k) :
    get d (set d m k v) j = get d m j := by simp [get_set, h]

/-! The canonical form. -/

theorem sortedFrom_mono {lo lo' : Nat} (m : Sparse β) (h : lo' ≤ lo) (hm : sortedFrom lo m = true) :
    sortedFrom lo' m = true := by
  cases m with
  | nil => rfl
  | cons e m => obtain ⟨a, v⟩ := e; simp_all [sortedFrom]; omega

theorem sortedFrom_erase (m : Sparse β) (k lo : Nat) (h : sortedFrom lo m = true) : sortedFrom lo (erase m k) = true := by
  induction m generalizing lo with
  | nil => rfl
  | cons e m ih =>
    obtain ⟨a, v⟩ := e
    simp only [sortedFrom, Bool.and_eq_true, decide_eq_true_eq] at h
    simp only [erase]
    split
    · exact ih lo (sortedFrom_mono m (by omega) h.2)
    · simp [sortedFrom, h.1, ih _ h.2]

theorem sortedFrom_insert (m : Sparse β) (k lo : Nat) (v : β) (hk : lo ≤ k) (h : sortedFrom lo m = true) :
    sortedFrom lo (insert m k v) = true := by
  induction m generalizing lo with
  | nil => simp [insert, sortedFrom, hk]
  | cons e m ih =>
    obtain ⟨a, w⟩ := e
    simp only [sortedFrom, Bool.and_eq_true, decide_eq_true_eq] at h
    simp only [insert]
    split
    · next e => subst e; simp [sortedFrom, h.1, h.2]
    · split
      · simp [sortedFrom, hk, h.2]; omega
      · simp [sortedFrom, h.1]
        exact ih _ (by omega) h.2

theorem noDefault_erase [DecidableEq β] (d : Nat → β) (m : Sparse β) (k : Nat) (h : noDefault d m = true) :
    noDefault d (erase m k) = true := by
  induction m with
  | nil => rfl
  | cons e m ih =>
    obtain ⟨a, v⟩ := e
    simp only [noDefault, Bool.and_eq_true] at h
    simp only [erase]
    split
    · exact ih h.2
    · simp only [noDefault, Bool.and_eq_true]; exact ⟨h.1, ih h.2⟩

theorem noDefault_insert [DecidableEq β] (d : Nat → β) (m : Sparse β) (k : Nat) (v : β) (hv : v ≠ d k)
    (h : noDefault d m = true) : noDefault d (insert m k v) = true := by
  induction m with
  | nil => simp [insert, noDefault, hv]
  | cons e m ih =>
    obtain ⟨a, w⟩ := e
    simp only [noDefault, Bool.and_eq_true] at h
    simp only [insert]
    split
    · simp [noDefault, hv, h.2]
    · split
      · simp only [noDefault, Bool.and_eq_true]; exact ⟨by simpa using hv, h.1, h.2⟩
      · simp only [noDefault, Bool.and_eq_true]; exact ⟨h.1, ih h.2⟩

/-- A write keeps the canonical form. -/
theorem wf_set [DecidableEq β] (d : Nat → β) (m : Sparse β) (k : Nat) (v : β) (h : wf d m = true) :
    wf d (set d m k v) = true := by
  simp only [wf, Bool.and_eq_true] at h ⊢
  unfold set
  split
  · exact ⟨sortedFrom_erase m k 0 h.1, noDefault_erase d m k h.2⟩
  · next hv => exact ⟨sortedFrom_insert m k 0 v (Nat.zero_le k) h.1, noDefault_insert d m k v hv h.2⟩

theorem sortedFrom_filter (m : Sparse β) (f : Nat × β → Bool) (lo : Nat) (h : sortedFrom lo m = true) :
    sortedFrom lo (m.filter f) = true := by
  induction m generalizing lo with
  | nil => rfl
  | cons e m ih =>
    obtain ⟨a, v⟩ := e
    simp only [sortedFrom, Bool.and_eq_true, decide_eq_true_eq] at h
    rw [List.filter_cons]
    split
    · simp [sortedFrom, h.1, ih _ h.2]
    · exact ih lo (sortedFrom_mono m (by omega) h.2)

theorem noDefault_filter [DecidableEq β] (d : Nat → β) (m : Sparse β) (f : Nat × β → Bool) (h : noDefault d m = true) :
    noDefault d (m.filter f) = true := by
  induction m with
  | nil => rfl
  | cons e m ih =>
    obtain ⟨a, v⟩ := e
    simp only [noDefault, Bool.and_eq_true] at h
    rw [List.filter_cons]
    split
    · simp only [noDefault, Bool.and_eq_true]; exact ⟨h.1, ih h.2⟩
    · exact ih h.2

/-- Leaving entries out keeps the canonical form. -/
theorem wf_filter [DecidableEq β] (d : Nat → β) (m : Sparse β) (f : Nat × β → Bool) (h : wf d m = true) :
    wf d (m.filter f) = true := by
  simp only [wf, Bool.and_eq_true] at h ⊢
  exact ⟨sortedFrom_filter m f 0 h.1, noDefault_filter d m f h.2⟩

end Sys2Proof.Sparse
end

