-- ==== Sys2Proof/Laws/Fields.lean ====
section
/-! SUPPORT. Fields of a register word: what a read gives after a write, and that a write leaves the other fields alone. -/

namespace Sys2Proof.Machine

theorem testBit_wordField (w : Word) (f : Field) (i : Nat) :
    (wordField w f).testBit i = (decide (i < f.hi + 1 - f.lo) && w.getLsbD (f.lo + i)) := by
  rw [wordField, Nat.testBit_mod_two_pow, Nat.testBit_div_two_pow]
  simp [BitVec.getLsbD, Nat.add_comm]

theorem getLsbD_setWordField (w : Word) (f : Field) (v i : Nat) :
    (setWordField w f v).getLsbD i =
      if i < 32 ∧ f.lo ≤ i ∧ i ≤ f.hi then v.testBit (i - f.lo) else w.getLsbD i := by
  simp only [setWordField, BitVec.getLsbD_or, BitVec.getLsbD_and, BitVec.getLsbD_not, BitVec.getLsbD_shiftLeft,
    BitVec.getLsbD_ofNat, Nat.testBit_two_pow_sub_one]
  by_cases h1 : i < 32
  · by_cases h2 : f.lo ≤ i
    · have h5 : i - f.lo < 32 := by omega
      by_cases h3 : i ≤ f.hi
      · have h4 : i - f.lo < f.hi + 1 - f.lo := by omega
        simp [h1, h2, h3, h4, h5, Nat.not_lt.mpr h2]
      · have h4 : ¬ i - f.lo < f.hi + 1 - f.lo := by omega
        simp [h1, h3, h4]
    · have h6 : i < f.lo := by omega
      simp [h1, h2, h6]
  · have : w.getLsbD i = false := BitVec.getLsbD_of_ge w i (by omega)
    simp [h1, this]

/-- A written field reads as the value cut to its width. -/
theorem wordField_setWordField_same (w : Word) (f : Field) (v : Nat) (h : f.hi < 32) :
    wordField (setWordField w f v) f = v % 2 ^ (f.hi + 1 - f.lo) := by
  apply Nat.eq_of_testBit_eq
  intro i
  rw [testBit_wordField, getLsbD_setWordField, Nat.testBit_mod_two_pow]
  by_cases hi : i < f.hi + 1 - f.lo
  · have h1 : f.lo + i < 32 ∧ f.lo ≤ f.lo + i ∧ f.lo + i ≤ f.hi := by omega
    rw [if_pos h1, Nat.add_sub_cancel_left]
  · simp [hi]

/-- A field that does not overlap the written one reads as before. -/
theorem wordField_setWordField_ne (w : Word) (f g : Field) (v : Nat) (h : g.hi < f.lo ∨ f.hi < g.lo) :
    wordField (setWordField w f v) g = wordField w g := by
  apply Nat.eq_of_testBit_eq
  intro i
  rw [testBit_wordField, testBit_wordField, getLsbD_setWordField]
  by_cases hi : i < g.hi + 1 - g.lo
  · have h1 : ¬(g.lo + i < 32 ∧ f.lo ≤ g.lo + i ∧ g.lo + i ≤ f.hi) := by omega
    rw [if_neg h1]
  · simp [hi]

end Sys2Proof.Machine
end

