-- ==== Sys2Proof/Laws/State.lean ====
section
/-! SUPPORT. Laws of the state: what each named operation leaves alone, part by part, and what a read of a register gives
after a write. -/

namespace Sys2Proof.Machine

open Sys2Proof (Word Byte Sparse Page)

namespace Node

theorem with_regs_active (n : Node) (r : Regs) : ({ n with regs := r } : Node).active = n.active := rfl
theorem with_regs_hdrs (n : Node) (r : Regs) : ({ n with regs := r } : Node).hdrs = n.hdrs := rfl
theorem with_regs_mem (n : Node) (r : Regs) : ({ n with regs := r } : Node).mem = n.mem := rfl
theorem with_regs_clk (n : Node) (r : Regs) : ({ n with regs := r } : Node).clk = n.clk := rfl
theorem with_regs_cas (n : Node) (r : Regs) : ({ n with regs := r } : Node).cas = n.cas := rfl
theorem with_regs_rt (n : Node) (r : Regs) : ({ n with regs := r } : Node).rt = n.rt := rfl
theorem with_regs_sht (n : Node) (r : Regs) : ({ n with regs := r } : Node).sht = n.sht := rfl
theorem with_regs_strips (n : Node) (r : Regs) : ({ n with regs := r } : Node).strips = n.strips := rfl
theorem with_regs_dies (n : Node) (r : Regs) : ({ n with regs := r } : Node).dies = n.dies := rfl
theorem with_regs_xpt (n : Node) (r : Regs) : ({ n with regs := r } : Node).xpt = n.xpt := rfl
theorem with_regs_mtx (n : Node) (r : Regs) : ({ n with regs := r } : Node).mtx = n.mtx := rfl
theorem with_regs_flt (n : Node) (r : Regs) : ({ n with regs := r } : Node).flt = n.flt := rfl
theorem with_regs_sil (n : Node) (r : Regs) : ({ n with regs := r } : Node).sil = n.sil := rfl
theorem with_regs_phc (n : Node) (r : Regs) : ({ n with regs := r } : Node).phc = n.phc := rfl
theorem with_regs_boot (n : Node) (r : Regs) : ({ n with regs := r } : Node).boot = n.boot := rfl
theorem with_regs_mgmt (n : Node) (r : Regs) : ({ n with regs := r } : Node).mgmt = n.mgmt := rfl
theorem with_regs_pins (n : Node) (r : Regs) : ({ n with regs := r } : Node).pins = n.pins := rfl
theorem with_regs_rsp (n : Node) (r : Regs) : ({ n with regs := r } : Node).rsp = n.rsp := rfl
theorem with_regs_free (n : Node) (r : Regs) : ({ n with regs := r } : Node).free = n.free := rfl
theorem with_regs_reeds (n : Node) (r : Regs) : ({ n with regs := r } : Node).reeds = n.reeds := rfl
theorem with_regs_reedMem (n : Node) (r : Regs) : ({ n with regs := r } : Node).reedMem = n.reedMem := rfl
theorem with_regs_reedProg (n : Node) (r : Regs) : ({ n with regs := r } : Node).reedProg = n.reedProg := rfl
theorem with_regs_str (n : Node) (r : Regs) : ({ n with regs := r } : Node).str = n.str := rfl
theorem with_regs_macs (n : Node) (r : Regs) : ({ n with regs := r } : Node).macs = n.macs := rfl
theorem with_regs_ptp (n : Node) (r : Regs) : ({ n with regs := r } : Node).ptp = n.ptp := rfl
theorem with_regs_refs (n : Node) (r : Regs) : ({ n with regs := r } : Node).refs = n.refs := rfl
theorem with_regs_loc (n : Node) (r : Regs) : ({ n with regs := r } : Node).loc = n.loc := rfl
theorem with_regs_drive (n : Node) (r : Regs) : ({ n with regs := r } : Node).drive = n.drive := rfl
theorem with_regs_dram (n : Node) (r : Regs) : ({ n with regs := r } : Node).dram = n.dram := rfl
theorem with_regs_hng (n : Node) (r : Regs) : ({ n with regs := r } : Node).hng = n.hng := rfl
theorem with_regs_cfg (n : Node) (r : Regs) : ({ n with regs := r } : Node).cfg = n.cfg := rfl
theorem with_regs_i2c (n : Node) (r : Regs) : ({ n with regs := r } : Node).i2c = n.i2c := rfl
theorem with_regs_pci (n : Node) (r : Regs) : ({ n with regs := r } : Node).pci = n.pci := rfl
theorem with_regs_flash (n : Node) (r : Regs) : ({ n with regs := r } : Node).flash = n.flash := rfl
theorem with_regs_io (n : Node) (r : Regs) : ({ n with regs := r } : Node).io = n.io := rfl

theorem with_active_regs (n : Node) (r : Regs) : ({ n with active := r } : Node).regs = n.regs := rfl
theorem with_active_hdrs (n : Node) (r : Regs) : ({ n with active := r } : Node).hdrs = n.hdrs := rfl
theorem with_active_mem (n : Node) (r : Regs) : ({ n with active := r } : Node).mem = n.mem := rfl
theorem with_active_clk (n : Node) (r : Regs) : ({ n with active := r } : Node).clk = n.clk := rfl
theorem with_active_cas (n : Node) (r : Regs) : ({ n with active := r } : Node).cas = n.cas := rfl
theorem with_active_rt (n : Node) (r : Regs) : ({ n with active := r } : Node).rt = n.rt := rfl
theorem with_active_sht (n : Node) (r : Regs) : ({ n with active := r } : Node).sht = n.sht := rfl
theorem with_active_strips (n : Node) (r : Regs) : ({ n with active := r } : Node).strips = n.strips := rfl
theorem with_active_dies (n : Node) (r : Regs) : ({ n with active := r } : Node).dies = n.dies := rfl
theorem with_active_xpt (n : Node) (r : Regs) : ({ n with active := r } : Node).xpt = n.xpt := rfl
theorem with_active_mtx (n : Node) (r : Regs) : ({ n with active := r } : Node).mtx = n.mtx := rfl
theorem with_active_flt (n : Node) (r : Regs) : ({ n with active := r } : Node).flt = n.flt := rfl
theorem with_active_sil (n : Node) (r : Regs) : ({ n with active := r } : Node).sil = n.sil := rfl
theorem with_active_phc (n : Node) (r : Regs) : ({ n with active := r } : Node).phc = n.phc := rfl
theorem with_active_boot (n : Node) (r : Regs) : ({ n with active := r } : Node).boot = n.boot := rfl
theorem with_active_mgmt (n : Node) (r : Regs) : ({ n with active := r } : Node).mgmt = n.mgmt := rfl
theorem with_active_pins (n : Node) (r : Regs) : ({ n with active := r } : Node).pins = n.pins := rfl
theorem with_active_rsp (n : Node) (r : Regs) : ({ n with active := r } : Node).rsp = n.rsp := rfl
theorem with_active_free (n : Node) (r : Regs) : ({ n with active := r } : Node).free = n.free := rfl
theorem with_active_reeds (n : Node) (r : Regs) : ({ n with active := r } : Node).reeds = n.reeds := rfl
theorem with_active_reedMem (n : Node) (r : Regs) : ({ n with active := r } : Node).reedMem = n.reedMem := rfl
theorem with_active_reedProg (n : Node) (r : Regs) : ({ n with active := r } : Node).reedProg = n.reedProg := rfl
theorem with_active_str (n : Node) (r : Regs) : ({ n with active := r } : Node).str = n.str := rfl
theorem with_active_macs (n : Node) (r : Regs) : ({ n with active := r } : Node).macs = n.macs := rfl
theorem with_active_ptp (n : Node) (r : Regs) : ({ n with active := r } : Node).ptp = n.ptp := rfl
theorem with_active_refs (n : Node) (r : Regs) : ({ n with active := r } : Node).refs = n.refs := rfl
theorem with_active_loc (n : Node) (r : Regs) : ({ n with active := r } : Node).loc = n.loc := rfl
theorem with_active_drive (n : Node) (r : Regs) : ({ n with active := r } : Node).drive = n.drive := rfl
theorem with_active_dram (n : Node) (r : Regs) : ({ n with active := r } : Node).dram = n.dram := rfl
theorem with_active_hng (n : Node) (r : Regs) : ({ n with active := r } : Node).hng = n.hng := rfl
theorem with_active_cfg (n : Node) (r : Regs) : ({ n with active := r } : Node).cfg = n.cfg := rfl
theorem with_active_i2c (n : Node) (r : Regs) : ({ n with active := r } : Node).i2c = n.i2c := rfl
theorem with_active_pci (n : Node) (r : Regs) : ({ n with active := r } : Node).pci = n.pci := rfl
theorem with_active_flash (n : Node) (r : Regs) : ({ n with active := r } : Node).flash = n.flash := rfl
theorem with_active_io (n : Node) (r : Regs) : ({ n with active := r } : Node).io = n.io := rfl

@[simp] theorem setReg_active (n : Node) (p : Page) (off : Nat) (v : Word) (i : Nat) : (n.setReg p off v i).active = n.active := with_regs_active n _
@[simp] theorem setReg_hdrs (n : Node) (p : Page) (off : Nat) (v : Word) (i : Nat) : (n.setReg p off v i).hdrs = n.hdrs := with_regs_hdrs n _
@[simp] theorem setReg_mem (n : Node) (p : Page) (off : Nat) (v : Word) (i : Nat) : (n.setReg p off v i).mem = n.mem := with_regs_mem n _
@[simp] theorem setReg_clk (n : Node) (p : Page) (off : Nat) (v : Word) (i : Nat) : (n.setReg p off v i).clk = n.clk := with_regs_clk n _
@[simp] theorem setReg_cas (n : Node) (p : Page) (off : Nat) (v : Word) (i : Nat) : (n.setReg p off v i).cas = n.cas := with_regs_cas n _
@[simp] theorem setReg_rt (n : Node) (p : Page) (off : Nat) (v : Word) (i : Nat) : (n.setReg p off v i).rt = n.rt := with_regs_rt n _
@[simp] theorem setReg_sht (n : Node) (p : Page) (off : Nat) (v : Word) (i : Nat) : (n.setReg p off v i).sht = n.sht := with_regs_sht n _
@[simp] theorem setReg_strips (n : Node) (p : Page) (off : Nat) (v : Word) (i : Nat) : (n.setReg p off v i).strips = n.strips := with_regs_strips n _
@[simp] theorem setReg_dies (n : Node) (p : Page) (off : Nat) (v : Word) (i : Nat) : (n.setReg p off v i).dies = n.dies := with_regs_dies n _
@[simp] theorem setReg_xpt (n : Node) (p : Page) (off : Nat) (v : Word) (i : Nat) : (n.setReg p off v i).xpt = n.xpt := with_regs_xpt n _
@[simp] theorem setReg_mtx (n : Node) (p : Page) (off : Nat) (v : Word) (i : Nat) : (n.setReg p off v i).mtx = n.mtx := with_regs_mtx n _
@[simp] theorem setReg_flt (n : Node) (p : Page) (off : Nat) (v : Word) (i : Nat) : (n.setReg p off v i).flt = n.flt := with_regs_flt n _
@[simp] theorem setReg_sil (n : Node) (p : Page) (off : Nat) (v : Word) (i : Nat) : (n.setReg p off v i).sil = n.sil := with_regs_sil n _
@[simp] theorem setReg_phc (n : Node) (p : Page) (off : Nat) (v : Word) (i : Nat) : (n.setReg p off v i).phc = n.phc := with_regs_phc n _
@[simp] theorem setReg_boot (n : Node) (p : Page) (off : Nat) (v : Word) (i : Nat) : (n.setReg p off v i).boot = n.boot := with_regs_boot n _
@[simp] theorem setReg_mgmt (n : Node) (p : Page) (off : Nat) (v : Word) (i : Nat) : (n.setReg p off v i).mgmt = n.mgmt := with_regs_mgmt n _
@[simp] theorem setReg_pins (n : Node) (p : Page) (off : Nat) (v : Word) (i : Nat) : (n.setReg p off v i).pins = n.pins := with_regs_pins n _
@[simp] theorem setReg_rsp (n : Node) (p : Page) (off : Nat) (v : Word) (i : Nat) : (n.setReg p off v i).rsp = n.rsp := with_regs_rsp n _
@[simp] theorem setReg_free (n : Node) (p : Page) (off : Nat) (v : Word) (i : Nat) : (n.setReg p off v i).free = n.free := with_regs_free n _
@[simp] theorem setReg_reeds (n : Node) (p : Page) (off : Nat) (v : Word) (i : Nat) : (n.setReg p off v i).reeds = n.reeds := with_regs_reeds n _
@[simp] theorem setReg_reedMem (n : Node) (p : Page) (off : Nat) (v : Word) (i : Nat) : (n.setReg p off v i).reedMem = n.reedMem := with_regs_reedMem n _
@[simp] theorem setReg_reedProg (n : Node) (p : Page) (off : Nat) (v : Word) (i : Nat) : (n.setReg p off v i).reedProg = n.reedProg := with_regs_reedProg n _
@[simp] theorem setReg_str (n : Node) (p : Page) (off : Nat) (v : Word) (i : Nat) : (n.setReg p off v i).str = n.str := with_regs_str n _
@[simp] theorem setReg_macs (n : Node) (p : Page) (off : Nat) (v : Word) (i : Nat) : (n.setReg p off v i).macs = n.macs := with_regs_macs n _
@[simp] theorem setReg_ptp (n : Node) (p : Page) (off : Nat) (v : Word) (i : Nat) : (n.setReg p off v i).ptp = n.ptp := with_regs_ptp n _
@[simp] theorem setReg_refs (n : Node) (p : Page) (off : Nat) (v : Word) (i : Nat) : (n.setReg p off v i).refs = n.refs := with_regs_refs n _
@[simp] theorem setReg_loc (n : Node) (p : Page) (off : Nat) (v : Word) (i : Nat) : (n.setReg p off v i).loc = n.loc := with_regs_loc n _
@[simp] theorem setReg_drive (n : Node) (p : Page) (off : Nat) (v : Word) (i : Nat) : (n.setReg p off v i).drive = n.drive := with_regs_drive n _
@[simp] theorem setReg_dram (n : Node) (p : Page) (off : Nat) (v : Word) (i : Nat) : (n.setReg p off v i).dram = n.dram := with_regs_dram n _
@[simp] theorem setReg_hng (n : Node) (p : Page) (off : Nat) (v : Word) (i : Nat) : (n.setReg p off v i).hng = n.hng := with_regs_hng n _
@[simp] theorem setReg_cfg (n : Node) (p : Page) (off : Nat) (v : Word) (i : Nat) : (n.setReg p off v i).cfg = n.cfg := with_regs_cfg n _
@[simp] theorem setReg_i2c (n : Node) (p : Page) (off : Nat) (v : Word) (i : Nat) : (n.setReg p off v i).i2c = n.i2c := with_regs_i2c n _
@[simp] theorem setReg_pci (n : Node) (p : Page) (off : Nat) (v : Word) (i : Nat) : (n.setReg p off v i).pci = n.pci := with_regs_pci n _
@[simp] theorem setReg_flash (n : Node) (p : Page) (off : Nat) (v : Word) (i : Nat) : (n.setReg p off v i).flash = n.flash := with_regs_flash n _
@[simp] theorem setReg_io (n : Node) (p : Page) (off : Nat) (v : Word) (i : Nat) : (n.setReg p off v i).io = n.io := with_regs_io n _

@[simp] theorem setFld_active (n : Node) (p : Page) (f : Field) (v i : Nat) : (n.setFld p f v i).active = n.active := with_regs_active n _
@[simp] theorem setFld_hdrs (n : Node) (p : Page) (f : Field) (v i : Nat) : (n.setFld p f v i).hdrs = n.hdrs := with_regs_hdrs n _
@[simp] theorem setFld_mem (n : Node) (p : Page) (f : Field) (v i : Nat) : (n.setFld p f v i).mem = n.mem := with_regs_mem n _
@[simp] theorem setFld_clk (n : Node) (p : Page) (f : Field) (v i : Nat) : (n.setFld p f v i).clk = n.clk := with_regs_clk n _
@[simp] theorem setFld_cas (n : Node) (p : Page) (f : Field) (v i : Nat) : (n.setFld p f v i).cas = n.cas := with_regs_cas n _
@[simp] theorem setFld_rt (n : Node) (p : Page) (f : Field) (v i : Nat) : (n.setFld p f v i).rt = n.rt := with_regs_rt n _
@[simp] theorem setFld_sht (n : Node) (p : Page) (f : Field) (v i : Nat) : (n.setFld p f v i).sht = n.sht := with_regs_sht n _
@[simp] theorem setFld_strips (n : Node) (p : Page) (f : Field) (v i : Nat) : (n.setFld p f v i).strips = n.strips := with_regs_strips n _
@[simp] theorem setFld_dies (n : Node) (p : Page) (f : Field) (v i : Nat) : (n.setFld p f v i).dies = n.dies := with_regs_dies n _
@[simp] theorem setFld_xpt (n : Node) (p : Page) (f : Field) (v i : Nat) : (n.setFld p f v i).xpt = n.xpt := with_regs_xpt n _
@[simp] theorem setFld_mtx (n : Node) (p : Page) (f : Field) (v i : Nat) : (n.setFld p f v i).mtx = n.mtx := with_regs_mtx n _
@[simp] theorem setFld_flt (n : Node) (p : Page) (f : Field) (v i : Nat) : (n.setFld p f v i).flt = n.flt := with_regs_flt n _
@[simp] theorem setFld_sil (n : Node) (p : Page) (f : Field) (v i : Nat) : (n.setFld p f v i).sil = n.sil := with_regs_sil n _
@[simp] theorem setFld_phc (n : Node) (p : Page) (f : Field) (v i : Nat) : (n.setFld p f v i).phc = n.phc := with_regs_phc n _
@[simp] theorem setFld_boot (n : Node) (p : Page) (f : Field) (v i : Nat) : (n.setFld p f v i).boot = n.boot := with_regs_boot n _
@[simp] theorem setFld_mgmt (n : Node) (p : Page) (f : Field) (v i : Nat) : (n.setFld p f v i).mgmt = n.mgmt := with_regs_mgmt n _
@[simp] theorem setFld_pins (n : Node) (p : Page) (f : Field) (v i : Nat) : (n.setFld p f v i).pins = n.pins := with_regs_pins n _
@[simp] theorem setFld_rsp (n : Node) (p : Page) (f : Field) (v i : Nat) : (n.setFld p f v i).rsp = n.rsp := with_regs_rsp n _
@[simp] theorem setFld_free (n : Node) (p : Page) (f : Field) (v i : Nat) : (n.setFld p f v i).free = n.free := with_regs_free n _
@[simp] theorem setFld_reeds (n : Node) (p : Page) (f : Field) (v i : Nat) : (n.setFld p f v i).reeds = n.reeds := with_regs_reeds n _
@[simp] theorem setFld_reedMem (n : Node) (p : Page) (f : Field) (v i : Nat) : (n.setFld p f v i).reedMem = n.reedMem := with_regs_reedMem n _
@[simp] theorem setFld_reedProg (n : Node) (p : Page) (f : Field) (v i : Nat) : (n.setFld p f v i).reedProg = n.reedProg := with_regs_reedProg n _
@[simp] theorem setFld_str (n : Node) (p : Page) (f : Field) (v i : Nat) : (n.setFld p f v i).str = n.str := with_regs_str n _
@[simp] theorem setFld_macs (n : Node) (p : Page) (f : Field) (v i : Nat) : (n.setFld p f v i).macs = n.macs := with_regs_macs n _
@[simp] theorem setFld_ptp (n : Node) (p : Page) (f : Field) (v i : Nat) : (n.setFld p f v i).ptp = n.ptp := with_regs_ptp n _
@[simp] theorem setFld_refs (n : Node) (p : Page) (f : Field) (v i : Nat) : (n.setFld p f v i).refs = n.refs := with_regs_refs n _
@[simp] theorem setFld_loc (n : Node) (p : Page) (f : Field) (v i : Nat) : (n.setFld p f v i).loc = n.loc := with_regs_loc n _
@[simp] theorem setFld_drive (n : Node) (p : Page) (f : Field) (v i : Nat) : (n.setFld p f v i).drive = n.drive := with_regs_drive n _
@[simp] theorem setFld_dram (n : Node) (p : Page) (f : Field) (v i : Nat) : (n.setFld p f v i).dram = n.dram := with_regs_dram n _
@[simp] theorem setFld_hng (n : Node) (p : Page) (f : Field) (v i : Nat) : (n.setFld p f v i).hng = n.hng := with_regs_hng n _
@[simp] theorem setFld_cfg (n : Node) (p : Page) (f : Field) (v i : Nat) : (n.setFld p f v i).cfg = n.cfg := with_regs_cfg n _
@[simp] theorem setFld_i2c (n : Node) (p : Page) (f : Field) (v i : Nat) : (n.setFld p f v i).i2c = n.i2c := with_regs_i2c n _
@[simp] theorem setFld_pci (n : Node) (p : Page) (f : Field) (v i : Nat) : (n.setFld p f v i).pci = n.pci := with_regs_pci n _
@[simp] theorem setFld_flash (n : Node) (p : Page) (f : Field) (v i : Nat) : (n.setFld p f v i).flash = n.flash := with_regs_flash n _
@[simp] theorem setFld_io (n : Node) (p : Page) (f : Field) (v i : Nat) : (n.setFld p f v i).io = n.io := with_regs_io n _

@[simp] theorem bump_active (n : Node) (p : Page) (f : Field) (k i : Nat) : (n.bump p f k i).active = n.active := with_regs_active n _
@[simp] theorem bump_hdrs (n : Node) (p : Page) (f : Field) (k i : Nat) : (n.bump p f k i).hdrs = n.hdrs := with_regs_hdrs n _
@[simp] theorem bump_mem (n : Node) (p : Page) (f : Field) (k i : Nat) : (n.bump p f k i).mem = n.mem := with_regs_mem n _
@[simp] theorem bump_clk (n : Node) (p : Page) (f : Field) (k i : Nat) : (n.bump p f k i).clk = n.clk := with_regs_clk n _
@[simp] theorem bump_cas (n : Node) (p : Page) (f : Field) (k i : Nat) : (n.bump p f k i).cas = n.cas := with_regs_cas n _
@[simp] theorem bump_rt (n : Node) (p : Page) (f : Field) (k i : Nat) : (n.bump p f k i).rt = n.rt := with_regs_rt n _
@[simp] theorem bump_sht (n : Node) (p : Page) (f : Field) (k i : Nat) : (n.bump p f k i).sht = n.sht := with_regs_sht n _
@[simp] theorem bump_strips (n : Node) (p : Page) (f : Field) (k i : Nat) : (n.bump p f k i).strips = n.strips := with_regs_strips n _
@[simp] theorem bump_dies (n : Node) (p : Page) (f : Field) (k i : Nat) : (n.bump p f k i).dies = n.dies := with_regs_dies n _
@[simp] theorem bump_xpt (n : Node) (p : Page) (f : Field) (k i : Nat) : (n.bump p f k i).xpt = n.xpt := with_regs_xpt n _
@[simp] theorem bump_mtx (n : Node) (p : Page) (f : Field) (k i : Nat) : (n.bump p f k i).mtx = n.mtx := with_regs_mtx n _
@[simp] theorem bump_flt (n : Node) (p : Page) (f : Field) (k i : Nat) : (n.bump p f k i).flt = n.flt := with_regs_flt n _
@[simp] theorem bump_sil (n : Node) (p : Page) (f : Field) (k i : Nat) : (n.bump p f k i).sil = n.sil := with_regs_sil n _
@[simp] theorem bump_phc (n : Node) (p : Page) (f : Field) (k i : Nat) : (n.bump p f k i).phc = n.phc := with_regs_phc n _
@[simp] theorem bump_boot (n : Node) (p : Page) (f : Field) (k i : Nat) : (n.bump p f k i).boot = n.boot := with_regs_boot n _
@[simp] theorem bump_mgmt (n : Node) (p : Page) (f : Field) (k i : Nat) : (n.bump p f k i).mgmt = n.mgmt := with_regs_mgmt n _
@[simp] theorem bump_pins (n : Node) (p : Page) (f : Field) (k i : Nat) : (n.bump p f k i).pins = n.pins := with_regs_pins n _
@[simp] theorem bump_rsp (n : Node) (p : Page) (f : Field) (k i : Nat) : (n.bump p f k i).rsp = n.rsp := with_regs_rsp n _
@[simp] theorem bump_free (n : Node) (p : Page) (f : Field) (k i : Nat) : (n.bump p f k i).free = n.free := with_regs_free n _
@[simp] theorem bump_reeds (n : Node) (p : Page) (f : Field) (k i : Nat) : (n.bump p f k i).reeds = n.reeds := with_regs_reeds n _
@[simp] theorem bump_reedMem (n : Node) (p : Page) (f : Field) (k i : Nat) : (n.bump p f k i).reedMem = n.reedMem := with_regs_reedMem n _
@[simp] theorem bump_reedProg (n : Node) (p : Page) (f : Field) (k i : Nat) : (n.bump p f k i).reedProg = n.reedProg := with_regs_reedProg n _
@[simp] theorem bump_str (n : Node) (p : Page) (f : Field) (k i : Nat) : (n.bump p f k i).str = n.str := with_regs_str n _
@[simp] theorem bump_macs (n : Node) (p : Page) (f : Field) (k i : Nat) : (n.bump p f k i).macs = n.macs := with_regs_macs n _
@[simp] theorem bump_ptp (n : Node) (p : Page) (f : Field) (k i : Nat) : (n.bump p f k i).ptp = n.ptp := with_regs_ptp n _
@[simp] theorem bump_refs (n : Node) (p : Page) (f : Field) (k i : Nat) : (n.bump p f k i).refs = n.refs := with_regs_refs n _
@[simp] theorem bump_loc (n : Node) (p : Page) (f : Field) (k i : Nat) : (n.bump p f k i).loc = n.loc := with_regs_loc n _
@[simp] theorem bump_drive (n : Node) (p : Page) (f : Field) (k i : Nat) : (n.bump p f k i).drive = n.drive := with_regs_drive n _
@[simp] theorem bump_dram (n : Node) (p : Page) (f : Field) (k i : Nat) : (n.bump p f k i).dram = n.dram := with_regs_dram n _
@[simp] theorem bump_hng (n : Node) (p : Page) (f : Field) (k i : Nat) : (n.bump p f k i).hng = n.hng := with_regs_hng n _
@[simp] theorem bump_cfg (n : Node) (p : Page) (f : Field) (k i : Nat) : (n.bump p f k i).cfg = n.cfg := with_regs_cfg n _
@[simp] theorem bump_i2c (n : Node) (p : Page) (f : Field) (k i : Nat) : (n.bump p f k i).i2c = n.i2c := with_regs_i2c n _
@[simp] theorem bump_pci (n : Node) (p : Page) (f : Field) (k i : Nat) : (n.bump p f k i).pci = n.pci := with_regs_pci n _
@[simp] theorem bump_flash (n : Node) (p : Page) (f : Field) (k i : Nat) : (n.bump p f k i).flash = n.flash := with_regs_flash n _
@[simp] theorem bump_io (n : Node) (p : Page) (f : Field) (k i : Nat) : (n.bump p f k i).io = n.io := with_regs_io n _

@[simp] theorem peak_active (n : Node) (p : Page) (f : Field) (v i : Nat) : (n.peak p f v i).active = n.active := with_regs_active n _
@[simp] theorem peak_hdrs (n : Node) (p : Page) (f : Field) (v i : Nat) : (n.peak p f v i).hdrs = n.hdrs := with_regs_hdrs n _
@[simp] theorem peak_mem (n : Node) (p : Page) (f : Field) (v i : Nat) : (n.peak p f v i).mem = n.mem := with_regs_mem n _
@[simp] theorem peak_clk (n : Node) (p : Page) (f : Field) (v i : Nat) : (n.peak p f v i).clk = n.clk := with_regs_clk n _
@[simp] theorem peak_cas (n : Node) (p : Page) (f : Field) (v i : Nat) : (n.peak p f v i).cas = n.cas := with_regs_cas n _
@[simp] theorem peak_rt (n : Node) (p : Page) (f : Field) (v i : Nat) : (n.peak p f v i).rt = n.rt := with_regs_rt n _
@[simp] theorem peak_sht (n : Node) (p : Page) (f : Field) (v i : Nat) : (n.peak p f v i).sht = n.sht := with_regs_sht n _
@[simp] theorem peak_strips (n : Node) (p : Page) (f : Field) (v i : Nat) : (n.peak p f v i).strips = n.strips := with_regs_strips n _
@[simp] theorem peak_dies (n : Node) (p : Page) (f : Field) (v i : Nat) : (n.peak p f v i).dies = n.dies := with_regs_dies n _
@[simp] theorem peak_xpt (n : Node) (p : Page) (f : Field) (v i : Nat) : (n.peak p f v i).xpt = n.xpt := with_regs_xpt n _
@[simp] theorem peak_mtx (n : Node) (p : Page) (f : Field) (v i : Nat) : (n.peak p f v i).mtx = n.mtx := with_regs_mtx n _
@[simp] theorem peak_flt (n : Node) (p : Page) (f : Field) (v i : Nat) : (n.peak p f v i).flt = n.flt := with_regs_flt n _
@[simp] theorem peak_sil (n : Node) (p : Page) (f : Field) (v i : Nat) : (n.peak p f v i).sil = n.sil := with_regs_sil n _
@[simp] theorem peak_phc (n : Node) (p : Page) (f : Field) (v i : Nat) : (n.peak p f v i).phc = n.phc := with_regs_phc n _
@[simp] theorem peak_boot (n : Node) (p : Page) (f : Field) (v i : Nat) : (n.peak p f v i).boot = n.boot := with_regs_boot n _
@[simp] theorem peak_mgmt (n : Node) (p : Page) (f : Field) (v i : Nat) : (n.peak p f v i).mgmt = n.mgmt := with_regs_mgmt n _
@[simp] theorem peak_pins (n : Node) (p : Page) (f : Field) (v i : Nat) : (n.peak p f v i).pins = n.pins := with_regs_pins n _
@[simp] theorem peak_rsp (n : Node) (p : Page) (f : Field) (v i : Nat) : (n.peak p f v i).rsp = n.rsp := with_regs_rsp n _
@[simp] theorem peak_free (n : Node) (p : Page) (f : Field) (v i : Nat) : (n.peak p f v i).free = n.free := with_regs_free n _
@[simp] theorem peak_reeds (n : Node) (p : Page) (f : Field) (v i : Nat) : (n.peak p f v i).reeds = n.reeds := with_regs_reeds n _
@[simp] theorem peak_reedMem (n : Node) (p : Page) (f : Field) (v i : Nat) : (n.peak p f v i).reedMem = n.reedMem := with_regs_reedMem n _
@[simp] theorem peak_reedProg (n : Node) (p : Page) (f : Field) (v i : Nat) : (n.peak p f v i).reedProg = n.reedProg := with_regs_reedProg n _
@[simp] theorem peak_str (n : Node) (p : Page) (f : Field) (v i : Nat) : (n.peak p f v i).str = n.str := with_regs_str n _
@[simp] theorem peak_macs (n : Node) (p : Page) (f : Field) (v i : Nat) : (n.peak p f v i).macs = n.macs := with_regs_macs n _
@[simp] theorem peak_ptp (n : Node) (p : Page) (f : Field) (v i : Nat) : (n.peak p f v i).ptp = n.ptp := with_regs_ptp n _
@[simp] theorem peak_refs (n : Node) (p : Page) (f : Field) (v i : Nat) : (n.peak p f v i).refs = n.refs := with_regs_refs n _
@[simp] theorem peak_loc (n : Node) (p : Page) (f : Field) (v i : Nat) : (n.peak p f v i).loc = n.loc := with_regs_loc n _
@[simp] theorem peak_drive (n : Node) (p : Page) (f : Field) (v i : Nat) : (n.peak p f v i).drive = n.drive := with_regs_drive n _
@[simp] theorem peak_dram (n : Node) (p : Page) (f : Field) (v i : Nat) : (n.peak p f v i).dram = n.dram := with_regs_dram n _
@[simp] theorem peak_hng (n : Node) (p : Page) (f : Field) (v i : Nat) : (n.peak p f v i).hng = n.hng := with_regs_hng n _
@[simp] theorem peak_cfg (n : Node) (p : Page) (f : Field) (v i : Nat) : (n.peak p f v i).cfg = n.cfg := with_regs_cfg n _
@[simp] theorem peak_i2c (n : Node) (p : Page) (f : Field) (v i : Nat) : (n.peak p f v i).i2c = n.i2c := with_regs_i2c n _
@[simp] theorem peak_pci (n : Node) (p : Page) (f : Field) (v i : Nat) : (n.peak p f v i).pci = n.pci := with_regs_pci n _
@[simp] theorem peak_flash (n : Node) (p : Page) (f : Field) (v i : Nat) : (n.peak p f v i).flash = n.flash := with_regs_flash n _
@[simp] theorem peak_io (n : Node) (p : Page) (f : Field) (v i : Nat) : (n.peak p f v i).io = n.io := with_regs_io n _

@[simp] theorem irq_active (n : Node) (p : Page) (b : Nat) : (n.irq p b).active = n.active := by unfold irq; split; exact setReg_active ..; rfl
@[simp] theorem irq_hdrs (n : Node) (p : Page) (b : Nat) : (n.irq p b).hdrs = n.hdrs := by unfold irq; split; exact setReg_hdrs ..; rfl
@[simp] theorem irq_mem (n : Node) (p : Page) (b : Nat) : (n.irq p b).mem = n.mem := by unfold irq; split; exact setReg_mem ..; rfl
@[simp] theorem irq_clk (n : Node) (p : Page) (b : Nat) : (n.irq p b).clk = n.clk := by unfold irq; split; exact setReg_clk ..; rfl
@[simp] theorem irq_cas (n : Node) (p : Page) (b : Nat) : (n.irq p b).cas = n.cas := by unfold irq; split; exact setReg_cas ..; rfl
@[simp] theorem irq_rt (n : Node) (p : Page) (b : Nat) : (n.irq p b).rt = n.rt := by unfold irq; split; exact setReg_rt ..; rfl
@[simp] theorem irq_sht (n : Node) (p : Page) (b : Nat) : (n.irq p b).sht = n.sht := by unfold irq; split; exact setReg_sht ..; rfl
@[simp] theorem irq_strips (n : Node) (p : Page) (b : Nat) : (n.irq p b).strips = n.strips := by unfold irq; split; exact setReg_strips ..; rfl
@[simp] theorem irq_dies (n : Node) (p : Page) (b : Nat) : (n.irq p b).dies = n.dies := by unfold irq; split; exact setReg_dies ..; rfl
@[simp] theorem irq_xpt (n : Node) (p : Page) (b : Nat) : (n.irq p b).xpt = n.xpt := by unfold irq; split; exact setReg_xpt ..; rfl
@[simp] theorem irq_mtx (n : Node) (p : Page) (b : Nat) : (n.irq p b).mtx = n.mtx := by unfold irq; split; exact setReg_mtx ..; rfl
@[simp] theorem irq_flt (n : Node) (p : Page) (b : Nat) : (n.irq p b).flt = n.flt := by unfold irq; split; exact setReg_flt ..; rfl
@[simp] theorem irq_sil (n : Node) (p : Page) (b : Nat) : (n.irq p b).sil = n.sil := by unfold irq; split; exact setReg_sil ..; rfl
@[simp] theorem irq_phc (n : Node) (p : Page) (b : Nat) : (n.irq p b).phc = n.phc := by unfold irq; split; exact setReg_phc ..; rfl
@[simp] theorem irq_boot (n : Node) (p : Page) (b : Nat) : (n.irq p b).boot = n.boot := by unfold irq; split; exact setReg_boot ..; rfl
@[simp] theorem irq_mgmt (n : Node) (p : Page) (b : Nat) : (n.irq p b).mgmt = n.mgmt := by unfold irq; split; exact setReg_mgmt ..; rfl
@[simp] theorem irq_pins (n : Node) (p : Page) (b : Nat) : (n.irq p b).pins = n.pins := by unfold irq; split; exact setReg_pins ..; rfl
@[simp] theorem irq_rsp (n : Node) (p : Page) (b : Nat) : (n.irq p b).rsp = n.rsp := by unfold irq; split; exact setReg_rsp ..; rfl
@[simp] theorem irq_free (n : Node) (p : Page) (b : Nat) : (n.irq p b).free = n.free := by unfold irq; split; exact setReg_free ..; rfl
@[simp] theorem irq_reeds (n : Node) (p : Page) (b : Nat) : (n.irq p b).reeds = n.reeds := by unfold irq; split; exact setReg_reeds ..; rfl
@[simp] theorem irq_reedMem (n : Node) (p : Page) (b : Nat) : (n.irq p b).reedMem = n.reedMem := by unfold irq; split; exact setReg_reedMem ..; rfl
@[simp] theorem irq_reedProg (n : Node) (p : Page) (b : Nat) : (n.irq p b).reedProg = n.reedProg := by unfold irq; split; exact setReg_reedProg ..; rfl
@[simp] theorem irq_str (n : Node) (p : Page) (b : Nat) : (n.irq p b).str = n.str := by unfold irq; split; exact setReg_str ..; rfl
@[simp] theorem irq_macs (n : Node) (p : Page) (b : Nat) : (n.irq p b).macs = n.macs := by unfold irq; split; exact setReg_macs ..; rfl
@[simp] theorem irq_ptp (n : Node) (p : Page) (b : Nat) : (n.irq p b).ptp = n.ptp := by unfold irq; split; exact setReg_ptp ..; rfl
@[simp] theorem irq_refs (n : Node) (p : Page) (b : Nat) : (n.irq p b).refs = n.refs := by unfold irq; split; exact setReg_refs ..; rfl
@[simp] theorem irq_loc (n : Node) (p : Page) (b : Nat) : (n.irq p b).loc = n.loc := by unfold irq; split; exact setReg_loc ..; rfl
@[simp] theorem irq_drive (n : Node) (p : Page) (b : Nat) : (n.irq p b).drive = n.drive := by unfold irq; split; exact setReg_drive ..; rfl
@[simp] theorem irq_dram (n : Node) (p : Page) (b : Nat) : (n.irq p b).dram = n.dram := by unfold irq; split; exact setReg_dram ..; rfl
@[simp] theorem irq_hng (n : Node) (p : Page) (b : Nat) : (n.irq p b).hng = n.hng := by unfold irq; split; exact setReg_hng ..; rfl
@[simp] theorem irq_cfg (n : Node) (p : Page) (b : Nat) : (n.irq p b).cfg = n.cfg := by unfold irq; split; exact setReg_cfg ..; rfl
@[simp] theorem irq_i2c (n : Node) (p : Page) (b : Nat) : (n.irq p b).i2c = n.i2c := by unfold irq; split; exact setReg_i2c ..; rfl
@[simp] theorem irq_pci (n : Node) (p : Page) (b : Nat) : (n.irq p b).pci = n.pci := by unfold irq; split; exact setReg_pci ..; rfl
@[simp] theorem irq_flash (n : Node) (p : Page) (b : Nat) : (n.irq p b).flash = n.flash := by unfold irq; split; exact setReg_flash ..; rfl
@[simp] theorem irq_io (n : Node) (p : Page) (b : Nat) : (n.irq p b).io = n.io := by unfold irq; split; exact setReg_io ..; rfl

@[simp] theorem setAct_regs (n : Node) (p : Page) (f : Field) (v i : Nat) : (n.setAct p f v i).regs = n.regs := with_active_regs n _
@[simp] theorem setAct_hdrs (n : Node) (p : Page) (f : Field) (v i : Nat) : (n.setAct p f v i).hdrs = n.hdrs := with_active_hdrs n _
@[simp] theorem setAct_mem (n : Node) (p : Page) (f : Field) (v i : Nat) : (n.setAct p f v i).mem = n.mem := with_active_mem n _
@[simp] theorem setAct_clk (n : Node) (p : Page) (f : Field) (v i : Nat) : (n.setAct p f v i).clk = n.clk := with_active_clk n _
@[simp] theorem setAct_cas (n : Node) (p : Page) (f : Field) (v i : Nat) : (n.setAct p f v i).cas = n.cas := with_active_cas n _
@[simp] theorem setAct_rt (n : Node) (p : Page) (f : Field) (v i : Nat) : (n.setAct p f v i).rt = n.rt := with_active_rt n _
@[simp] theorem setAct_sht (n : Node) (p : Page) (f : Field) (v i : Nat) : (n.setAct p f v i).sht = n.sht := with_active_sht n _
@[simp] theorem setAct_strips (n : Node) (p : Page) (f : Field) (v i : Nat) : (n.setAct p f v i).strips = n.strips := with_active_strips n _
@[simp] theorem setAct_dies (n : Node) (p : Page) (f : Field) (v i : Nat) : (n.setAct p f v i).dies = n.dies := with_active_dies n _
@[simp] theorem setAct_xpt (n : Node) (p : Page) (f : Field) (v i : Nat) : (n.setAct p f v i).xpt = n.xpt := with_active_xpt n _
@[simp] theorem setAct_mtx (n : Node) (p : Page) (f : Field) (v i : Nat) : (n.setAct p f v i).mtx = n.mtx := with_active_mtx n _
@[simp] theorem setAct_flt (n : Node) (p : Page) (f : Field) (v i : Nat) : (n.setAct p f v i).flt = n.flt := with_active_flt n _
@[simp] theorem setAct_sil (n : Node) (p : Page) (f : Field) (v i : Nat) : (n.setAct p f v i).sil = n.sil := with_active_sil n _
@[simp] theorem setAct_phc (n : Node) (p : Page) (f : Field) (v i : Nat) : (n.setAct p f v i).phc = n.phc := with_active_phc n _
@[simp] theorem setAct_boot (n : Node) (p : Page) (f : Field) (v i : Nat) : (n.setAct p f v i).boot = n.boot := with_active_boot n _
@[simp] theorem setAct_mgmt (n : Node) (p : Page) (f : Field) (v i : Nat) : (n.setAct p f v i).mgmt = n.mgmt := with_active_mgmt n _
@[simp] theorem setAct_pins (n : Node) (p : Page) (f : Field) (v i : Nat) : (n.setAct p f v i).pins = n.pins := with_active_pins n _
@[simp] theorem setAct_rsp (n : Node) (p : Page) (f : Field) (v i : Nat) : (n.setAct p f v i).rsp = n.rsp := with_active_rsp n _
@[simp] theorem setAct_free (n : Node) (p : Page) (f : Field) (v i : Nat) : (n.setAct p f v i).free = n.free := with_active_free n _
@[simp] theorem setAct_reeds (n : Node) (p : Page) (f : Field) (v i : Nat) : (n.setAct p f v i).reeds = n.reeds := with_active_reeds n _
@[simp] theorem setAct_reedMem (n : Node) (p : Page) (f : Field) (v i : Nat) : (n.setAct p f v i).reedMem = n.reedMem := with_active_reedMem n _
@[simp] theorem setAct_reedProg (n : Node) (p : Page) (f : Field) (v i : Nat) : (n.setAct p f v i).reedProg = n.reedProg := with_active_reedProg n _
@[simp] theorem setAct_str (n : Node) (p : Page) (f : Field) (v i : Nat) : (n.setAct p f v i).str = n.str := with_active_str n _
@[simp] theorem setAct_macs (n : Node) (p : Page) (f : Field) (v i : Nat) : (n.setAct p f v i).macs = n.macs := with_active_macs n _
@[simp] theorem setAct_ptp (n : Node) (p : Page) (f : Field) (v i : Nat) : (n.setAct p f v i).ptp = n.ptp := with_active_ptp n _
@[simp] theorem setAct_refs (n : Node) (p : Page) (f : Field) (v i : Nat) : (n.setAct p f v i).refs = n.refs := with_active_refs n _
@[simp] theorem setAct_loc (n : Node) (p : Page) (f : Field) (v i : Nat) : (n.setAct p f v i).loc = n.loc := with_active_loc n _
@[simp] theorem setAct_drive (n : Node) (p : Page) (f : Field) (v i : Nat) : (n.setAct p f v i).drive = n.drive := with_active_drive n _
@[simp] theorem setAct_dram (n : Node) (p : Page) (f : Field) (v i : Nat) : (n.setAct p f v i).dram = n.dram := with_active_dram n _
@[simp] theorem setAct_hng (n : Node) (p : Page) (f : Field) (v i : Nat) : (n.setAct p f v i).hng = n.hng := with_active_hng n _
@[simp] theorem setAct_cfg (n : Node) (p : Page) (f : Field) (v i : Nat) : (n.setAct p f v i).cfg = n.cfg := with_active_cfg n _
@[simp] theorem setAct_i2c (n : Node) (p : Page) (f : Field) (v i : Nat) : (n.setAct p f v i).i2c = n.i2c := with_active_i2c n _
@[simp] theorem setAct_pci (n : Node) (p : Page) (f : Field) (v i : Nat) : (n.setAct p f v i).pci = n.pci := with_active_pci n _
@[simp] theorem setAct_flash (n : Node) (p : Page) (f : Field) (v i : Nat) : (n.setAct p f v i).flash = n.flash := with_active_flash n _
@[simp] theorem setAct_io (n : Node) (p : Page) (f : Field) (v i : Nat) : (n.setAct p f v i).io = n.io := with_active_io n _

@[simp] theorem setHdr_regs (n : Node) (p : Page) (h : Hdr) : (n.setHdr p h).regs = n.regs := rfl
@[simp] theorem setHdr_active (n : Node) (p : Page) (h : Hdr) : (n.setHdr p h).active = n.active := rfl
@[simp] theorem setHdr_mem (n : Node) (p : Page) (h : Hdr) : (n.setHdr p h).mem = n.mem := rfl
@[simp] theorem setHdr_clk (n : Node) (p : Page) (h : Hdr) : (n.setHdr p h).clk = n.clk := rfl
@[simp] theorem setHdr_cas (n : Node) (p : Page) (h : Hdr) : (n.setHdr p h).cas = n.cas := rfl
@[simp] theorem setHdr_rt (n : Node) (p : Page) (h : Hdr) : (n.setHdr p h).rt = n.rt := rfl
@[simp] theorem setHdr_sht (n : Node) (p : Page) (h : Hdr) : (n.setHdr p h).sht = n.sht := rfl
@[simp] theorem setHdr_strips (n : Node) (p : Page) (h : Hdr) : (n.setHdr p h).strips = n.strips := rfl
@[simp] theorem setHdr_dies (n : Node) (p : Page) (h : Hdr) : (n.setHdr p h).dies = n.dies := rfl
@[simp] theorem setHdr_xpt (n : Node) (p : Page) (h : Hdr) : (n.setHdr p h).xpt = n.xpt := rfl
@[simp] theorem setHdr_mtx (n : Node) (p : Page) (h : Hdr) : (n.setHdr p h).mtx = n.mtx := rfl
@[simp] theorem setHdr_flt (n : Node) (p : Page) (h : Hdr) : (n.setHdr p h).flt = n.flt := rfl
@[simp] theorem setHdr_sil (n : Node) (p : Page) (h : Hdr) : (n.setHdr p h).sil = n.sil := rfl
@[simp] theorem setHdr_phc (n : Node) (p : Page) (h : Hdr) : (n.setHdr p h).phc = n.phc := rfl
@[simp] theorem setHdr_boot (n : Node) (p : Page) (h : Hdr) : (n.setHdr p h).boot = n.boot := rfl
@[simp] theorem setHdr_mgmt (n : Node) (p : Page) (h : Hdr) : (n.setHdr p h).mgmt = n.mgmt := rfl
@[simp] theorem setHdr_pins (n : Node) (p : Page) (h : Hdr) : (n.setHdr p h).pins = n.pins := rfl
@[simp] theorem setHdr_rsp (n : Node) (p : Page) (h : Hdr) : (n.setHdr p h).rsp = n.rsp := rfl
@[simp] theorem setHdr_free (n : Node) (p : Page) (h : Hdr) : (n.setHdr p h).free = n.free := rfl
@[simp] theorem setHdr_reeds (n : Node) (p : Page) (h : Hdr) : (n.setHdr p h).reeds = n.reeds := rfl
@[simp] theorem setHdr_reedMem (n : Node) (p : Page) (h : Hdr) : (n.setHdr p h).reedMem = n.reedMem := rfl
@[simp] theorem setHdr_reedProg (n : Node) (p : Page) (h : Hdr) : (n.setHdr p h).reedProg = n.reedProg := rfl
@[simp] theorem setHdr_str (n : Node) (p : Page) (h : Hdr) : (n.setHdr p h).str = n.str := rfl
@[simp] theorem setHdr_macs (n : Node) (p : Page) (h : Hdr) : (n.setHdr p h).macs = n.macs := rfl
@[simp] theorem setHdr_ptp (n : Node) (p : Page) (h : Hdr) : (n.setHdr p h).ptp = n.ptp := rfl
@[simp] theorem setHdr_refs (n : Node) (p : Page) (h : Hdr) : (n.setHdr p h).refs = n.refs := rfl
@[simp] theorem setHdr_loc (n : Node) (p : Page) (h : Hdr) : (n.setHdr p h).loc = n.loc := rfl
@[simp] theorem setHdr_drive (n : Node) (p : Page) (h : Hdr) : (n.setHdr p h).drive = n.drive := rfl
@[simp] theorem setHdr_dram (n : Node) (p : Page) (h : Hdr) : (n.setHdr p h).dram = n.dram := rfl
@[simp] theorem setHdr_hng (n : Node) (p : Page) (h : Hdr) : (n.setHdr p h).hng = n.hng := rfl
@[simp] theorem setHdr_cfg (n : Node) (p : Page) (h : Hdr) : (n.setHdr p h).cfg = n.cfg := rfl
@[simp] theorem setHdr_i2c (n : Node) (p : Page) (h : Hdr) : (n.setHdr p h).i2c = n.i2c := rfl
@[simp] theorem setHdr_pci (n : Node) (p : Page) (h : Hdr) : (n.setHdr p h).pci = n.pci := rfl
@[simp] theorem setHdr_flash (n : Node) (p : Page) (h : Hdr) : (n.setHdr p h).flash = n.flash := rfl
@[simp] theorem setHdr_io (n : Node) (p : Page) (h : Hdr) : (n.setHdr p h).io = n.io := rfl

@[simp] theorem modHdr_regs (n : Node) (p : Page) (f : Hdr → Hdr) : (n.modHdr p f).regs = n.regs := rfl
@[simp] theorem modHdr_active (n : Node) (p : Page) (f : Hdr → Hdr) : (n.modHdr p f).active = n.active := rfl
@[simp] theorem modHdr_mem (n : Node) (p : Page) (f : Hdr → Hdr) : (n.modHdr p f).mem = n.mem := rfl
@[simp] theorem modHdr_clk (n : Node) (p : Page) (f : Hdr → Hdr) : (n.modHdr p f).clk = n.clk := rfl
@[simp] theorem modHdr_cas (n : Node) (p : Page) (f : Hdr → Hdr) : (n.modHdr p f).cas = n.cas := rfl
@[simp] theorem modHdr_rt (n : Node) (p : Page) (f : Hdr → Hdr) : (n.modHdr p f).rt = n.rt := rfl
@[simp] theorem modHdr_sht (n : Node) (p : Page) (f : Hdr → Hdr) : (n.modHdr p f).sht = n.sht := rfl
@[simp] theorem modHdr_strips (n : Node) (p : Page) (f : Hdr → Hdr) : (n.modHdr p f).strips = n.strips := rfl
@[simp] theorem modHdr_dies (n : Node) (p : Page) (f : Hdr → Hdr) : (n.modHdr p f).dies = n.dies := rfl
@[simp] theorem modHdr_xpt (n : Node) (p : Page) (f : Hdr → Hdr) : (n.modHdr p f).xpt = n.xpt := rfl
@[simp] theorem modHdr_mtx (n : Node) (p : Page) (f : Hdr → Hdr) : (n.modHdr p f).mtx = n.mtx := rfl
@[simp] theorem modHdr_flt (n : Node) (p : Page) (f : Hdr → Hdr) : (n.modHdr p f).flt = n.flt := rfl
@[simp] theorem modHdr_sil (n : Node) (p : Page) (f : Hdr → Hdr) : (n.modHdr p f).sil = n.sil := rfl
@[simp] theorem modHdr_phc (n : Node) (p : Page) (f : Hdr → Hdr) : (n.modHdr p f).phc = n.phc := rfl
@[simp] theorem modHdr_boot (n : Node) (p : Page) (f : Hdr → Hdr) : (n.modHdr p f).boot = n.boot := rfl
@[simp] theorem modHdr_mgmt (n : Node) (p : Page) (f : Hdr → Hdr) : (n.modHdr p f).mgmt = n.mgmt := rfl
@[simp] theorem modHdr_pins (n : Node) (p : Page) (f : Hdr → Hdr) : (n.modHdr p f).pins = n.pins := rfl
@[simp] theorem modHdr_rsp (n : Node) (p : Page) (f : Hdr → Hdr) : (n.modHdr p f).rsp = n.rsp := rfl
@[simp] theorem modHdr_free (n : Node) (p : Page) (f : Hdr → Hdr) : (n.modHdr p f).free = n.free := rfl
@[simp] theorem modHdr_reeds (n : Node) (p : Page) (f : Hdr → Hdr) : (n.modHdr p f).reeds = n.reeds := rfl
@[simp] theorem modHdr_reedMem (n : Node) (p : Page) (f : Hdr → Hdr) : (n.modHdr p f).reedMem = n.reedMem := rfl
@[simp] theorem modHdr_reedProg (n : Node) (p : Page) (f : Hdr → Hdr) : (n.modHdr p f).reedProg = n.reedProg := rfl
@[simp] theorem modHdr_str (n : Node) (p : Page) (f : Hdr → Hdr) : (n.modHdr p f).str = n.str := rfl
@[simp] theorem modHdr_macs (n : Node) (p : Page) (f : Hdr → Hdr) : (n.modHdr p f).macs = n.macs := rfl
@[simp] theorem modHdr_ptp (n : Node) (p : Page) (f : Hdr → Hdr) : (n.modHdr p f).ptp = n.ptp := rfl
@[simp] theorem modHdr_refs (n : Node) (p : Page) (f : Hdr → Hdr) : (n.modHdr p f).refs = n.refs := rfl
@[simp] theorem modHdr_loc (n : Node) (p : Page) (f : Hdr → Hdr) : (n.modHdr p f).loc = n.loc := rfl
@[simp] theorem modHdr_drive (n : Node) (p : Page) (f : Hdr → Hdr) : (n.modHdr p f).drive = n.drive := rfl
@[simp] theorem modHdr_dram (n : Node) (p : Page) (f : Hdr → Hdr) : (n.modHdr p f).dram = n.dram := rfl
@[simp] theorem modHdr_hng (n : Node) (p : Page) (f : Hdr → Hdr) : (n.modHdr p f).hng = n.hng := rfl
@[simp] theorem modHdr_cfg (n : Node) (p : Page) (f : Hdr → Hdr) : (n.modHdr p f).cfg = n.cfg := rfl
@[simp] theorem modHdr_i2c (n : Node) (p : Page) (f : Hdr → Hdr) : (n.modHdr p f).i2c = n.i2c := rfl
@[simp] theorem modHdr_pci (n : Node) (p : Page) (f : Hdr → Hdr) : (n.modHdr p f).pci = n.pci := rfl
@[simp] theorem modHdr_flash (n : Node) (p : Page) (f : Hdr → Hdr) : (n.modHdr p f).flash = n.flash := rfl
@[simp] theorem modHdr_io (n : Node) (p : Page) (f : Hdr → Hdr) : (n.modHdr p f).io = n.io := rfl

@[simp] theorem respond_regs (n : Node) (b : Bool) (d : Word) : (n.respond b d).regs = n.regs := rfl
@[simp] theorem respond_active (n : Node) (b : Bool) (d : Word) : (n.respond b d).active = n.active := rfl
@[simp] theorem respond_hdrs (n : Node) (b : Bool) (d : Word) : (n.respond b d).hdrs = n.hdrs := rfl
@[simp] theorem respond_mem (n : Node) (b : Bool) (d : Word) : (n.respond b d).mem = n.mem := rfl
@[simp] theorem respond_clk (n : Node) (b : Bool) (d : Word) : (n.respond b d).clk = n.clk := rfl
@[simp] theorem respond_cas (n : Node) (b : Bool) (d : Word) : (n.respond b d).cas = n.cas := rfl
@[simp] theorem respond_rt (n : Node) (b : Bool) (d : Word) : (n.respond b d).rt = n.rt := rfl
@[simp] theorem respond_sht (n : Node) (b : Bool) (d : Word) : (n.respond b d).sht = n.sht := rfl
@[simp] theorem respond_strips (n : Node) (b : Bool) (d : Word) : (n.respond b d).strips = n.strips := rfl
@[simp] theorem respond_dies (n : Node) (b : Bool) (d : Word) : (n.respond b d).dies = n.dies := rfl
@[simp] theorem respond_xpt (n : Node) (b : Bool) (d : Word) : (n.respond b d).xpt = n.xpt := rfl
@[simp] theorem respond_mtx (n : Node) (b : Bool) (d : Word) : (n.respond b d).mtx = n.mtx := rfl
@[simp] theorem respond_flt (n : Node) (b : Bool) (d : Word) : (n.respond b d).flt = n.flt := rfl
@[simp] theorem respond_sil (n : Node) (b : Bool) (d : Word) : (n.respond b d).sil = n.sil := rfl
@[simp] theorem respond_phc (n : Node) (b : Bool) (d : Word) : (n.respond b d).phc = n.phc := rfl
@[simp] theorem respond_boot (n : Node) (b : Bool) (d : Word) : (n.respond b d).boot = n.boot := rfl
@[simp] theorem respond_mgmt (n : Node) (b : Bool) (d : Word) : (n.respond b d).mgmt = n.mgmt := rfl
@[simp] theorem respond_pins (n : Node) (b : Bool) (d : Word) : (n.respond b d).pins = n.pins := rfl
@[simp] theorem respond_free (n : Node) (b : Bool) (d : Word) : (n.respond b d).free = n.free := rfl
@[simp] theorem respond_reeds (n : Node) (b : Bool) (d : Word) : (n.respond b d).reeds = n.reeds := rfl
@[simp] theorem respond_reedMem (n : Node) (b : Bool) (d : Word) : (n.respond b d).reedMem = n.reedMem := rfl
@[simp] theorem respond_reedProg (n : Node) (b : Bool) (d : Word) : (n.respond b d).reedProg = n.reedProg := rfl
@[simp] theorem respond_str (n : Node) (b : Bool) (d : Word) : (n.respond b d).str = n.str := rfl
@[simp] theorem respond_macs (n : Node) (b : Bool) (d : Word) : (n.respond b d).macs = n.macs := rfl
@[simp] theorem respond_ptp (n : Node) (b : Bool) (d : Word) : (n.respond b d).ptp = n.ptp := rfl
@[simp] theorem respond_refs (n : Node) (b : Bool) (d : Word) : (n.respond b d).refs = n.refs := rfl
@[simp] theorem respond_loc (n : Node) (b : Bool) (d : Word) : (n.respond b d).loc = n.loc := rfl
@[simp] theorem respond_drive (n : Node) (b : Bool) (d : Word) : (n.respond b d).drive = n.drive := rfl
@[simp] theorem respond_dram (n : Node) (b : Bool) (d : Word) : (n.respond b d).dram = n.dram := rfl
@[simp] theorem respond_hng (n : Node) (b : Bool) (d : Word) : (n.respond b d).hng = n.hng := rfl
@[simp] theorem respond_cfg (n : Node) (b : Bool) (d : Word) : (n.respond b d).cfg = n.cfg := rfl
@[simp] theorem respond_i2c (n : Node) (b : Bool) (d : Word) : (n.respond b d).i2c = n.i2c := rfl
@[simp] theorem respond_pci (n : Node) (b : Bool) (d : Word) : (n.respond b d).pci = n.pci := rfl
@[simp] theorem respond_flash (n : Node) (b : Bool) (d : Word) : (n.respond b d).flash = n.flash := rfl
@[simp] theorem respond_io (n : Node) (b : Bool) (d : Word) : (n.respond b d).io = n.io := rfl

@[simp] theorem wrByte_regs (n : Node) (a : Nat) (b : Byte) : (n.wrByte a b).regs = n.regs := rfl
@[simp] theorem wrByte_active (n : Node) (a : Nat) (b : Byte) : (n.wrByte a b).active = n.active := rfl
@[simp] theorem wrByte_hdrs (n : Node) (a : Nat) (b : Byte) : (n.wrByte a b).hdrs = n.hdrs := rfl
@[simp] theorem wrByte_clk (n : Node) (a : Nat) (b : Byte) : (n.wrByte a b).clk = n.clk := rfl
@[simp] theorem wrByte_cas (n : Node) (a : Nat) (b : Byte) : (n.wrByte a b).cas = n.cas := rfl
@[simp] theorem wrByte_rt (n : Node) (a : Nat) (b : Byte) : (n.wrByte a b).rt = n.rt := rfl
@[simp] theorem wrByte_sht (n : Node) (a : Nat) (b : Byte) : (n.wrByte a b).sht = n.sht := rfl
@[simp] theorem wrByte_strips (n : Node) (a : Nat) (b : Byte) : (n.wrByte a b).strips = n.strips := rfl
@[simp] theorem wrByte_dies (n : Node) (a : Nat) (b : Byte) : (n.wrByte a b).dies = n.dies := rfl
@[simp] theorem wrByte_xpt (n : Node) (a : Nat) (b : Byte) : (n.wrByte a b).xpt = n.xpt := rfl
@[simp] theorem wrByte_mtx (n : Node) (a : Nat) (b : Byte) : (n.wrByte a b).mtx = n.mtx := rfl
@[simp] theorem wrByte_flt (n : Node) (a : Nat) (b : Byte) : (n.wrByte a b).flt = n.flt := rfl
@[simp] theorem wrByte_sil (n : Node) (a : Nat) (b : Byte) : (n.wrByte a b).sil = n.sil := rfl
@[simp] theorem wrByte_phc (n : Node) (a : Nat) (b : Byte) : (n.wrByte a b).phc = n.phc := rfl
@[simp] theorem wrByte_boot (n : Node) (a : Nat) (b : Byte) : (n.wrByte a b).boot = n.boot := rfl
@[simp] theorem wrByte_mgmt (n : Node) (a : Nat) (b : Byte) : (n.wrByte a b).mgmt = n.mgmt := rfl
@[simp] theorem wrByte_pins (n : Node) (a : Nat) (b : Byte) : (n.wrByte a b).pins = n.pins := rfl
@[simp] theorem wrByte_rsp (n : Node) (a : Nat) (b : Byte) : (n.wrByte a b).rsp = n.rsp := rfl
@[simp] theorem wrByte_free (n : Node) (a : Nat) (b : Byte) : (n.wrByte a b).free = n.free := rfl
@[simp] theorem wrByte_reeds (n : Node) (a : Nat) (b : Byte) : (n.wrByte a b).reeds = n.reeds := rfl
@[simp] theorem wrByte_reedMem (n : Node) (a : Nat) (b : Byte) : (n.wrByte a b).reedMem = n.reedMem := rfl
@[simp] theorem wrByte_reedProg (n : Node) (a : Nat) (b : Byte) : (n.wrByte a b).reedProg = n.reedProg := rfl
@[simp] theorem wrByte_str (n : Node) (a : Nat) (b : Byte) : (n.wrByte a b).str = n.str := rfl
@[simp] theorem wrByte_macs (n : Node) (a : Nat) (b : Byte) : (n.wrByte a b).macs = n.macs := rfl
@[simp] theorem wrByte_ptp (n : Node) (a : Nat) (b : Byte) : (n.wrByte a b).ptp = n.ptp := rfl
@[simp] theorem wrByte_refs (n : Node) (a : Nat) (b : Byte) : (n.wrByte a b).refs = n.refs := rfl
@[simp] theorem wrByte_loc (n : Node) (a : Nat) (b : Byte) : (n.wrByte a b).loc = n.loc := rfl
@[simp] theorem wrByte_drive (n : Node) (a : Nat) (b : Byte) : (n.wrByte a b).drive = n.drive := rfl
@[simp] theorem wrByte_dram (n : Node) (a : Nat) (b : Byte) : (n.wrByte a b).dram = n.dram := rfl
@[simp] theorem wrByte_hng (n : Node) (a : Nat) (b : Byte) : (n.wrByte a b).hng = n.hng := rfl
@[simp] theorem wrByte_cfg (n : Node) (a : Nat) (b : Byte) : (n.wrByte a b).cfg = n.cfg := rfl
@[simp] theorem wrByte_i2c (n : Node) (a : Nat) (b : Byte) : (n.wrByte a b).i2c = n.i2c := rfl
@[simp] theorem wrByte_pci (n : Node) (a : Nat) (b : Byte) : (n.wrByte a b).pci = n.pci := rfl
@[simp] theorem wrByte_flash (n : Node) (a : Nat) (b : Byte) : (n.wrByte a b).flash = n.flash := rfl
@[simp] theorem wrByte_io (n : Node) (a : Nat) (b : Byte) : (n.wrByte a b).io = n.io := rfl

@[simp] theorem setDie_regs (n : Node) (d : Nat) (x : DieSt) : (n.setDie d x).regs = n.regs := rfl
@[simp] theorem setDie_active (n : Node) (d : Nat) (x : DieSt) : (n.setDie d x).active = n.active := rfl
@[simp] theorem setDie_hdrs (n : Node) (d : Nat) (x : DieSt) : (n.setDie d x).hdrs = n.hdrs := rfl
@[simp] theorem setDie_mem (n : Node) (d : Nat) (x : DieSt) : (n.setDie d x).mem = n.mem := rfl
@[simp] theorem setDie_clk (n : Node) (d : Nat) (x : DieSt) : (n.setDie d x).clk = n.clk := rfl
@[simp] theorem setDie_cas (n : Node) (d : Nat) (x : DieSt) : (n.setDie d x).cas = n.cas := rfl
@[simp] theorem setDie_rt (n : Node) (d : Nat) (x : DieSt) : (n.setDie d x).rt = n.rt := rfl
@[simp] theorem setDie_sht (n : Node) (d : Nat) (x : DieSt) : (n.setDie d x).sht = n.sht := rfl
@[simp] theorem setDie_strips (n : Node) (d : Nat) (x : DieSt) : (n.setDie d x).strips = n.strips := rfl
@[simp] theorem setDie_xpt (n : Node) (d : Nat) (x : DieSt) : (n.setDie d x).xpt = n.xpt := rfl
@[simp] theorem setDie_mtx (n : Node) (d : Nat) (x : DieSt) : (n.setDie d x).mtx = n.mtx := rfl
@[simp] theorem setDie_flt (n : Node) (d : Nat) (x : DieSt) : (n.setDie d x).flt = n.flt := rfl
@[simp] theorem setDie_sil (n : Node) (d : Nat) (x : DieSt) : (n.setDie d x).sil = n.sil := rfl
@[simp] theorem setDie_phc (n : Node) (d : Nat) (x : DieSt) : (n.setDie d x).phc = n.phc := rfl
@[simp] theorem setDie_boot (n : Node) (d : Nat) (x : DieSt) : (n.setDie d x).boot = n.boot := rfl
@[simp] theorem setDie_mgmt (n : Node) (d : Nat) (x : DieSt) : (n.setDie d x).mgmt = n.mgmt := rfl
@[simp] theorem setDie_pins (n : Node) (d : Nat) (x : DieSt) : (n.setDie d x).pins = n.pins := rfl
@[simp] theorem setDie_rsp (n : Node) (d : Nat) (x : DieSt) : (n.setDie d x).rsp = n.rsp := rfl
@[simp] theorem setDie_free (n : Node) (d : Nat) (x : DieSt) : (n.setDie d x).free = n.free := rfl
@[simp] theorem setDie_reeds (n : Node) (d : Nat) (x : DieSt) : (n.setDie d x).reeds = n.reeds := rfl
@[simp] theorem setDie_reedMem (n : Node) (d : Nat) (x : DieSt) : (n.setDie d x).reedMem = n.reedMem := rfl
@[simp] theorem setDie_reedProg (n : Node) (d : Nat) (x : DieSt) : (n.setDie d x).reedProg = n.reedProg := rfl
@[simp] theorem setDie_str (n : Node) (d : Nat) (x : DieSt) : (n.setDie d x).str = n.str := rfl
@[simp] theorem setDie_macs (n : Node) (d : Nat) (x : DieSt) : (n.setDie d x).macs = n.macs := rfl
@[simp] theorem setDie_ptp (n : Node) (d : Nat) (x : DieSt) : (n.setDie d x).ptp = n.ptp := rfl
@[simp] theorem setDie_refs (n : Node) (d : Nat) (x : DieSt) : (n.setDie d x).refs = n.refs := rfl
@[simp] theorem setDie_loc (n : Node) (d : Nat) (x : DieSt) : (n.setDie d x).loc = n.loc := rfl
@[simp] theorem setDie_drive (n : Node) (d : Nat) (x : DieSt) : (n.setDie d x).drive = n.drive := rfl
@[simp] theorem setDie_dram (n : Node) (d : Nat) (x : DieSt) : (n.setDie d x).dram = n.dram := rfl
@[simp] theorem setDie_hng (n : Node) (d : Nat) (x : DieSt) : (n.setDie d x).hng = n.hng := rfl
@[simp] theorem setDie_cfg (n : Node) (d : Nat) (x : DieSt) : (n.setDie d x).cfg = n.cfg := rfl
@[simp] theorem setDie_i2c (n : Node) (d : Nat) (x : DieSt) : (n.setDie d x).i2c = n.i2c := rfl
@[simp] theorem setDie_pci (n : Node) (d : Nat) (x : DieSt) : (n.setDie d x).pci = n.pci := rfl
@[simp] theorem setDie_flash (n : Node) (d : Nat) (x : DieSt) : (n.setDie d x).flash = n.flash := rfl
@[simp] theorem setDie_io (n : Node) (d : Nat) (x : DieSt) : (n.setDie d x).io = n.io := rfl

@[simp] theorem modDie_regs (n : Node) (d : Nat) (f : DieSt → DieSt) : (n.modDie d f).regs = n.regs := rfl
@[simp] theorem modDie_active (n : Node) (d : Nat) (f : DieSt → DieSt) : (n.modDie d f).active = n.active := rfl
@[simp] theorem modDie_hdrs (n : Node) (d : Nat) (f : DieSt → DieSt) : (n.modDie d f).hdrs = n.hdrs := rfl
@[simp] theorem modDie_mem (n : Node) (d : Nat) (f : DieSt → DieSt) : (n.modDie d f).mem = n.mem := rfl
@[simp] theorem modDie_clk (n : Node) (d : Nat) (f : DieSt → DieSt) : (n.modDie d f).clk = n.clk := rfl
@[simp] theorem modDie_cas (n : Node) (d : Nat) (f : DieSt → DieSt) : (n.modDie d f).cas = n.cas := rfl
@[simp] theorem modDie_rt (n : Node) (d : Nat) (f : DieSt → DieSt) : (n.modDie d f).rt = n.rt := rfl
@[simp] theorem modDie_sht (n : Node) (d : Nat) (f : DieSt → DieSt) : (n.modDie d f).sht = n.sht := rfl
@[simp] theorem modDie_strips (n : Node) (d : Nat) (f : DieSt → DieSt) : (n.modDie d f).strips = n.strips := rfl
@[simp] theorem modDie_xpt (n : Node) (d : Nat) (f : DieSt → DieSt) : (n.modDie d f).xpt = n.xpt := rfl
@[simp] theorem modDie_mtx (n : Node) (d : Nat) (f : DieSt → DieSt) : (n.modDie d f).mtx = n.mtx := rfl
@[simp] theorem modDie_flt (n : Node) (d : Nat) (f : DieSt → DieSt) : (n.modDie d f).flt = n.flt := rfl
@[simp] theorem modDie_sil (n : Node) (d : Nat) (f : DieSt → DieSt) : (n.modDie d f).sil = n.sil := rfl
@[simp] theorem modDie_phc (n : Node) (d : Nat) (f : DieSt → DieSt) : (n.modDie d f).phc = n.phc := rfl
@[simp] theorem modDie_boot (n : Node) (d : Nat) (f : DieSt → DieSt) : (n.modDie d f).boot = n.boot := rfl
@[simp] theorem modDie_mgmt (n : Node) (d : Nat) (f : DieSt → DieSt) : (n.modDie d f).mgmt = n.mgmt := rfl
@[simp] theorem modDie_pins (n : Node) (d : Nat) (f : DieSt → DieSt) : (n.modDie d f).pins = n.pins := rfl
@[simp] theorem modDie_rsp (n : Node) (d : Nat) (f : DieSt → DieSt) : (n.modDie d f).rsp = n.rsp := rfl
@[simp] theorem modDie_free (n : Node) (d : Nat) (f : DieSt → DieSt) : (n.modDie d f).free = n.free := rfl
@[simp] theorem modDie_reeds (n : Node) (d : Nat) (f : DieSt → DieSt) : (n.modDie d f).reeds = n.reeds := rfl
@[simp] theorem modDie_reedMem (n : Node) (d : Nat) (f : DieSt → DieSt) : (n.modDie d f).reedMem = n.reedMem := rfl
@[simp] theorem modDie_reedProg (n : Node) (d : Nat) (f : DieSt → DieSt) : (n.modDie d f).reedProg = n.reedProg := rfl
@[simp] theorem modDie_str (n : Node) (d : Nat) (f : DieSt → DieSt) : (n.modDie d f).str = n.str := rfl
@[simp] theorem modDie_macs (n : Node) (d : Nat) (f : DieSt → DieSt) : (n.modDie d f).macs = n.macs := rfl
@[simp] theorem modDie_ptp (n : Node) (d : Nat) (f : DieSt → DieSt) : (n.modDie d f).ptp = n.ptp := rfl
@[simp] theorem modDie_refs (n : Node) (d : Nat) (f : DieSt → DieSt) : (n.modDie d f).refs = n.refs := rfl
@[simp] theorem modDie_loc (n : Node) (d : Nat) (f : DieSt → DieSt) : (n.modDie d f).loc = n.loc := rfl
@[simp] theorem modDie_drive (n : Node) (d : Nat) (f : DieSt → DieSt) : (n.modDie d f).drive = n.drive := rfl
@[simp] theorem modDie_dram (n : Node) (d : Nat) (f : DieSt → DieSt) : (n.modDie d f).dram = n.dram := rfl
@[simp] theorem modDie_hng (n : Node) (d : Nat) (f : DieSt → DieSt) : (n.modDie d f).hng = n.hng := rfl
@[simp] theorem modDie_cfg (n : Node) (d : Nat) (f : DieSt → DieSt) : (n.modDie d f).cfg = n.cfg := rfl
@[simp] theorem modDie_i2c (n : Node) (d : Nat) (f : DieSt → DieSt) : (n.modDie d f).i2c = n.i2c := rfl
@[simp] theorem modDie_pci (n : Node) (d : Nat) (f : DieSt → DieSt) : (n.modDie d f).pci = n.pci := rfl
@[simp] theorem modDie_flash (n : Node) (d : Nat) (f : DieSt → DieSt) : (n.modDie d f).flash = n.flash := rfl
@[simp] theorem modDie_io (n : Node) (d : Nat) (f : DieSt → DieSt) : (n.modDie d f).io = n.io := rfl

@[simp] theorem attnCause_regs (n : Node) (k : Nat) : (n.attnCause k).regs = n.regs := by unfold attnCause; split <;> rfl
@[simp] theorem attnCause_active (n : Node) (k : Nat) : (n.attnCause k).active = n.active := by unfold attnCause; split <;> rfl
@[simp] theorem attnCause_hdrs (n : Node) (k : Nat) : (n.attnCause k).hdrs = n.hdrs := by unfold attnCause; split <;> rfl
@[simp] theorem attnCause_mem (n : Node) (k : Nat) : (n.attnCause k).mem = n.mem := by unfold attnCause; split <;> rfl
@[simp] theorem attnCause_clk (n : Node) (k : Nat) : (n.attnCause k).clk = n.clk := by unfold attnCause; split <;> rfl
@[simp] theorem attnCause_cas (n : Node) (k : Nat) : (n.attnCause k).cas = n.cas := by unfold attnCause; split <;> rfl
@[simp] theorem attnCause_rt (n : Node) (k : Nat) : (n.attnCause k).rt = n.rt := by unfold attnCause; split <;> rfl
@[simp] theorem attnCause_sht (n : Node) (k : Nat) : (n.attnCause k).sht = n.sht := by unfold attnCause; split <;> rfl
@[simp] theorem attnCause_strips (n : Node) (k : Nat) : (n.attnCause k).strips = n.strips := by unfold attnCause; split <;> rfl
@[simp] theorem attnCause_dies (n : Node) (k : Nat) : (n.attnCause k).dies = n.dies := by unfold attnCause; split <;> rfl
@[simp] theorem attnCause_xpt (n : Node) (k : Nat) : (n.attnCause k).xpt = n.xpt := by unfold attnCause; split <;> rfl
@[simp] theorem attnCause_mtx (n : Node) (k : Nat) : (n.attnCause k).mtx = n.mtx := by unfold attnCause; split <;> rfl
@[simp] theorem attnCause_flt (n : Node) (k : Nat) : (n.attnCause k).flt = n.flt := by unfold attnCause; split <;> rfl
@[simp] theorem attnCause_sil (n : Node) (k : Nat) : (n.attnCause k).sil = n.sil := by unfold attnCause; split <;> rfl
@[simp] theorem attnCause_phc (n : Node) (k : Nat) : (n.attnCause k).phc = n.phc := by unfold attnCause; split <;> rfl
@[simp] theorem attnCause_boot (n : Node) (k : Nat) : (n.attnCause k).boot = n.boot := by unfold attnCause; split <;> rfl
@[simp] theorem attnCause_mgmt (n : Node) (k : Nat) : (n.attnCause k).mgmt = n.mgmt := by unfold attnCause; split <;> rfl
@[simp] theorem attnCause_pins (n : Node) (k : Nat) : (n.attnCause k).pins = n.pins := by unfold attnCause; split <;> rfl
@[simp] theorem attnCause_rsp (n : Node) (k : Nat) : (n.attnCause k).rsp = n.rsp := by unfold attnCause; split <;> rfl
@[simp] theorem attnCause_free (n : Node) (k : Nat) : (n.attnCause k).free = n.free := by unfold attnCause; split <;> rfl
@[simp] theorem attnCause_reeds (n : Node) (k : Nat) : (n.attnCause k).reeds = n.reeds := by unfold attnCause; split <;> rfl
@[simp] theorem attnCause_reedMem (n : Node) (k : Nat) : (n.attnCause k).reedMem = n.reedMem := by unfold attnCause; split <;> rfl
@[simp] theorem attnCause_reedProg (n : Node) (k : Nat) : (n.attnCause k).reedProg = n.reedProg := by unfold attnCause; split <;> rfl
@[simp] theorem attnCause_str (n : Node) (k : Nat) : (n.attnCause k).str = n.str := by unfold attnCause; split <;> rfl
@[simp] theorem attnCause_macs (n : Node) (k : Nat) : (n.attnCause k).macs = n.macs := by unfold attnCause; split <;> rfl
@[simp] theorem attnCause_ptp (n : Node) (k : Nat) : (n.attnCause k).ptp = n.ptp := by unfold attnCause; split <;> rfl
@[simp] theorem attnCause_refs (n : Node) (k : Nat) : (n.attnCause k).refs = n.refs := by unfold attnCause; split <;> rfl
@[simp] theorem attnCause_loc (n : Node) (k : Nat) : (n.attnCause k).loc = n.loc := by unfold attnCause; split <;> rfl
@[simp] theorem attnCause_drive (n : Node) (k : Nat) : (n.attnCause k).drive = n.drive := by unfold attnCause; split <;> rfl
@[simp] theorem attnCause_dram (n : Node) (k : Nat) : (n.attnCause k).dram = n.dram := by unfold attnCause; split <;> rfl
@[simp] theorem attnCause_hng (n : Node) (k : Nat) : (n.attnCause k).hng = n.hng := by unfold attnCause; split <;> rfl
@[simp] theorem attnCause_cfg (n : Node) (k : Nat) : (n.attnCause k).cfg = n.cfg := by unfold attnCause; split <;> rfl
@[simp] theorem attnCause_pci (n : Node) (k : Nat) : (n.attnCause k).pci = n.pci := by unfold attnCause; split <;> rfl
@[simp] theorem attnCause_flash (n : Node) (k : Nat) : (n.attnCause k).flash = n.flash := by unfold attnCause; split <;> rfl
@[simp] theorem attnCause_io (n : Node) (k : Nat) : (n.attnCause k).io = n.io := by unfold attnCause; split <;> rfl

@[simp] theorem fatalHold_regs (n : Node) : (n.fatalHold).regs = n.regs := by unfold fatalHold; split <;> rfl
@[simp] theorem fatalHold_active (n : Node) : (n.fatalHold).active = n.active := by unfold fatalHold; split <;> rfl
@[simp] theorem fatalHold_hdrs (n : Node) : (n.fatalHold).hdrs = n.hdrs := by unfold fatalHold; split <;> rfl
@[simp] theorem fatalHold_mem (n : Node) : (n.fatalHold).mem = n.mem := by unfold fatalHold; split <;> rfl
@[simp] theorem fatalHold_cas (n : Node) : (n.fatalHold).cas = n.cas := by unfold fatalHold; split <;> rfl
@[simp] theorem fatalHold_rt (n : Node) : (n.fatalHold).rt = n.rt := by unfold fatalHold; split <;> rfl
@[simp] theorem fatalHold_sht (n : Node) : (n.fatalHold).sht = n.sht := by unfold fatalHold; split <;> rfl
@[simp] theorem fatalHold_strips (n : Node) : (n.fatalHold).strips = n.strips := by unfold fatalHold; split <;> rfl
@[simp] theorem fatalHold_dies (n : Node) : (n.fatalHold).dies = n.dies := by unfold fatalHold; split <;> rfl
@[simp] theorem fatalHold_xpt (n : Node) : (n.fatalHold).xpt = n.xpt := by unfold fatalHold; split <;> rfl
@[simp] theorem fatalHold_mtx (n : Node) : (n.fatalHold).mtx = n.mtx := by unfold fatalHold; split <;> rfl
@[simp] theorem fatalHold_flt (n : Node) : (n.fatalHold).flt = n.flt := by unfold fatalHold; split <;> rfl
@[simp] theorem fatalHold_sil (n : Node) : (n.fatalHold).sil = n.sil := by unfold fatalHold; split <;> rfl
@[simp] theorem fatalHold_phc (n : Node) : (n.fatalHold).phc = n.phc := by unfold fatalHold; split <;> rfl
@[simp] theorem fatalHold_boot (n : Node) : (n.fatalHold).boot = n.boot := by unfold fatalHold; split <;> rfl
@[simp] theorem fatalHold_pins (n : Node) : (n.fatalHold).pins = n.pins := by unfold fatalHold; split <;> rfl
@[simp] theorem fatalHold_rsp (n : Node) : (n.fatalHold).rsp = n.rsp := by unfold fatalHold; split <;> rfl
@[simp] theorem fatalHold_free (n : Node) : (n.fatalHold).free = n.free := by unfold fatalHold; split <;> rfl
@[simp] theorem fatalHold_reedMem (n : Node) : (n.fatalHold).reedMem = n.reedMem := by unfold fatalHold; split <;> rfl
@[simp] theorem fatalHold_reedProg (n : Node) : (n.fatalHold).reedProg = n.reedProg := by unfold fatalHold; split <;> rfl
@[simp] theorem fatalHold_str (n : Node) : (n.fatalHold).str = n.str := by unfold fatalHold; split <;> rfl
@[simp] theorem fatalHold_macs (n : Node) : (n.fatalHold).macs = n.macs := by unfold fatalHold; split <;> rfl
@[simp] theorem fatalHold_ptp (n : Node) : (n.fatalHold).ptp = n.ptp := by unfold fatalHold; split <;> rfl
@[simp] theorem fatalHold_refs (n : Node) : (n.fatalHold).refs = n.refs := by unfold fatalHold; split <;> rfl
@[simp] theorem fatalHold_loc (n : Node) : (n.fatalHold).loc = n.loc := by unfold fatalHold; split <;> rfl
@[simp] theorem fatalHold_drive (n : Node) : (n.fatalHold).drive = n.drive := by unfold fatalHold; split <;> rfl
@[simp] theorem fatalHold_dram (n : Node) : (n.fatalHold).dram = n.dram := by unfold fatalHold; split <;> rfl
@[simp] theorem fatalHold_cfg (n : Node) : (n.fatalHold).cfg = n.cfg := by unfold fatalHold; split <;> rfl
@[simp] theorem fatalHold_i2c (n : Node) : (n.fatalHold).i2c = n.i2c := by unfold fatalHold; split <;> rfl
@[simp] theorem fatalHold_pci (n : Node) : (n.fatalHold).pci = n.pci := by unfold fatalHold; split <;> rfl
@[simp] theorem fatalHold_flash (n : Node) : (n.fatalHold).flash = n.flash := by unfold fatalHold; split <;> rfl
@[simp] theorem fatalHold_io (n : Node) : (n.fatalHold).io = n.io := by unfold fatalHold; split <;> rfl

@[simp] theorem lines_regs (n : Node) : (n.lines).regs = n.regs := by unfold lines; dsimp only; split <;> simp
@[simp] theorem lines_active (n : Node) : (n.lines).active = n.active := by unfold lines; dsimp only; split <;> simp
@[simp] theorem lines_hdrs (n : Node) : (n.lines).hdrs = n.hdrs := by unfold lines; dsimp only; split <;> simp
@[simp] theorem lines_mem (n : Node) : (n.lines).mem = n.mem := by unfold lines; dsimp only; split <;> simp
@[simp] theorem lines_clk (n : Node) : (n.lines).clk = n.clk := by unfold lines; dsimp only; split <;> simp
@[simp] theorem lines_cas (n : Node) : (n.lines).cas = n.cas := by unfold lines; dsimp only; split <;> simp
@[simp] theorem lines_rt (n : Node) : (n.lines).rt = n.rt := by unfold lines; dsimp only; split <;> simp
@[simp] theorem lines_sht (n : Node) : (n.lines).sht = n.sht := by unfold lines; dsimp only; split <;> simp
@[simp] theorem lines_strips (n : Node) : (n.lines).strips = n.strips := by unfold lines; dsimp only; split <;> simp
@[simp] theorem lines_dies (n : Node) : (n.lines).dies = n.dies := by unfold lines; dsimp only; split <;> simp
@[simp] theorem lines_xpt (n : Node) : (n.lines).xpt = n.xpt := by unfold lines; dsimp only; split <;> simp
@[simp] theorem lines_mtx (n : Node) : (n.lines).mtx = n.mtx := by unfold lines; dsimp only; split <;> simp
@[simp] theorem lines_flt (n : Node) : (n.lines).flt = n.flt := by unfold lines; dsimp only; split <;> simp
@[simp] theorem lines_sil (n : Node) : (n.lines).sil = n.sil := by unfold lines; dsimp only; split <;> simp
@[simp] theorem lines_phc (n : Node) : (n.lines).phc = n.phc := by unfold lines; dsimp only; split <;> simp
@[simp] theorem lines_boot (n : Node) : (n.lines).boot = n.boot := by unfold lines; dsimp only; split <;> simp
@[simp] theorem lines_mgmt (n : Node) : (n.lines).mgmt = n.mgmt := by unfold lines; dsimp only; split <;> simp
@[simp] theorem lines_pins (n : Node) : (n.lines).pins = n.pins := by unfold lines; dsimp only; split <;> simp
@[simp] theorem lines_rsp (n : Node) : (n.lines).rsp = n.rsp := by unfold lines; dsimp only; split <;> simp
@[simp] theorem lines_free (n : Node) : (n.lines).free = n.free := by unfold lines; dsimp only; split <;> simp
@[simp] theorem lines_reeds (n : Node) : (n.lines).reeds = n.reeds := by unfold lines; dsimp only; split <;> simp
@[simp] theorem lines_reedMem (n : Node) : (n.lines).reedMem = n.reedMem := by unfold lines; dsimp only; split <;> simp
@[simp] theorem lines_reedProg (n : Node) : (n.lines).reedProg = n.reedProg := by unfold lines; dsimp only; split <;> simp
@[simp] theorem lines_str (n : Node) : (n.lines).str = n.str := by unfold lines; dsimp only; split <;> simp
@[simp] theorem lines_macs (n : Node) : (n.lines).macs = n.macs := by unfold lines; dsimp only; split <;> simp
@[simp] theorem lines_ptp (n : Node) : (n.lines).ptp = n.ptp := by unfold lines; dsimp only; split <;> simp
@[simp] theorem lines_refs (n : Node) : (n.lines).refs = n.refs := by unfold lines; dsimp only; split <;> simp
@[simp] theorem lines_loc (n : Node) : (n.lines).loc = n.loc := by unfold lines; dsimp only; split <;> simp
@[simp] theorem lines_drive (n : Node) : (n.lines).drive = n.drive := by unfold lines; dsimp only; split <;> simp
@[simp] theorem lines_dram (n : Node) : (n.lines).dram = n.dram := by unfold lines; dsimp only; split <;> simp
@[simp] theorem lines_hng (n : Node) : (n.lines).hng = n.hng := by unfold lines; dsimp only; split <;> simp
@[simp] theorem lines_cfg (n : Node) : (n.lines).cfg = n.cfg := by unfold lines; dsimp only; split <;> simp
@[simp] theorem lines_flash (n : Node) : (n.lines).flash = n.flash := by unfold lines; dsimp only; split <;> simp
@[simp] theorem lines_io (n : Node) : (n.lines).io = n.io := by unfold lines; dsimp only; split <;> simp

@[simp] theorem settle_regs (n : Node) : (n.settle).regs = n.regs := by simp [settle]
@[simp] theorem settle_active (n : Node) : (n.settle).active = n.active := by simp [settle]
@[simp] theorem settle_hdrs (n : Node) : (n.settle).hdrs = n.hdrs := by simp [settle]
@[simp] theorem settle_mem (n : Node) : (n.settle).mem = n.mem := by simp [settle]
@[simp] theorem settle_cas (n : Node) : (n.settle).cas = n.cas := by simp [settle]
@[simp] theorem settle_rt (n : Node) : (n.settle).rt = n.rt := by simp [settle]
@[simp] theorem settle_sht (n : Node) : (n.settle).sht = n.sht := by simp [settle]
@[simp] theorem settle_strips (n : Node) : (n.settle).strips = n.strips := by simp [settle]
@[simp] theorem settle_dies (n : Node) : (n.settle).dies = n.dies := by simp [settle]
@[simp] theorem settle_xpt (n : Node) : (n.settle).xpt = n.xpt := by simp [settle]
@[simp] theorem settle_mtx (n : Node) : (n.settle).mtx = n.mtx := by simp [settle]
@[simp] theorem settle_flt (n : Node) : (n.settle).flt = n.flt := by simp [settle]
@[simp] theorem settle_sil (n : Node) : (n.settle).sil = n.sil := by simp [settle]
@[simp] theorem settle_phc (n : Node) : (n.settle).phc = n.phc := by simp [settle]
@[simp] theorem settle_boot (n : Node) : (n.settle).boot = n.boot := by simp [settle]
@[simp] theorem settle_pins (n : Node) : (n.settle).pins = n.pins := by simp [settle]
@[simp] theorem settle_rsp (n : Node) : (n.settle).rsp = n.rsp := by simp [settle]
@[simp] theorem settle_free (n : Node) : (n.settle).free = n.free := by simp [settle]
@[simp] theorem settle_reedMem (n : Node) : (n.settle).reedMem = n.reedMem := by simp [settle]
@[simp] theorem settle_reedProg (n : Node) : (n.settle).reedProg = n.reedProg := by simp [settle]
@[simp] theorem settle_str (n : Node) : (n.settle).str = n.str := by simp [settle]
@[simp] theorem settle_macs (n : Node) : (n.settle).macs = n.macs := by simp [settle]
@[simp] theorem settle_ptp (n : Node) : (n.settle).ptp = n.ptp := by simp [settle]
@[simp] theorem settle_refs (n : Node) : (n.settle).refs = n.refs := by simp [settle]
@[simp] theorem settle_loc (n : Node) : (n.settle).loc = n.loc := by simp [settle]
@[simp] theorem settle_drive (n : Node) : (n.settle).drive = n.drive := by simp [settle]
@[simp] theorem settle_dram (n : Node) : (n.settle).dram = n.dram := by simp [settle]
@[simp] theorem settle_cfg (n : Node) : (n.settle).cfg = n.cfg := by simp [settle]
@[simp] theorem settle_flash (n : Node) : (n.settle).flash = n.flash := by simp [settle]
@[simp] theorem settle_io (n : Node) : (n.settle).io = n.io := by simp [settle]

/-! Registers. -/

theorem setReg_regs (n : Node) (p : Page) (off : Nat) (v : Word) (i : Nat) :
    (n.setReg p off v i).regs = Sparse.set resetKey n.regs (regKey p off i) v := rfl

/-- A write of a register changes that register alone. -/
theorem get_setReg (n : Node) (p : Page) (off i k : Nat) (v : Word) :
    Sparse.get resetKey (n.setReg p off v i).regs k
      = if k = regKey p off i then v else Sparse.get resetKey n.regs k := Sparse.get_set ..

theorem reg_setReg (n : Node) (p q : Page) (off off' i j : Nat) (v : Word) :
    (n.setReg p off v i).reg q off' j = if regKey q off' j = regKey p off i then v else n.reg q off' j :=
  get_setReg ..

theorem get_setFld (n : Node) (p : Page) (f : Field) (v i k : Nat) :
    Sparse.get resetKey (n.setFld p f v i).regs k
      = if k = regKey p f.off i then setWordField (n.reg p f.off i) f v else Sparse.get resetKey n.regs k :=
  get_setReg ..

theorem reg_setFld (n : Node) (p q : Page) (f : Field) (off v i j : Nat) :
    (n.setFld p f v i).reg q off j
      = if regKey q off j = regKey p f.off i then setWordField (n.reg p f.off i) f v else n.reg q off j :=
  get_setReg ..

theorem get_bump (n : Node) (p : Page) (f : Field) (c i k : Nat) :
    Sparse.get resetKey (n.bump p f c i).regs k
      = if k = regKey p f.off i then
          setWordField (n.reg p f.off i) f (Nat.min (n.fld p f i + c) (2 ^ (f.hi + 1 - f.lo) - 1))
        else Sparse.get resetKey n.regs k := get_setReg ..

theorem get_irq (n : Node) (p : Page) (b k : Nat) :
    Sparse.get resetKey (n.irq p b).regs k
      = if b < blockIrqs p.block ∧ k = regKey p 0x010 0 then n.reg p 0x010 ||| (1#32 <<< b)
        else Sparse.get resetKey n.regs k := by
  unfold irq
  split
  · next h => simp only [h, true_and]; exact get_setReg ..
  · next h => simp [h]

/-- A field reads as it was where the registers are the same. -/
theorem fld_congr {n m : Node} (h : m.regs = n.regs) (p : Page) (f : Field) (i : Nat) : m.fld p f i = n.fld p f i := by
  simp [fld, reg, h]

theorem reg_congr {n m : Node} (h : m.regs = n.regs) (p : Page) (off i : Nat) : m.reg p off i = n.reg p off i := by
  simp [reg, h]

@[simp] theorem settle_reg (n : Node) (p : Page) (off i : Nat) : n.settle.reg p off i = n.reg p off i :=
  reg_congr (settle_regs n) ..

@[simp] theorem settle_fld (n : Node) (p : Page) (f : Field) (i : Nat) : n.settle.fld p f i = n.fld p f i :=
  fld_congr (settle_regs n) ..

/-- A written field reads as the value cut to its width. -/
theorem fld_setFld_same (n : Node) (p : Page) (f : Field) (v i : Nat) (h : f.hi < 32) :
    (n.setFld p f v i).fld p f i = v % 2 ^ (f.hi + 1 - f.lo) := by
  simp [fld, reg_setFld, wordField_setWordField_same _ _ _ h]

/-- Any other field reads as before. -/
theorem fld_setFld_ne (n : Node) (p q : Page) (f g : Field) (v i j : Nat)
    (h : regKey q g.off j ≠ regKey p f.off i ∨ g.hi < f.lo ∨ f.hi < g.lo) :
    (n.setFld p f v i).fld q g j = n.fld q g j := by
  simp only [fld, reg_setFld]
  split
  · next hk =>
    have h' : g.hi < f.lo ∨ f.hi < g.lo := h.resolve_left (not_not_intro hk)
    rw [wordField_setWordField_ne _ _ _ _ h']
    simp [reg, hk]
  · rfl

/-- A field of another register reads as before. -/
theorem fld_setReg_ne (n : Node) (p q : Page) (g : Field) (off i j : Nat) (v : Word)
    (h : regKey q g.off j ≠ regKey p off i) : (n.setReg p off v i).fld q g j = n.fld q g j := by
  simp [fld, reg_setReg, h]

@[simp] theorem hdr_setHdr (n : Node) (p : Page) (h : Hdr) : (n.setHdr p h).hdr p = h := by
  simp [hdr, setHdr]

@[simp] theorem hdr_modHdr (n : Node) (p : Page) (f : Hdr → Hdr) : (n.modHdr p f).hdr p = f (n.hdr p) := by
  simp [modHdr]

theorem die_setDie (n : Node) (d e : Nat) (x : DieSt) : (n.setDie d x).die e = if e = d then x else n.die e := by
  simp [die, setDie, Sparse.get_set]

@[simp] theorem die_modDie (n : Node) (d : Nat) (f : DieSt → DieSt) : (n.modDie d f).die d = f (n.die d) := by
  simp [modDie, die_setDie]

/-! Memory. -/

theorem rdByte_wrByte (n : Node) (a x : Nat) (b : Byte) : (n.wrByte a b).rdByte x = if x = a then b else n.rdByte x := by
  simp [rdByte, wrByte, Sparse.get_set]

/-- A write of bytes leaves every byte outside its range alone. -/
theorem rdByte_wrBytes_outside (n : Node) (a x : Nat) (bs : List Byte) (h : ¬(a ≤ x ∧ x < a + bs.length)) :
    (n.wrBytes a bs).rdByte x = n.rdByte x := by
  induction bs generalizing n a with
  | nil => rfl
  | cons b bs ih =>
    simp only [List.length_cons] at h
    rw [wrBytes, ih _ _ (by omega), rdByte_wrByte, if_neg (by omega)]

/-- A write of bytes puts each byte at its address. -/
theorem rdByte_wrBytes_inside (n : Node) (a k : Nat) (bs : List Byte) (h : k < bs.length) :
    (n.wrBytes a bs).rdByte (a + k) = bs[k] := by
  induction bs generalizing n a k with
  | nil => simp at h
  | cons b bs ih =>
    cases k with
    | zero =>
      rw [wrBytes, rdByte_wrBytes_outside _ _ _ _ (by omega), Nat.add_zero, rdByte_wrByte, if_pos rfl]
      rfl
    | succ k =>
      have := ih (n.wrByte a b) (a + 1) k (by simpa using h)
      rw [wrBytes, show a + (k + 1) = a + 1 + k by omega, this]
      rfl

theorem wf_wrByte (n : Node) (a : Nat) (b : Byte) (h : Memory.wf n.mem) : Memory.wf (n.wrByte a b).mem :=
  Sparse.wf_set _ _ _ _ h

theorem wf_wrBytes (n : Node) (a : Nat) (bs : List Byte) (h : Memory.wf n.mem) : Memory.wf (n.wrBytes a bs).mem := by
  induction bs generalizing n a with
  | nil => exact h
  | cons b bs ih => exact ih _ _ (wf_wrByte n a b h)

theorem wf_copyMap (n : Node) (dst src k : Nat) (f : Nat → Byte → Byte) (h : Memory.wf n.mem) :
    Memory.wf (n.copyMap dst src k f).mem := by
  unfold copyMap
  dsimp only
  generalize n.mem.filter (fun e => decide (src ≤ e.1 ∧ e.1 < src + k)) = es
  have h0 : Memory.wf ({ n with mem := n.mem.filter (fun e => !decide (dst ≤ e.1 ∧ e.1 < dst + k)) } : Node).mem :=
    Sparse.wf_filter _ _ _ h
  generalize ({ n with mem := n.mem.filter (fun e => !decide (dst ≤ e.1 ∧ e.1 < dst + k)) } : Node) = m at h0
  induction es generalizing m with
  | nil => exact h0
  | cons e es ih => exact ih _ (wf_wrByte _ _ _ h0)

/-! What ends a command. -/

theorem fatalHold_of_not_fatal {n : Node} (h : n.sil.fatal = false) : n.fatalHold = n := by
  simp [fatalHold, h]

theorem settle_of_not_fatal {n : Node} (h : n.sil.fatal = false) : n.settle = n.lines := by
  simp [settle, fatalHold_of_not_fatal h]

/-- Where no fatal fault is held, the end of a command changes only the interrupt lines. -/
theorem settle_only {n : Node} (h : n.sil.fatal = false) : Safety.OnlyIn [] n n.settle := by
  rw [settle_of_not_fatal h]
  intro p _
  cases p <;> simp only [Safety.Part.same, lines_regs, lines_active, lines_hdrs, lines_mem, lines_clk, lines_cas, lines_rt,
    lines_sht, lines_strips, lines_dies, lines_xpt, lines_mtx, lines_flt, lines_sil, lines_phc, lines_boot, lines_mgmt,
    lines_pins, lines_rsp, lines_free, lines_reeds, lines_reedMem, lines_reedProg, lines_str, lines_macs, lines_ptp,
    lines_refs, lines_loc, lines_drive, lines_dram, lines_hng, lines_cfg, lines_flash]
  all_goals (unfold lines attnCause; dsimp only; split <;> (try split) <;> rfl)

end Node

/-- The reset state's memory has the canonical form. -/
theorem reset_mem_wf : Memory.wf State.reset.node.mem := rfl

theorem act_eq (s : State) (f : Node → Node) : s.act f = .next { s with node := (f s.node).settle } := rfl

theorem hub_eq {s : State} (h : s.node.alive = true) (f : Node → Node) :
    s.hub f = .next { s with node := (f s.node).settle } := by simp [State.hub, State.act, h]

theorem sill_eq {s : State} (h : s.node.sil.powered = true) (f : Node → Node) :
    s.sill f = .next { s with node := (f s.node).settle } := by simp [State.sill, State.act, h]

/-- A node that runs is powered, out of reset and holds no fatal fault. -/
theorem alive_iff (n : Node) :
    n.alive = true ↔ n.sil.powered = true ∧ n.sil.por = false ∧ n.boot.railOut = false ∧ n.sil.fatal = false := by
  simp [Node.alive, and_assoc]

end Sys2Proof.Machine

namespace Sys2Proof.Safety

open Sys2Proof.Machine

theorem Part.same_refl (p : Part) (n : Node) : p.same n n := by cases p <;> rfl

theorem Part.same_trans {p : Part} {a b c : Node} (h : p.same a b) (g : p.same b c) : p.same a c := by
  cases p
  case i2c =>
    have h : b.i2c = _ := h
    have g : c.i2c = _ := g
    exact g.trans (by rw [h])
  case pci =>
    have h : b.pci = _ := h
    have g : c.pci = _ := g
    exact g.trans (by rw [h])
  all_goals exact Eq.trans g h

theorem OnlyIn.trans {ps : List Part} {a b c : Node} (h : OnlyIn ps a b) (g : OnlyIn ps b c) : OnlyIn ps a c :=
  fun p hp => Part.same_trans (h p hp) (g p hp)

theorem OnlyIn.mono {ps qs : List Part} {a b : Node} (h : OnlyIn ps a b) (hs : ∀ p, p ∈ ps → p ∈ qs) : OnlyIn qs a b :=
  fun p hp => h p (fun hp' => hp (hs p hp'))

/-- The end of a command widens no frame where no fatal fault is held. -/
theorem OnlyIn.settle {ps : List Part} {n m : Node} (h : OnlyIn ps n m) (hf : m.sil.fatal = false) : OnlyIn ps n m.settle :=
  OnlyIn.trans h (OnlyIn.mono (Node.settle_only hf) (fun _ h => absurd h (List.not_mem_nil)))

/-- A command of the hub answers the state that its effect gives. -/
theorem answers_hub {i : Instr} {s : State} {f : Node → Node} {P : Node → Prop} (he : exec i s = s.hub f)
    (ha : s.node.alive = true) (hP : P (f s.node).settle) : Answers i s P :=
  ⟨_, he.trans (hub_eq ha f), rfl, hP⟩

theorem answers_sill {i : Instr} {s : State} {f : Node → Node} {P : Node → Prop} (he : exec i s = s.sill f)
    (ha : s.node.sil.powered = true) (hP : P (f s.node).settle) : Answers i s P :=
  ⟨_, he.trans (sill_eq ha f), rfl, hP⟩

theorem answers_act {i : Instr} {s : State} {f : Node → Node} {P : Node → Prop} (he : exec i s = s.act f)
    (hP : P (f s.node).settle) : Answers i s P :=
  ⟨_, he.trans (act_eq s f), rfl, hP⟩

end Sys2Proof.Safety
end

