-- ==== Sys2Proof/Laws/Exec.lean ====
section
/-! SUPPORT. The form of every command: an effect on what the block holds, then the end that all commands share. -/

namespace Sys2Proof.Machine

/-- Every command is an effect of the hub, of the Sill island, or of neither. -/
theorem exec_form (i : Instr) :
    (Safety.beyondHub i = false ∧ ∃ f : Node → Node, ∀ s, exec i s = s.hub f) ∨
    (Safety.beyondHub i = true ∧ ∃ f : Node → Node, ∀ s, exec i s = s.sill f) ∨
    (Safety.beyondHub i = true ∧ ∃ f : Node → Node, ∀ s, exec i s = s.act f) := by
  cases i with
  | registerWrite a1 b1 c1 d1 e1 f1 => exact .inl ⟨rfl, (⟨_, fun _ => rfl⟩ : ∃ f : Node → Node, ∀ s, execRegisterWrite a1 b1 c1 d1 e1 f1 s = s.hub f)⟩
  | rcRead a1 b1 c1 d1 => exact .inl ⟨rfl, (⟨_, fun _ => rfl⟩ : ∃ f : Node → Node, ∀ s, execRcRead a1 b1 c1 d1 s = s.hub f)⟩
  | memoryWrite a1 b1 c1 d1 => exact .inl ⟨rfl, (⟨_, fun _ => rfl⟩ : ∃ f : Node → Node, ∀ s, execMemoryWrite a1 b1 c1 d1 s = s.hub f)⟩
  | decodeErrorAccess a1 b1 c1 => exact .inl ⟨rfl, (⟨_, fun _ => rfl⟩ : ∃ f : Node → Node, ∀ s, execDecodeErrorAccess a1 b1 c1 s = s.hub f)⟩
  | absentDieAccess a1 b1 c1 => exact .inl ⟨rfl, (⟨_, fun _ => rfl⟩ : ∃ f : Node → Node, ∀ s, execAbsentDieAccess a1 b1 c1 s = s.hub f)⟩
  | poisonedBurstRead a1 b1 => exact .inl ⟨rfl, (⟨_, fun _ => rfl⟩ : ∃ f : Node → Node, ∀ s, execPoisonedBurstRead a1 b1 s = s.hub f)⟩
  | matrixRequest a1 => exact .inl ⟨rfl, (⟨_, fun _ => rfl⟩ : ∃ f : Node → Node, ∀ s, execMatrixRequest a1 s = s.hub f)⟩
  | heldRequestRelease a1 b1 c1 => exact .inl ⟨rfl, (⟨_, fun _ => rfl⟩ : ∃ f : Node → Node, ∀ s, execHeldRequestRelease a1 b1 c1 s = s.hub f)⟩
  | mtxRemapWrite a1 b1 => exact .inl ⟨rfl, (⟨_, fun _ => rfl⟩ : ∃ f : Node → Node, ∀ s, execMtxRemapWrite a1 b1 s = s.hub f)⟩
  | pageEnable a1 b1 => exact .inl ⟨rfl, (⟨_, fun _ => rfl⟩ : ∃ f : Node → Node, ∀ s, execPageEnable a1 b1 s = s.hub f)⟩
  | pageDisable a1 b1 => exact .inl ⟨rfl, (⟨_, fun _ => rfl⟩ : ∃ f : Node → Node, ∀ s, execPageDisable a1 b1 s = s.hub f)⟩
  | shutdownComplete a1 => exact .inl ⟨rfl, (⟨_, fun _ => rfl⟩ : ∃ f : Node → Node, ∀ s, execShutdownComplete a1 s = s.hub f)⟩
  | softReset a1 b1 => exact .inl ⟨rfl, (⟨_, fun _ => rfl⟩ : ∃ f : Node → Node, ∀ s, execSoftReset a1 b1 s = s.hub f)⟩
  | pageFreeze a1 b1 c1 => exact .inl ⟨rfl, (⟨_, fun _ => rfl⟩ : ∃ f : Node → Node, ∀ s, execPageFreeze a1 b1 c1 s = s.hub f)⟩
  | irqTestSet a1 b1 c1 => exact .inl ⟨rfl, (⟨_, fun _ => rfl⟩ : ∃ f : Node → Node, ∀ s, execIrqTestSet a1 b1 c1 s = s.hub f)⟩
  | pageCommitRequest a1 b1 => exact .inl ⟨rfl, (⟨_, fun _ => rfl⟩ : ∃ f : Node → Node, ∀ s, execPageCommitRequest a1 b1 s = s.hub f)⟩
  | groupCommitRequest a1 => exact .inl ⟨rfl, (⟨_, fun _ => rfl⟩ : ∃ f : Node → Node, ∀ s, execGroupCommitRequest a1 s = s.hub f)⟩
  | commitCutoff => exact .inl ⟨rfl, (⟨_, fun _ => rfl⟩ : ∃ f : Node → Node, ∀ s, execCommitCutoff s = s.hub f)⟩
  | keyCodeWrite a1 b1 c1 => exact .inl ⟨rfl, (⟨_, fun _ => rfl⟩ : ∃ f : Node → Node, ∀ s, execKeyCodeWrite a1 b1 c1 s = s.hub f)⟩
  | keyExpiry a1 => exact .inl ⟨rfl, (⟨_, fun _ => rfl⟩ : ∃ f : Node → Node, ∀ s, execKeyExpiry a1 s = s.hub f)⟩
  | mailboxDoorbell a1 b1 => exact .inl ⟨rfl, (⟨_, fun _ => rfl⟩ : ∃ f : Node → Node, ∀ s, execMailboxDoorbell a1 b1 s = s.hub f)⟩
  | mailboxResponse a1 b1 c1 d1 => exact .inl ⟨rfl, (⟨_, fun _ => rfl⟩ : ∃ f : Node → Node, ∀ s, execMailboxResponse a1 b1 c1 d1 s = s.hub f)⟩
  | mailboxTimeout a1 => exact .inl ⟨rfl, (⟨_, fun _ => rfl⟩ : ∃ f : Node → Node, ∀ s, execMailboxTimeout a1 s = s.hub f)⟩
  | casementBoundary a1 => exact .inl ⟨rfl, (⟨_, fun _ => rfl⟩ : ∃ f : Node → Node, ∀ s, execCasementBoundary a1 s = s.hub f)⟩
  | casReindexNow a1 => exact .inl ⟨rfl, (⟨_, fun _ => rfl⟩ : ∃ f : Node → Node, ∀ s, execCasReindexNow a1 s = s.hub f)⟩
  | reindexGenerationStop => exact .inl ⟨rfl, (⟨_, fun _ => rfl⟩ : ∃ f : Node → Node, ∀ s, execReindexGenerationStop s = s.hub f)⟩
  | reindexResume => exact .inl ⟨rfl, (⟨_, fun _ => rfl⟩ : ∃ f : Node → Node, ∀ s, execReindexResume s = s.hub f)⟩
  | rateReadmitAnswer => exact .inl ⟨rfl, (⟨_, fun _ => rfl⟩ : ∃ f : Node → Node, ∀ s, execRateReadmitAnswer s = s.hub f)⟩
  | rateReadmitTimeout => exact .inl ⟨rfl, (⟨_, fun _ => rfl⟩ : ∃ f : Node → Node, ∀ s, execRateReadmitTimeout s = s.hub f)⟩
  | casGenerationStop => exact .inl ⟨rfl, (⟨_, fun _ => rfl⟩ : ∃ f : Node → Node, ∀ s, execCasGenerationStop s = s.hub f)⟩
  | casIndexRead a1 => exact .inl ⟨rfl, (⟨_, fun _ => rfl⟩ : ∃ f : Node → Node, ∀ s, execCasIndexRead a1 s = s.hub f)⟩
  | workDeadline => exact .inl ⟨rfl, (⟨_, fun _ => rfl⟩ : ∃ f : Node → Node, ∀ s, execWorkDeadline s = s.hub f)⟩
  | unfinishedItemEnd a1 b1 c1 => exact .inl ⟨rfl, (⟨_, fun _ => rfl⟩ : ∃ f : Node → Node, ∀ s, execUnfinishedItemEnd a1 b1 c1 s = s.hub f)⟩
  | lintelTransferArrival a1 b1 c1 d1 => exact .inl ⟨rfl, (⟨_, fun _ => rfl⟩ : ∃ f : Node → Node, ∀ s, execLintelTransferArrival a1 b1 c1 d1 s = s.hub f)⟩
  | workItemStart a1 b1 c1 => exact .inl ⟨rfl, (⟨_, fun _ => rfl⟩ : ∃ f : Node → Node, ∀ s, execWorkItemStart a1 b1 c1 s = s.hub f)⟩
  | workItemComplete a1 b1 => exact .inl ⟨rfl, (⟨_, fun _ => rfl⟩ : ∃ f : Node → Node, ∀ s, execWorkItemComplete a1 b1 s = s.hub f)⟩
  | routeCompile a1 b1 c1 => exact .inl ⟨rfl, (⟨_, fun _ => rfl⟩ : ∃ f : Node → Node, ∀ s, execRouteCompile a1 b1 c1 s = s.hub f)⟩
  | routeCompileDone a1 b1 => exact .inl ⟨rfl, (⟨_, fun _ => rfl⟩ : ∃ f : Node → Node, ∀ s, execRouteCompileDone a1 b1 s = s.hub f)⟩
  | routeStatus a1 b1 => exact .inl ⟨rfl, (⟨_, fun _ => rfl⟩ : ∃ f : Node → Node, ∀ s, execRouteStatus a1 b1 s = s.hub f)⟩
  | routeReport a1 b1 c1 => exact .inl ⟨rfl, (⟨_, fun _ => rfl⟩ : ∃ f : Node → Node, ∀ s, execRouteReport a1 b1 c1 s = s.hub f)⟩
  | routeCommit a1 b1 => exact .inl ⟨rfl, (⟨_, fun _ => rfl⟩ : ∃ f : Node → Node, ∀ s, execRouteCommit a1 b1 s = s.hub f)⟩
  | routeLatency a1 b1 c1 => exact .inl ⟨rfl, (⟨_, fun _ => rfl⟩ : ∃ f : Node → Node, ∀ s, execRouteLatency a1 b1 c1 s = s.hub f)⟩
  | routeDiscard a1 b1 => exact .inl ⟨rfl, (⟨_, fun _ => rfl⟩ : ∃ f : Node → Node, ∀ s, execRouteDiscard a1 b1 s = s.hub f)⟩
  | routeStageStart => exact .inl ⟨rfl, (⟨_, fun _ => rfl⟩ : ∃ f : Node → Node, ∀ s, execRouteStageStart s = s.hub f)⟩
  | readmitAfterLoss a1 => exact .inl ⟨rfl, (⟨_, fun _ => rfl⟩ : ∃ f : Node → Node, ∀ s, execReadmitAfterLoss a1 s = s.hub f)⟩
  | followCopyEnd => exact .inl ⟨rfl, (⟨_, fun _ => rfl⟩ : ∃ f : Node → Node, ∀ s, execFollowCopyEnd s = s.hub f)⟩
  | refillHoldEnd a1 => exact .inl ⟨rfl, (⟨_, fun _ => rfl⟩ : ∃ f : Node → Node, ∀ s, execRefillHoldEnd a1 s = s.hub f)⟩
  | xptObjRead a1 => exact .inl ⟨rfl, (⟨_, fun _ => rfl⟩ : ∃ f : Node → Node, ∀ s, execXptObjRead a1 s = s.hub f)⟩
  | bundleEventReport a1 b1 => exact .inl ⟨rfl, (⟨_, fun _ => rfl⟩ : ∃ f : Node → Node, ∀ s, execBundleEventReport a1 b1 s = s.hub f)⟩
  | shutterRequest a1 b1 c1 => exact .inl ⟨rfl, (⟨_, fun _ => rfl⟩ : ∃ f : Node → Node, ∀ s, execShutterRequest a1 b1 c1 s = s.hub f)⟩
  | shutterRampEnd a1 => exact .inl ⟨rfl, (⟨_, fun _ => rfl⟩ : ∃ f : Node → Node, ∀ s, execShutterRampEnd a1 s = s.hub f)⟩
  | protectFadeEnd a1 => exact .inl ⟨rfl, (⟨_, fun _ => rfl⟩ : ∃ f : Node → Node, ∀ s, execProtectFadeEnd a1 s = s.hub f)⟩
  | protectRestoreEnd a1 => exact .inl ⟨rfl, (⟨_, fun _ => rfl⟩ : ∃ f : Node → Node, ∀ s, execProtectRestoreEnd a1 s = s.hub f)⟩
  | muteNAssert => exact .inr (.inr ⟨rfl, (⟨_, fun _ => rfl⟩ : ∃ f : Node → Node, ∀ s, execMuteNAssert s = s.act f)⟩)
  | muteNRelease => exact .inr (.inr ⟨rfl, (⟨_, fun _ => rfl⟩ : ∃ f : Node → Node, ∀ s, execMuteNRelease s = s.act f)⟩)
  | shtMuteAllWrite a1 b1 => exact .inl ⟨rfl, (⟨_, fun _ => rfl⟩ : ∃ f : Node → Node, ∀ s, execShtMuteAllWrite a1 b1 s = s.hub f)⟩
  | shtPush a1 => exact .inl ⟨rfl, (⟨_, fun _ => rfl⟩ : ∃ f : Node → Node, ∀ s, execShtPush a1 s = s.hub f)⟩
  | shtRdRead a1 => exact .inl ⟨rfl, (⟨_, fun _ => rfl⟩ : ∃ f : Node → Node, ∀ s, execShtRdRead a1 s = s.hub f)⟩
  | residueMismatch a1 b1 c1 d1 e1 f1 => exact .inl ⟨rfl, (⟨_, fun _ => rfl⟩ : ∃ f : Node → Node, ∀ s, execResidueMismatch a1 b1 c1 d1 e1 f1 s = s.hub f)⟩
  | engineSelfTestEnd a1 b1 c1 => exact .inl ⟨rfl, (⟨_, fun _ => rfl⟩ : ∃ f : Node → Node, ∀ s, execEngineSelfTestEnd a1 b1 c1 s = s.hub f)⟩
  | spareTakeover a1 => exact .inl ⟨rfl, (⟨_, fun _ => rfl⟩ : ∃ f : Node → Node, ∀ s, execSpareTakeover a1 s = s.hub f)⟩
  | spareVectorFail a1 => exact .inl ⟨rfl, (⟨_, fun _ => rfl⟩ : ∃ f : Node → Node, ∀ s, execSpareVectorFail a1 s = s.hub f)⟩
  | penStestRun a1 b1 c1 => exact .inl ⟨rfl, (⟨_, fun _ => rfl⟩ : ∃ f : Node → Node, ∀ s, execPenStestRun a1 b1 c1 s = s.hub f)⟩
  | penInjectArm a1 b1 c1 d1 => exact .inl ⟨rfl, (⟨_, fun _ => rfl⟩ : ∃ f : Node → Node, ∀ s, execPenInjectArm a1 b1 c1 d1 s = s.hub f)⟩
  | fenEccError a1 b1 c1 => exact .inl ⟨rfl, (⟨_, fun _ => rfl⟩ : ∃ f : Node → Node, ∀ s, execFenEccError a1 b1 c1 s = s.hub f)⟩
  | fenPoisonRewrite a1 b1 => exact .inl ⟨rfl, (⟨_, fun _ => rfl⟩ : ∃ f : Node → Node, ∀ s, execFenPoisonRewrite a1 b1 s = s.hub f)⟩
  | fenBankMarchEnd a1 b1 c1 => exact .inl ⟨rfl, (⟨_, fun _ => rfl⟩ : ∃ f : Node → Node, ∀ s, execFenBankMarchEnd a1 b1 c1 s = s.hub f)⟩
  | linkCrcError a1 b1 c1 => exact .inl ⟨rfl, (⟨_, fun _ => rfl⟩ : ∃ f : Node → Node, ∀ s, execLinkCrcError a1 b1 c1 s = s.hub f)⟩
  | linkReplayComplete a1 b1 => exact .inl ⟨rfl, (⟨_, fun _ => rfl⟩ : ∃ f : Node → Node, ∀ s, execLinkReplayComplete a1 b1 s = s.hub f)⟩
  | linkLaneTestEnd a1 b1 c1 => exact .inl ⟨rfl, (⟨_, fun _ => rfl⟩ : ∃ f : Node → Node, ∀ s, execLinkLaneTestEnd a1 b1 c1 s = s.hub f)⟩
  | linkRetrainComplete a1 b1 c1 => exact .inl ⟨rfl, (⟨_, fun _ => rfl⟩ : ∃ f : Node → Node, ∀ s, execLinkRetrainComplete a1 b1 c1 s = s.hub f)⟩
  | bqdCancel a1 b1 => exact .inl ⟨rfl, (⟨_, fun _ => rfl⟩ : ∃ f : Node → Node, ∀ s, execBqdCancel a1 b1 s = s.hub f)⟩
  | bqdSwapreq a1 b1 => exact .inl ⟨rfl, (⟨_, fun _ => rfl⟩ : ∃ f : Node → Node, ∀ s, execBqdSwapreq a1 b1 s = s.hub f)⟩
  | bqdPrep a1 b1 => exact .inl ⟨rfl, (⟨_, fun _ => rfl⟩ : ∃ f : Node → Node, ∀ s, execBqdPrep a1 b1 s = s.hub f)⟩
  | bqdReadInactive a1 b1 => exact .inl ⟨rfl, (⟨_, fun _ => rfl⟩ : ∃ f : Node → Node, ∀ s, execBqdReadInactive a1 b1 s = s.hub f)⟩
  | bqdReadActive a1 b1 => exact .inl ⟨rfl, (⟨_, fun _ => rfl⟩ : ∃ f : Node → Node, ∀ s, execBqdReadActive a1 b1 s = s.hub f)⟩
  | bqdWriteInactive a1 b1 => exact .inl ⟨rfl, (⟨_, fun _ => rfl⟩ : ∃ f : Node → Node, ∀ s, execBqdWriteInactive a1 b1 s = s.hub f)⟩
  | bqdWriteActive a1 b1 => exact .inl ⟨rfl, (⟨_, fun _ => rfl⟩ : ∃ f : Node → Node, ∀ s, execBqdWriteActive a1 b1 s = s.hub f)⟩
  | bqdPrepEnd a1 b1 c1 => exact .inl ⟨rfl, (⟨_, fun _ => rfl⟩ : ∃ f : Node → Node, ∀ s, execBqdPrepEnd a1 b1 c1 s = s.hub f)⟩
  | firCancel a1 b1 => exact .inl ⟨rfl, (⟨_, fun _ => rfl⟩ : ∃ f : Node → Node, ∀ s, execFirCancel a1 b1 s = s.hub f)⟩
  | firSwapreq a1 b1 => exact .inl ⟨rfl, (⟨_, fun _ => rfl⟩ : ∃ f : Node → Node, ∀ s, execFirSwapreq a1 b1 s = s.hub f)⟩
  | firPrep a1 b1 => exact .inl ⟨rfl, (⟨_, fun _ => rfl⟩ : ∃ f : Node → Node, ∀ s, execFirPrep a1 b1 s = s.hub f)⟩
  | firPrepEnd a1 b1 => exact .inl ⟨rfl, (⟨_, fun _ => rfl⟩ : ∃ f : Node → Node, ∀ s, execFirPrepEnd a1 b1 s = s.hub f)⟩
  | coeffBankSwap a1 => exact .inl ⟨rfl, (⟨_, fun _ => rfl⟩ : ∃ f : Node → Node, ∀ s, execCoeffBankSwap a1 s = s.hub f)⟩
  | steerCopyEnd a1 => exact .inl ⟨rfl, (⟨_, fun _ => rfl⟩ : ∃ f : Node → Node, ∀ s, execSteerCopyEnd a1 s = s.hub f)⟩
  | glideEnd a1 b1 c1 => exact .inl ⟨rfl, (⟨_, fun _ => rfl⟩ : ∃ f : Node → Node, ∀ s, execGlideEnd a1 b1 c1 s = s.hub f)⟩
  | jumpEnd a1 b1 c1 => exact .inl ⟨rfl, (⟨_, fun _ => rfl⟩ : ∃ f : Node → Node, ∀ s, execJumpEnd a1 b1 c1 s = s.hub f)⟩
  | waitFillResume a1 b1 c1 => exact .inl ⟨rfl, (⟨_, fun _ => rfl⟩ : ∃ f : Node → Node, ∀ s, execWaitFillResume a1 b1 c1 s = s.hub f)⟩
  | delayPrefetchArrival a1 b1 => exact .inl ⟨rfl, (⟨_, fun _ => rfl⟩ : ∃ f : Node → Node, ∀ s, execDelayPrefetchArrival a1 b1 s = s.hub f)⟩
  | poisonHoldEnd a1 b1 => exact .inl ⟨rfl, (⟨_, fun _ => rfl⟩ : ∃ f : Node → Node, ∀ s, execPoisonHoldEnd a1 b1 s = s.hub f)⟩
  | reedSlotEntry a1 => exact .inl ⟨rfl, (⟨_, fun _ => rfl⟩ : ∃ f : Node → Node, ∀ s, execReedSlotEntry a1 s = s.hub f)⟩
  | reedRunComplete a1 => exact .inl ⟨rfl, (⟨_, fun _ => rfl⟩ : ∃ f : Node → Node, ∀ s, execReedRunComplete a1 s = s.hub f)⟩
  | rcxRestart a1 b1 c1 => exact .inl ⟨rfl, (⟨_, fun _ => rfl⟩ : ∃ f : Node → Node, ∀ s, execRcxRestart a1 b1 c1 s = s.hub f)⟩
  | rcxStest a1 b1 => exact .inl ⟨rfl, (⟨_, fun _ => rfl⟩ : ∃ f : Node → Node, ∀ s, execRcxStest a1 b1 s = s.hub f)⟩
  | reedInterruptEntry a1 b1 => exact .inl ⟨rfl, (⟨_, fun _ => rfl⟩ : ∃ f : Node → Node, ∀ s, execReedInterruptEntry a1 b1 s = s.hub f)⟩
  | reedIrqBudgetExceeded a1 => exact .inl ⟨rfl, (⟨_, fun _ => rfl⟩ : ∃ f : Node → Node, ∀ s, execReedIrqBudgetExceeded a1 s = s.hub f)⟩
  | rcxMbxDoorbell a1 b1 => exact .inl ⟨rfl, (⟨_, fun _ => rfl⟩ : ∃ f : Node → Node, ∀ s, execRcxMbxDoorbell a1 b1 s = s.hub f)⟩
  | reedTransferComplete a1 b1 c1 => exact .inl ⟨rfl, (⟨_, fun _ => rfl⟩ : ∃ f : Node → Node, ∀ s, execReedTransferComplete a1 b1 c1 s = s.hub f)⟩
  | reedMemEccError a1 b1 c1 d1 e1 => exact .inl ⟨rfl, (⟨_, fun _ => rfl⟩ : ∃ f : Node → Node, ∀ s, execReedMemEccError a1 b1 c1 d1 e1 s = s.hub f)⟩
  | reedCoreTestEnd a1 b1 => exact .inl ⟨rfl, (⟨_, fun _ => rfl⟩ : ∃ f : Node → Node, ∀ s, execReedCoreTestEnd a1 b1 s = s.hub f)⟩
  | rcxMemdataAccess a1 b1 c1 => exact .inl ⟨rfl, (⟨_, fun _ => rfl⟩ : ∃ f : Node → Node, ∀ s, execRcxMemdataAccess a1 b1 c1 s = s.hub f)⟩
  | reedNop a1 => exact .inl ⟨rfl, (⟨_, fun _ => rfl⟩ : ∃ f : Node → Node, ∀ s, execReedNop a1 s = s.hub f)⟩
  | reedEnd a1 => exact .inl ⟨rfl, (⟨_, fun _ => rfl⟩ : ∃ f : Node → Node, ∀ s, execReedEnd a1 s = s.hub f)⟩
  | reedB a1 b1 c1 => exact .inl ⟨rfl, (⟨_, fun _ => rfl⟩ : ∃ f : Node → Node, ∀ s, execReedB a1 b1 c1 s = s.hub f)⟩
  | reedCall a1 b1 => exact .inl ⟨rfl, (⟨_, fun _ => rfl⟩ : ∃ f : Node → Node, ∀ s, execReedCall a1 b1 s = s.hub f)⟩
  | reedRet a1 => exact .inl ⟨rfl, (⟨_, fun _ => rfl⟩ : ∃ f : Node → Node, ∀ s, execReedRet a1 s = s.hub f)⟩
  | reedDbnz a1 b1 c1 => exact .inl ⟨rfl, (⟨_, fun _ => rfl⟩ : ∃ f : Node → Node, ∀ s, execReedDbnz a1 b1 c1 s = s.hub f)⟩
  | reedRep a1 b1 c1 => exact .inl ⟨rfl, (⟨_, fun _ => rfl⟩ : ∃ f : Node → Node, ∀ s, execReedRep a1 b1 c1 s = s.hub f)⟩
  | reedReti a1 => exact .inl ⟨rfl, (⟨_, fun _ => rfl⟩ : ∃ f : Node → Node, ∀ s, execReedReti a1 s = s.hub f)⟩
  | reedAdd a1 b1 c1 d1 => exact .inl ⟨rfl, (⟨_, fun _ => rfl⟩ : ∃ f : Node → Node, ∀ s, execReedAdd a1 b1 c1 d1 s = s.hub f)⟩
  | reedSub a1 b1 c1 d1 => exact .inl ⟨rfl, (⟨_, fun _ => rfl⟩ : ∃ f : Node → Node, ∀ s, execReedSub a1 b1 c1 d1 s = s.hub f)⟩
  | reedAnd a1 b1 c1 d1 => exact .inl ⟨rfl, (⟨_, fun _ => rfl⟩ : ∃ f : Node → Node, ∀ s, execReedAnd a1 b1 c1 d1 s = s.hub f)⟩
  | reedOr a1 b1 c1 d1 => exact .inl ⟨rfl, (⟨_, fun _ => rfl⟩ : ∃ f : Node → Node, ∀ s, execReedOr a1 b1 c1 d1 s = s.hub f)⟩
  | reedXor a1 b1 c1 d1 => exact .inl ⟨rfl, (⟨_, fun _ => rfl⟩ : ∃ f : Node → Node, ∀ s, execReedXor a1 b1 c1 d1 s = s.hub f)⟩
  | reedShl a1 b1 c1 d1 => exact .inl ⟨rfl, (⟨_, fun _ => rfl⟩ : ∃ f : Node → Node, ∀ s, execReedShl a1 b1 c1 d1 s = s.hub f)⟩
  | reedShr a1 b1 c1 d1 => exact .inl ⟨rfl, (⟨_, fun _ => rfl⟩ : ∃ f : Node → Node, ∀ s, execReedShr a1 b1 c1 d1 s = s.hub f)⟩
  | reedAsr a1 b1 c1 d1 => exact .inl ⟨rfl, (⟨_, fun _ => rfl⟩ : ∃ f : Node → Node, ∀ s, execReedAsr a1 b1 c1 d1 s = s.hub f)⟩
  | reedMin a1 b1 c1 d1 => exact .inl ⟨rfl, (⟨_, fun _ => rfl⟩ : ∃ f : Node → Node, ∀ s, execReedMin a1 b1 c1 d1 s = s.hub f)⟩
  | reedMax a1 b1 c1 d1 => exact .inl ⟨rfl, (⟨_, fun _ => rfl⟩ : ∃ f : Node → Node, ∀ s, execReedMax a1 b1 c1 d1 s = s.hub f)⟩
  | reedAdds a1 b1 c1 d1 => exact .inl ⟨rfl, (⟨_, fun _ => rfl⟩ : ∃ f : Node → Node, ∀ s, execReedAdds a1 b1 c1 d1 s = s.hub f)⟩
  | reedSubs a1 b1 c1 d1 => exact .inl ⟨rfl, (⟨_, fun _ => rfl⟩ : ∃ f : Node → Node, ∀ s, execReedSubs a1 b1 c1 d1 s = s.hub f)⟩
  | reedMull a1 b1 c1 d1 => exact .inl ⟨rfl, (⟨_, fun _ => rfl⟩ : ∃ f : Node → Node, ∀ s, execReedMull a1 b1 c1 d1 s = s.hub f)⟩
  | reedCmp a1 b1 c1 => exact .inl ⟨rfl, (⟨_, fun _ => rfl⟩ : ∃ f : Node → Node, ∀ s, execReedCmp a1 b1 c1 s = s.hub f)⟩
  | reedMov a1 b1 c1 => exact .inl ⟨rfl, (⟨_, fun _ => rfl⟩ : ∃ f : Node → Node, ∀ s, execReedMov a1 b1 c1 s = s.hub f)⟩
  | reedAbs a1 b1 c1 => exact .inl ⟨rfl, (⟨_, fun _ => rfl⟩ : ∃ f : Node → Node, ∀ s, execReedAbs a1 b1 c1 s = s.hub f)⟩
  | reedNeg a1 b1 c1 => exact .inl ⟨rfl, (⟨_, fun _ => rfl⟩ : ∃ f : Node → Node, ∀ s, execReedNeg a1 b1 c1 s = s.hub f)⟩
  | reedLd a1 b1 c1 => exact .inl ⟨rfl, (⟨_, fun _ => rfl⟩ : ∃ f : Node → Node, ∀ s, execReedLd a1 b1 c1 s = s.hub f)⟩
  | reedSt a1 b1 c1 => exact .inl ⟨rfl, (⟨_, fun _ => rfl⟩ : ∃ f : Node → Node, ∀ s, execReedSt a1 b1 c1 s = s.hub f)⟩
  | reedLd2 a1 b1 c1 => exact .inl ⟨rfl, (⟨_, fun _ => rfl⟩ : ∃ f : Node → Node, ∀ s, execReedLd2 a1 b1 c1 s = s.hub f)⟩
  | reedSt2 a1 b1 c1 => exact .inl ⟨rfl, (⟨_, fun _ => rfl⟩ : ∃ f : Node → Node, ∀ s, execReedSt2 a1 b1 c1 s = s.hub f)⟩
  | reedMac a1 b1 c1 d1 e1 f1 => exact .inl ⟨rfl, (⟨_, fun _ => rfl⟩ : ∃ f : Node → Node, ∀ s, execReedMac a1 b1 c1 d1 e1 f1 s = s.hub f)⟩
  | reedMsu a1 b1 c1 d1 e1 f1 => exact .inl ⟨rfl, (⟨_, fun _ => rfl⟩ : ∃ f : Node → Node, ∀ s, execReedMsu a1 b1 c1 d1 e1 f1 s = s.hub f)⟩
  | reedMpy a1 b1 c1 d1 e1 f1 => exact .inl ⟨rfl, (⟨_, fun _ => rfl⟩ : ∃ f : Node → Node, ∀ s, execReedMpy a1 b1 c1 d1 e1 f1 s = s.hub f)⟩
  | reedMpyn a1 b1 c1 d1 e1 f1 => exact .inl ⟨rfl, (⟨_, fun _ => rfl⟩ : ∃ f : Node → Node, ∀ s, execReedMpyn a1 b1 c1 d1 e1 f1 s = s.hub f)⟩
  | reedDmacs a1 b1 c1 d1 e1 f1 g1 h1 => exact .inl ⟨rfl, (⟨_, fun _ => rfl⟩ : ∃ f : Node → Node, ∀ s, execReedDmacs a1 b1 c1 d1 e1 f1 g1 h1 s = s.hub f)⟩
  | reedDmacp a1 b1 c1 d1 e1 f1 g1 h1 => exact .inl ⟨rfl, (⟨_, fun _ => rfl⟩ : ∃ f : Node → Node, ∀ s, execReedDmacp a1 b1 c1 d1 e1 f1 g1 h1 s = s.hub f)⟩
  | reedClr a1 b1 => exact .inl ⟨rfl, (⟨_, fun _ => rfl⟩ : ∃ f : Node → Node, ∀ s, execReedClr a1 b1 s = s.hub f)⟩
  | reedStq a1 b1 c1 d1 => exact .inl ⟨rfl, (⟨_, fun _ => rfl⟩ : ∃ f : Node → Node, ∀ s, execReedStq a1 b1 c1 d1 s = s.hub f)⟩
  | reedRdg a1 b1 c1 => exact .inl ⟨rfl, (⟨_, fun _ => rfl⟩ : ∃ f : Node → Node, ∀ s, execReedRdg a1 b1 c1 s = s.hub f)⟩
  | reedRdh a1 b1 c1 => exact .inl ⟨rfl, (⟨_, fun _ => rfl⟩ : ∃ f : Node → Node, ∀ s, execReedRdh a1 b1 c1 s = s.hub f)⟩
  | reedRdl a1 b1 c1 => exact .inl ⟨rfl, (⟨_, fun _ => rfl⟩ : ∃ f : Node → Node, ∀ s, execReedRdl a1 b1 c1 s = s.hub f)⟩
  | reedLda a1 b1 c1 d1 => exact .inl ⟨rfl, (⟨_, fun _ => rfl⟩ : ∃ f : Node → Node, ∀ s, execReedLda a1 b1 c1 d1 s = s.hub f)⟩
  | reedWrl a1 b1 c1 => exact .inl ⟨rfl, (⟨_, fun _ => rfl⟩ : ∃ f : Node → Node, ∀ s, execReedWrl a1 b1 c1 s = s.hub f)⟩
  | reedAdda a1 b1 c1 => exact .inl ⟨rfl, (⟨_, fun _ => rfl⟩ : ∃ f : Node → Node, ∀ s, execReedAdda a1 b1 c1 s = s.hub f)⟩
  | reedSuba a1 b1 c1 => exact .inl ⟨rfl, (⟨_, fun _ => rfl⟩ : ∃ f : Node → Node, ∀ s, execReedSuba a1 b1 c1 s = s.hub f)⟩
  | reedAsh a1 b1 c1 => exact .inl ⟨rfl, (⟨_, fun _ => rfl⟩ : ∃ f : Node → Node, ∀ s, execReedAsh a1 b1 c1 s = s.hub f)⟩
  | reedExp a1 b1 c1 => exact .inl ⟨rfl, (⟨_, fun _ => rfl⟩ : ∃ f : Node → Node, ∀ s, execReedExp a1 b1 c1 s = s.hub f)⟩
  | reedNorm a1 b1 c1 => exact .inl ⟨rfl, (⟨_, fun _ => rfl⟩ : ∃ f : Node → Node, ∀ s, execReedNorm a1 b1 c1 s = s.hub f)⟩
  | reedAbsa a1 b1 => exact .inl ⟨rfl, (⟨_, fun _ => rfl⟩ : ∃ f : Node → Node, ∀ s, execReedAbsa a1 b1 s = s.hub f)⟩
  | reedNega a1 b1 => exact .inl ⟨rfl, (⟨_, fun _ => rfl⟩ : ∃ f : Node → Node, ∀ s, execReedNega a1 b1 s = s.hub f)⟩
  | reedMova a1 b1 c1 => exact .inl ⟨rfl, (⟨_, fun _ => rfl⟩ : ∃ f : Node → Node, ∀ s, execReedMova a1 b1 c1 s = s.hub f)⟩
  | reedSetp a1 b1 c1 => exact .inl ⟨rfl, (⟨_, fun _ => rfl⟩ : ∃ f : Node → Node, ∀ s, execReedSetp a1 b1 c1 s = s.hub f)⟩
  | reedSetm a1 b1 c1 => exact .inl ⟨rfl, (⟨_, fun _ => rfl⟩ : ∃ f : Node → Node, ∀ s, execReedSetm a1 b1 c1 s = s.hub f)⟩
  | reedSetb a1 b1 c1 => exact .inl ⟨rfl, (⟨_, fun _ => rfl⟩ : ∃ f : Node → Node, ∀ s, execReedSetb a1 b1 c1 s = s.hub f)⟩
  | reedSetl a1 b1 c1 => exact .inl ⟨rfl, (⟨_, fun _ => rfl⟩ : ∃ f : Node → Node, ∀ s, execReedSetl a1 b1 c1 s = s.hub f)⟩
  | reedGetp a1 b1 c1 => exact .inl ⟨rfl, (⟨_, fun _ => rfl⟩ : ∃ f : Node → Node, ∀ s, execReedGetp a1 b1 c1 s = s.hub f)⟩
  | reedGetm a1 b1 c1 => exact .inl ⟨rfl, (⟨_, fun _ => rfl⟩ : ∃ f : Node → Node, ∀ s, execReedGetm a1 b1 c1 s = s.hub f)⟩
  | reedGetb a1 b1 c1 => exact .inl ⟨rfl, (⟨_, fun _ => rfl⟩ : ∃ f : Node → Node, ∀ s, execReedGetb a1 b1 c1 s = s.hub f)⟩
  | reedGetl a1 b1 c1 => exact .inl ⟨rfl, (⟨_, fun _ => rfl⟩ : ∃ f : Node → Node, ∀ s, execReedGetl a1 b1 c1 s = s.hub f)⟩
  | reedAddp a1 b1 c1 => exact .inl ⟨rfl, (⟨_, fun _ => rfl⟩ : ∃ f : Node → Node, ∀ s, execReedAddp a1 b1 c1 s = s.hub f)⟩
  | reedXrd a1 b1 c1 d1 e1 => exact .inl ⟨rfl, (⟨_, fun _ => rfl⟩ : ∃ f : Node → Node, ∀ s, execReedXrd a1 b1 c1 d1 e1 s = s.hub f)⟩
  | reedXwr a1 b1 c1 d1 e1 => exact .inl ⟨rfl, (⟨_, fun _ => rfl⟩ : ∃ f : Node → Node, ∀ s, execReedXwr a1 b1 c1 d1 e1 s = s.hub f)⟩
  | reedWaitx a1 b1 => exact .inl ⟨rfl, (⟨_, fun _ => rfl⟩ : ∃ f : Node → Node, ∀ s, execReedWaitx a1 b1 s = s.hub f)⟩
  | reedXst a1 b1 => exact .inl ⟨rfl, (⟨_, fun _ => rfl⟩ : ∃ f : Node → Node, ∀ s, execReedXst a1 b1 s = s.hub f)⟩
  | reedGets a1 b1 c1 => exact .inl ⟨rfl, (⟨_, fun _ => rfl⟩ : ∃ f : Node → Node, ∀ s, execReedGets a1 b1 c1 s = s.hub f)⟩
  | reedSets a1 b1 c1 => exact .inl ⟨rfl, (⟨_, fun _ => rfl⟩ : ∃ f : Node → Node, ∀ s, execReedSets a1 b1 c1 s = s.hub f)⟩
  | reedEi a1 => exact .inl ⟨rfl, (⟨_, fun _ => rfl⟩ : ∃ f : Node → Node, ∀ s, execReedEi a1 s = s.hub f)⟩
  | reedDi a1 => exact .inl ⟨rfl, (⟨_, fun _ => rfl⟩ : ∃ f : Node → Node, ∀ s, execReedDi a1 s = s.hub f)⟩
  | reedMbxr a1 b1 c1 => exact .inl ⟨rfl, (⟨_, fun _ => rfl⟩ : ∃ f : Node → Node, ∀ s, execReedMbxr a1 b1 c1 s = s.hub f)⟩
  | reedMbxw a1 b1 c1 => exact .inl ⟨rfl, (⟨_, fun _ => rfl⟩ : ∃ f : Node → Node, ∀ s, execReedMbxw a1 b1 c1 s = s.hub f)⟩
  | reedMbxdone a1 => exact .inl ⟨rfl, (⟨_, fun _ => rfl⟩ : ∃ f : Node → Node, ∀ s, execReedMbxdone a1 s = s.hub f)⟩
  | reedEvt a1 b1 => exact .inl ⟨rfl, (⟨_, fun _ => rfl⟩ : ∃ f : Node → Node, ∀ s, execReedEvt a1 b1 s = s.hub f)⟩
  | reedSatclr a1 => exact .inl ⟨rfl, (⟨_, fun _ => rfl⟩ : ∃ f : Node → Node, ∀ s, execReedSatclr a1 s = s.hub f)⟩
  | illegalInstruction a1 => exact .inl ⟨rfl, (⟨_, fun _ => rfl⟩ : ∃ f : Node → Node, ∀ s, execIllegalInstruction a1 s = s.hub f)⟩
  | streamSubscribe a1 b1 c1 d1 e1 => exact .inl ⟨rfl, (⟨_, fun _ => rfl⟩ : ∃ f : Node → Node, ∀ s, execStreamSubscribe a1 b1 c1 d1 e1 s = s.hub f)⟩
  | streamPacketReceived a1 => exact .inl ⟨rfl, (⟨_, fun _ => rfl⟩ : ∃ f : Node → Node, ∀ s, execStreamPacketReceived a1 s = s.hub f)⟩
  | slotDeadline a1 => exact .inl ⟨rfl, (⟨_, fun _ => rfl⟩ : ∃ f : Node → Node, ∀ s, execSlotDeadline a1 s = s.hub f)⟩
  | sluiceEccError a1 b1 => exact .inl ⟨rfl, (⟨_, fun _ => rfl⟩ : ∃ f : Node → Node, ∀ s, execSluiceEccError a1 b1 s = s.hub f)⟩
  | sluiceBankMarchEnd a1 b1 => exact .inl ⟨rfl, (⟨_, fun _ => rfl⟩ : ∃ f : Node → Node, ∀ s, execSluiceBankMarchEnd a1 b1 s = s.hub f)⟩
  | strDescRead a1 => exact .inl ⟨rfl, (⟨_, fun _ => rfl⟩ : ∃ f : Node → Node, ∀ s, execStrDescRead a1 s = s.hub f)⟩
  | sluDescRead a1 => exact .inl ⟨rfl, (⟨_, fun _ => rfl⟩ : ∃ f : Node → Node, ∀ s, execSluDescRead a1 s = s.hub f)⟩
  | frameReceived a1 b1 => exact .inl ⟨rfl, (⟨_, fun _ => rfl⟩ : ∃ f : Node → Node, ∀ s, execFrameReceived a1 b1 s = s.hub f)⟩
  | pauseFrameReceived a1 b1 => exact .inl ⟨rfl, (⟨_, fun _ => rfl⟩ : ∃ f : Node → Node, ∀ s, execPauseFrameReceived a1 b1 s = s.hub f)⟩
  | pauseExpiry a1 => exact .inl ⟨rfl, (⟨_, fun _ => rfl⟩ : ∃ f : Node → Node, ∀ s, execPauseExpiry a1 s = s.hub f)⟩
  | txrTailWrite a1 b1 c1 => exact .inl ⟨rfl, (⟨_, fun _ => rfl⟩ : ∃ f : Node → Node, ∀ s, execTxrTailWrite a1 b1 c1 s = s.hub f)⟩
  | rxrTailWrite a1 b1 c1 => exact .inl ⟨rfl, (⟨_, fun _ => rfl⟩ : ∃ f : Node → Node, ∀ s, execRxrTailWrite a1 b1 c1 s = s.hub f)⟩
  | txDescriptorSend a1 => exact .inl ⟨rfl, (⟨_, fun _ => rfl⟩ : ∃ f : Node → Node, ∀ s, execTxDescriptorSend a1 s = s.hub f)⟩
  | txFrameSent a1 b1 => exact .inl ⟨rfl, (⟨_, fun _ => rfl⟩ : ∃ f : Node → Node, ∀ s, execTxFrameSent a1 b1 s = s.hub f)⟩
  | macCounterRead a1 b1 c1 => exact .inl ⟨rfl, (⟨_, fun _ => rfl⟩ : ∃ f : Node → Node, ∀ s, execMacCounterRead a1 b1 c1 s = s.hub f)⟩
  | linkChange a1 b1 => exact .inl ⟨rfl, (⟨_, fun _ => rfl⟩ : ∃ f : Node → Node, ∀ s, execLinkChange a1 b1 s = s.hub f)⟩
  | serdesRetrainComplete a1 => exact .inl ⟨rfl, (⟨_, fun _ => rfl⟩ : ∃ f : Node → Node, ∀ s, execSerdesRetrainComplete a1 s = s.hub f)⟩
  | macBufferEccError a1 b1 c1 => exact .inl ⟨rfl, (⟨_, fun _ => rfl⟩ : ∃ f : Node → Node, ∀ s, execMacBufferEccError a1 b1 c1 s = s.hub f)⟩
  | macLoopbackTestEnd a1 b1 => exact .inl ⟨rfl, (⟨_, fun _ => rfl⟩ : ∃ f : Node → Node, ∀ s, execMacLoopbackTestEnd a1 b1 s = s.hub f)⟩
  | phcIncrFracWrite a1 b1 => exact .inl ⟨rfl, (⟨_, fun _ => rfl⟩ : ∃ f : Node → Node, ∀ s, execPhcIncrFracWrite a1 b1 s = s.hub f)⟩
  | phcIncrNsWrite a1 b1 => exact .inl ⟨rfl, (⟨_, fun _ => rfl⟩ : ∃ f : Node → Node, ∀ s, execPhcIncrNsWrite a1 b1 s = s.hub f)⟩
  | phcStepGo a1 => exact .inl ⟨rfl, (⟨_, fun _ => rfl⟩ : ∃ f : Node → Node, ∀ s, execPhcStepGo a1 s = s.hub f)⟩
  | phcStepPermit a1 => exact .inl ⟨rfl, (⟨_, fun _ => rfl⟩ : ∃ f : Node → Node, ∀ s, execPhcStepPermit a1 s = s.hub f)⟩
  | phcTimeRead a1 => exact .inl ⟨rfl, (⟨_, fun _ => rfl⟩ : ∃ f : Node → Node, ∀ s, execPhcTimeRead a1 s = s.hub f)⟩
  | phcSecondsCarry => exact .inl ⟨rfl, (⟨_, fun _ => rfl⟩ : ∃ f : Node → Node, ∀ s, execPhcSecondsCarry s = s.hub f)⟩
  | ptpMessageReceived a1 b1 => exact .inl ⟨rfl, (⟨_, fun _ => rfl⟩ : ∃ f : Node → Node, ∀ s, execPtpMessageReceived a1 b1 s = s.hub f)⟩
  | ptpProfile a1 b1 => exact .inl ⟨rfl, (⟨_, fun _ => rfl⟩ : ∃ f : Node → Node, ∀ s, execPtpProfile a1 b1 s = s.hub f)⟩
  | ptpPort a1 b1 c1 => exact .inl ⟨rfl, (⟨_, fun _ => rfl⟩ : ∃ f : Node → Node, ∀ s, execPtpPort a1 b1 c1 s = s.hub f)⟩
  | ptpStatus a1 => exact .inl ⟨rfl, (⟨_, fun _ => rfl⟩ : ∃ f : Node → Node, ∀ s, execPtpStatus a1 s = s.hub f)⟩
  | ptpParent a1 => exact .inl ⟨rfl, (⟨_, fun _ => rfl⟩ : ∃ f : Node → Node, ∀ s, execPtpParent a1 s = s.hub f)⟩
  | ptpClock a1 b1 => exact .inl ⟨rfl, (⟨_, fun _ => rfl⟩ : ∃ f : Node → Node, ∀ s, execPtpClock a1 b1 s = s.hub f)⟩
  | refpolReload a1 b1 => exact .inl ⟨rfl, (⟨_, fun _ => rfl⟩ : ∃ f : Node → Node, ∀ s, execRefpolReload a1 b1 s = s.hub f)⟩
  | refCtrlWrite a1 b1 c1 => exact .inl ⟨rfl, (⟨_, fun _ => rfl⟩ : ∃ f : Node → Node, ∀ s, execRefCtrlWrite a1 b1 c1 s = s.hub f)⟩
  | refSlotCfgWrite a1 b1 c1 d1 => exact .inl ⟨rfl, (⟨_, fun _ => rfl⟩ : ∃ f : Node → Node, ∀ s, execRefSlotCfgWrite a1 b1 c1 d1 s = s.hub f)⟩
  | refSstatRead a1 => exact .inl ⟨rfl, (⟨_, fun _ => rfl⟩ : ∃ f : Node → Node, ∀ s, execRefSstatRead a1 s = s.hub f)⟩
  | refSignalLoss a1 b1 => exact .inl ⟨rfl, (⟨_, fun _ => rfl⟩ : ∃ f : Node → Node, ∀ s, execRefSignalLoss a1 b1 s = s.hub f)⟩
  | refSignalPresent a1 => exact .inl ⟨rfl, (⟨_, fun _ => rfl⟩ : ∃ f : Node → Node, ∀ s, execRefSignalPresent a1 s = s.hub f)⟩
  | refValidationDone a1 b1 => exact .inl ⟨rfl, (⟨_, fun _ => rfl⟩ : ∃ f : Node → Node, ∀ s, execRefValidationDone a1 b1 s = s.hub f)⟩
  | refWaitRestoreDone a1 b1 => exact .inl ⟨rfl, (⟨_, fun _ => rfl⟩ : ∃ f : Node → Node, ∀ s, execRefWaitRestoreDone a1 b1 s = s.hub f)⟩
  | refFrequencyGate a1 b1 => exact .inl ⟨rfl, (⟨_, fun _ => rfl⟩ : ∃ f : Node → Node, ∀ s, execRefFrequencyGate a1 b1 s = s.hub f)⟩
  | refQlChange a1 b1 c1 => exact .inl ⟨rfl, (⟨_, fun _ => rfl⟩ : ∃ f : Node → Node, ∀ s, execRefQlChange a1 b1 c1 s = s.hub f)⟩
  | refDisputeJudge a1 => exact .inl ⟨rfl, (⟨_, fun _ => rfl⟩ : ∃ f : Node → Node, ∀ s, execRefDisputeJudge a1 s = s.hub f)⟩
  | refVotedOutReturn a1 => exact .inl ⟨rfl, (⟨_, fun _ => rfl⟩ : ∃ f : Node → Node, ∀ s, execRefVotedOutReturn a1 s = s.hub f)⟩
  | dpllBwStepDown a1 => exact .inl ⟨rfl, (⟨_, fun _ => rfl⟩ : ∃ f : Node → Node, ∀ s, execDpllBwStepDown a1 s = s.hub f)⟩
  | dpllLockLoss a1 => exact .inl ⟨rfl, (⟨_, fun _ => rfl⟩ : ∃ f : Node → Node, ∀ s, execDpllLockLoss a1 s = s.hub f)⟩
  | dpllSlewComplete => exact .inl ⟨rfl, (⟨_, fun _ => rfl⟩ : ∃ f : Node → Node, ∀ s, execDpllSlewComplete s = s.hub f)⟩
  | dpllHoldoverExpiry => exact .inl ⟨rfl, (⟨_, fun _ => rfl⟩ : ∃ f : Node → Node, ∀ s, execDpllHoldoverExpiry s = s.hub f)⟩
  | dpllSynthUnlock a1 => exact .inl ⟨rfl, (⟨_, fun _ => rfl⟩ : ∃ f : Node → Node, ∀ s, execDpllSynthUnlock a1 s = s.hub f)⟩
  | dpllFreqLimit a1 => exact .inl ⟨rfl, (⟨_, fun _ => rfl⟩ : ∃ f : Node → Node, ∀ s, execDpllFreqLimit a1 s = s.hub f)⟩
  | dpllFaultRecover a1 => exact .inl ⟨rfl, (⟨_, fun _ => rfl⟩ : ∃ f : Node → Node, ∀ s, execDpllFaultRecover a1 s = s.hub f)⟩
  | xoinLoss => exact .inr (.inl ⟨rfl, (⟨_, fun _ => rfl⟩ : ∃ f : Node → Node, ∀ s, execXoinLoss s = s.sill f)⟩)
  | missingEdgeHold a1 => exact .inl ⟨rfl, (⟨_, fun _ => rfl⟩ : ∃ f : Node → Node, ∀ s, execMissingEdgeHold a1 s = s.hub f)⟩
  | announceReceiptTimeout a1 => exact .inl ⟨rfl, (⟨_, fun _ => rfl⟩ : ∃ f : Node → Node, ∀ s, execAnnounceReceiptTimeout a1 s = s.hub f)⟩
  | aesRxSignalLoss a1 => exact .inl ⟨rfl, (⟨_, fun _ => rfl⟩ : ∃ f : Node → Node, ∀ s, execAesRxSignalLoss a1 s = s.hub f)⟩
  | aesRxPreamblesFound a1 => exact .inl ⟨rfl, (⟨_, fun _ => rfl⟩ : ∃ f : Node → Node, ∀ s, execAesRxPreamblesFound a1 s = s.hub f)⟩
  | aesRxRateMeasured a1 b1 c1 => exact .inl ⟨rfl, (⟨_, fun _ => rfl⟩ : ∃ f : Node → Node, ∀ s, execAesRxRateMeasured a1 b1 c1 s = s.hub f)⟩
  | aesRxSettled a1 => exact .inl ⟨rfl, (⟨_, fun _ => rfl⟩ : ∃ f : Node → Node, ∀ s, execAesRxSettled a1 s = s.hub f)⟩
  | aesRxFrame a1 b1 c1 => exact .inl ⟨rfl, (⟨_, fun _ => rfl⟩ : ∃ f : Node → Node, ∀ s, execAesRxFrame a1 b1 c1 s = s.hub f)⟩
  | aesRxSlip a1 b1 => exact .inl ⟨rfl, (⟨_, fun _ => rfl⟩ : ∃ f : Node → Node, ∀ s, execAesRxSlip a1 b1 s = s.hub f)⟩
  | aesRxBlockEnd a1 b1 => exact .inl ⟨rfl, (⟨_, fun _ => rfl⟩ : ∃ f : Node → Node, ∀ s, execAesRxBlockEnd a1 b1 s = s.hub f)⟩
  | aesCapRead a1 b1 => exact .inl ⟨rfl, (⟨_, fun _ => rfl⟩ : ∃ f : Node → Node, ∀ s, execAesCapRead a1 b1 s = s.hub f)⟩
  | aesTxBlockStart a1 => exact .inl ⟨rfl, (⟨_, fun _ => rfl⟩ : ∃ f : Node → Node, ∀ s, execAesTxBlockStart a1 s = s.hub f)⟩
  | tdmFramingError a1 => exact .inl ⟨rfl, (⟨_, fun _ => rfl⟩ : ∃ f : Node → Node, ∀ s, execTdmFramingError a1 s = s.hub f)⟩
  | tdmSlip a1 b1 => exact .inl ⟨rfl, (⟨_, fun _ => rfl⟩ : ∃ f : Node → Node, ∀ s, execTdmSlip a1 b1 s = s.hub f)⟩
  | tdmMaskApply a1 b1 => exact .inl ⟨rfl, (⟨_, fun _ => rfl⟩ : ∃ f : Node → Node, ∀ s, execTdmMaskApply a1 b1 s = s.hub f)⟩
  | tdmSlotFadeEnd a1 b1 c1 => exact .inl ⟨rfl, (⟨_, fun _ => rfl⟩ : ∃ f : Node → Node, ∀ s, execTdmSlotFadeEnd a1 b1 c1 s = s.hub f)⟩
  | sdinStuck a1 => exact .inl ⟨rfl, (⟨_, fun _ => rfl⟩ : ∃ f : Node → Node, ∀ s, execSdinStuck a1 s = s.hub f)⟩
  | sdinStuckClear a1 => exact .inl ⟨rfl, (⟨_, fun _ => rfl⟩ : ∃ f : Node → Node, ∀ s, execSdinStuckClear a1 s = s.hub f)⟩
  | decBankSwap a1 => exact .inl ⟨rfl, (⟨_, fun _ => rfl⟩ : ∃ f : Node → Node, ∀ s, execDecBankSwap a1 s = s.hub f)⟩
  | decSettleEnd a1 => exact .inl ⟨rfl, (⟨_, fun _ => rfl⟩ : ∃ f : Node → Node, ∀ s, execDecSettleEnd a1 s = s.hub f)⟩
  | channelEnable a1 b1 => exact .inl ⟨rfl, (⟨_, fun _ => rfl⟩ : ∃ f : Node → Node, ∀ s, execChannelEnable a1 b1 s = s.hub f)⟩
  | channelDisable a1 b1 => exact .inl ⟨rfl, (⟨_, fun _ => rfl⟩ : ∃ f : Node → Node, ∀ s, execChannelDisable a1 b1 s = s.hub f)⟩
  | channelClear a1 b1 => exact .inl ⟨rfl, (⟨_, fun _ => rfl⟩ : ∃ f : Node → Node, ∀ s, execChannelClear a1 b1 s = s.hub f)⟩
  | lateMemberTimeout a1 => exact .inl ⟨rfl, (⟨_, fun _ => rfl⟩ : ∃ f : Node → Node, ∀ s, execLateMemberTimeout a1 s = s.hub f)⟩
  | identityFrameReceived a1 b1 c1 => exact .inl ⟨rfl, (⟨_, fun _ => rfl⟩ : ∃ f : Node → Node, ∀ s, execIdentityFrameReceived a1 b1 c1 s = s.hub f)⟩
  | noStageTimeout a1 => exact .inl ⟨rfl, (⟨_, fun _ => rfl⟩ : ∃ f : Node → Node, ∀ s, execNoStageTimeout a1 s = s.hub f)⟩
  | senseFollowed a1 => exact .inl ⟨rfl, (⟨_, fun _ => rfl⟩ : ∃ f : Node → Node, ∀ s, execSenseFollowed a1 s = s.hub f)⟩
  | channelRun a1 => exact .inl ⟨rfl, (⟨_, fun _ => rfl⟩ : ∃ f : Node → Node, ∀ s, execChannelRun a1 s = s.hub f)⟩
  | followTimeout a1 => exact .inl ⟨rfl, (⟨_, fun _ => rfl⟩ : ∃ f : Node → Node, ∀ s, execFollowTimeout a1 s = s.hub f)⟩
  | releaseRetryExpiry a1 => exact .inl ⟨rfl, (⟨_, fun _ => rfl⟩ : ∃ f : Node → Node, ∀ s, execReleaseRetryExpiry a1 s = s.hub f)⟩
  | stopComplete a1 => exact .inl ⟨rfl, (⟨_, fun _ => rfl⟩ : ∃ f : Node → Node, ∀ s, execStopComplete a1 s = s.hub f)⟩
  | channelTrip a1 b1 => exact .inl ⟨rfl, (⟨_, fun _ => rfl⟩ : ∃ f : Node → Node, ∀ s, execChannelTrip a1 b1 s = s.hub f)⟩
  | senseLost a1 => exact .inl ⟨rfl, (⟨_, fun _ => rfl⟩ : ∃ f : Node → Node, ∀ s, execSenseLost a1 s = s.hub f)⟩
  | coolDownEnd a1 => exact .inl ⟨rfl, (⟨_, fun _ => rfl⟩ : ∃ f : Node → Node, ∀ s, execCoolDownEnd a1 s = s.hub f)⟩
  | carrierApply a1 => exact .inl ⟨rfl, (⟨_, fun _ => rfl⟩ : ∃ f : Node → Node, ∀ s, execCarrierApply a1 s = s.hub f)⟩
  | fencingComplete a1 => exact .inl ⟨rfl, (⟨_, fun _ => rfl⟩ : ∃ f : Node → Node, ∀ s, execFencingComplete a1 s = s.hub f)⟩
  | driveBlockMissingStop => exact .inl ⟨rfl, (⟨_, fun _ => rfl⟩ : ∃ f : Node → Node, ∀ s, execDriveBlockMissingStop s = s.hub f)⟩
  | snsIdstatRead a1 => exact .inl ⟨rfl, (⟨_, fun _ => rfl⟩ : ∃ f : Node → Node, ∀ s, execSnsIdstatRead a1 s = s.hub f)⟩
  | carrierProtect a1 b1 c1 => exact .inl ⟨rfl, (⟨_, fun _ => rfl⟩ : ∃ f : Node → Node, ∀ s, execCarrierProtect a1 b1 c1 s = s.hub f)⟩
  | carrierPlan a1 b1 => exact .inl ⟨rfl, (⟨_, fun _ => rfl⟩ : ∃ f : Node → Node, ∀ s, execCarrierPlan a1 b1 s = s.hub f)⟩
  | carrierPlanDone a1 => exact .inl ⟨rfl, (⟨_, fun _ => rfl⟩ : ∃ f : Node → Node, ∀ s, execCarrierPlanDone a1 s = s.hub f)⟩
  | carrierStatus a1 b1 => exact .inl ⟨rfl, (⟨_, fun _ => rfl⟩ : ∃ f : Node → Node, ∀ s, execCarrierStatus a1 b1 s = s.hub f)⟩
  | carrierReport a1 b1 => exact .inl ⟨rfl, (⟨_, fun _ => rfl⟩ : ∃ f : Node → Node, ∀ s, execCarrierReport a1 b1 s = s.hub f)⟩
  | carrierCheck a1 b1 => exact .inl ⟨rfl, (⟨_, fun _ => rfl⟩ : ∃ f : Node → Node, ∀ s, execCarrierCheck a1 b1 s = s.hub f)⟩
  | dramRefreshDue a1 b1 => exact .inl ⟨rfl, (⟨_, fun _ => rfl⟩ : ∃ f : Node → Node, ∀ s, execDramRefreshDue a1 b1 s = s.hub f)⟩
  | dramRefreshMakeup a1 => exact .inl ⟨rfl, (⟨_, fun _ => rfl⟩ : ∃ f : Node → Node, ∀ s, execDramRefreshMakeup a1 s = s.hub f)⟩
  | dramHotChange a1 => exact .inl ⟨rfl, (⟨_, fun _ => rfl⟩ : ∃ f : Node → Node, ∀ s, execDramHotChange a1 s = s.hub f)⟩
  | dramActivate a1 b1 c1 => exact .inl ⟨rfl, (⟨_, fun _ => rfl⟩ : ∃ f : Node → Node, ∀ s, execDramActivate a1 b1 c1 s = s.hub f)⟩
  | neighbourRefresh a1 => exact .inl ⟨rfl, (⟨_, fun _ => rfl⟩ : ∃ f : Node → Node, ∀ s, execNeighbourRefresh a1 s = s.hub f)⟩
  | dramRefreshCycleEnd a1 => exact .inl ⟨rfl, (⟨_, fun _ => rfl⟩ : ∃ f : Node → Node, ∀ s, execDramRefreshCycleEnd a1 s = s.hub f)⟩
  | dramEccError a1 b1 c1 d1 => exact .inl ⟨rfl, (⟨_, fun _ => rfl⟩ : ∃ f : Node → Node, ∀ s, execDramEccError a1 b1 c1 d1 s = s.hub f)⟩
  | dramRereadResult a1 b1 c1 d1 => exact .inl ⟨rfl, (⟨_, fun _ => rfl⟩ : ∃ f : Node → Node, ∀ s, execDramRereadResult a1 b1 c1 d1 s = s.hub f)⟩
  | dramCaParityError a1 => exact .inl ⟨rfl, (⟨_, fun _ => rfl⟩ : ∃ f : Node → Node, ∀ s, execDramCaParityError a1 s = s.hub f)⟩
  | dramReplayComplete a1 b1 c1 => exact .inl ⟨rfl, (⟨_, fun _ => rfl⟩ : ∃ f : Node → Node, ∀ s, execDramReplayComplete a1 b1 c1 s = s.hub f)⟩
  | dramMigrationComplete => exact .inl ⟨rfl, (⟨_, fun _ => rfl⟩ : ∃ f : Node → Node, ∀ s, execDramMigrationComplete s = s.hub f)⟩
  | drmTrainStart a1 => exact .inl ⟨rfl, (⟨_, fun _ => rfl⟩ : ∃ f : Node → Node, ∀ s, execDrmTrainStart a1 s = s.hub f)⟩
  | dramTrainingEnd a1 => exact .inl ⟨rfl, (⟨_, fun _ => rfl⟩ : ∃ f : Node → Node, ∀ s, execDramTrainingEnd a1 s = s.hub f)⟩
  | dramZqCalibration => exact .inl ⟨rfl, (⟨_, fun _ => rfl⟩ : ∃ f : Node → Node, ∀ s, execDramZqCalibration s = s.hub f)⟩
  | dramDqsTrack a1 => exact .inl ⟨rfl, (⟨_, fun _ => rfl⟩ : ∃ f : Node → Node, ∀ s, execDramDqsTrack a1 s = s.hub f)⟩
  | faultReport a1 b1 c1 d1 => exact .inr (.inl ⟨rfl, (⟨_, fun _ => rfl⟩ : ∃ f : Node → Node, ∀ s, execFaultReport a1 b1 c1 d1 s = s.sill f)⟩)
  | faultRecordWrite => exact .inr (.inl ⟨rfl, (⟨_, fun _ => rfl⟩ : ∃ f : Node → Node, ∀ s, execFaultRecordWrite s = s.sill f)⟩)
  | fltAckWrite a1 b1 => exact .inl ⟨rfl, (⟨_, fun _ => rfl⟩ : ∃ f : Node → Node, ∀ s, execFltAckWrite a1 b1 s = s.hub f)⟩
  | fltAckAll a1 => exact .inl ⟨rfl, (⟨_, fun _ => rfl⟩ : ∃ f : Node → Node, ∀ s, execFltAckAll a1 s = s.hub f)⟩
  | fltRecRead a1 => exact .inl ⟨rfl, (⟨_, fun _ => rfl⟩ : ∃ f : Node → Node, ∀ s, execFltRecRead a1 s = s.hub f)⟩
  | fatalEthStop => exact .inr (.inl ⟨rfl, (⟨_, fun _ => rfl⟩ : ∃ f : Node → Node, ∀ s, execFatalEthStop s = s.sill f)⟩)
  | fatalHighZ => exact .inr (.inl ⟨rfl, (⟨_, fun _ => rfl⟩ : ∃ f : Node → Node, ∀ s, execFatalHighZ s = s.sill f)⟩)
  | sillOwnTimeStart => exact .inr (.inl ⟨rfl, (⟨_, fun _ => rfl⟩ : ∃ f : Node → Node, ∀ s, execSillOwnTimeStart s = s.sill f)⟩)
  | sillCasementTick => exact .inr (.inl ⟨rfl, (⟨_, fun _ => rfl⟩ : ∃ f : Node → Node, ∀ s, execSillCasementTick s = s.sill f)⟩)
  | leaseSelfFence => exact .inl ⟨rfl, (⟨_, fun _ => rfl⟩ : ∃ f : Node → Node, ∀ s, execLeaseSelfFence s = s.hub f)⟩
  | silSafeForce a1 => exact .inl ⟨rfl, (⟨_, fun _ => rfl⟩ : ∃ f : Node → Node, ∀ s, execSilSafeForce a1 s = s.hub f)⟩
  | silSafeRelease a1 => exact .inl ⟨rfl, (⟨_, fun _ => rfl⟩ : ∃ f : Node → Node, ∀ s, execSilSafeRelease a1 s = s.hub f)⟩
  | silWdogWrite a1 b1 => exact .inl ⟨rfl, (⟨_, fun _ => rfl⟩ : ∃ f : Node → Node, ∀ s, execSilWdogWrite a1 b1 s = s.hub f)⟩
  | silKick a1 => exact .inl ⟨rfl, (⟨_, fun _ => rfl⟩ : ∃ f : Node → Node, ∀ s, execSilKick a1 s = s.hub f)⟩
  | watchdogExpiry => exact .inr (.inl ⟨rfl, (⟨_, fun _ => rfl⟩ : ∃ f : Node → Node, ∀ s, execWatchdogExpiry s = s.sill f)⟩)
  | thermalSample a1 => exact .inr (.inl ⟨rfl, (⟨_, fun _ => rfl⟩ : ∃ f : Node → Node, ∀ s, execThermalSample a1 s = s.sill f)⟩)
  | supplyFault a1 => exact .inr (.inl ⟨rfl, (⟨_, fun _ => rfl⟩ : ∃ f : Node → Node, ∀ s, execSupplyFault a1 s = s.sill f)⟩)
  | faultRead a1 b1 => exact .inl ⟨rfl, (⟨_, fun _ => rfl⟩ : ∃ f : Node → Node, ∀ s, execFaultRead a1 b1 s = s.hub f)⟩
  | faultAck a1 b1 c1 => exact .inl ⟨rfl, (⟨_, fun _ => rfl⟩ : ∃ f : Node → Node, ∀ s, execFaultAck a1 b1 c1 s = s.hub f)⟩
  | faultTest a1 b1 => exact .inl ⟨rfl, (⟨_, fun _ => rfl⟩ : ∃ f : Node → Node, ∀ s, execFaultTest a1 b1 s = s.hub f)⟩
  | faultStatus a1 b1 => exact .inl ⟨rfl, (⟨_, fun _ => rfl⟩ : ∃ f : Node → Node, ∀ s, execFaultStatus a1 b1 s = s.hub f)⟩
  | pairMessageReceived a1 => exact .inl ⟨rfl, (⟨_, fun _ => rfl⟩ : ∃ f : Node → Node, ∀ s, execPairMessageReceived a1 s = s.hub f)⟩
  | partnerLost => exact .inl ⟨rfl, (⟨_, fun _ => rfl⟩ : ∃ f : Node → Node, ∀ s, execPartnerLost s = s.hub f)⟩
  | hngRenew a1 => exact .inl ⟨rfl, (⟨_, fun _ => rfl⟩ : ∃ f : Node → Node, ∀ s, execHngRenew a1 s = s.hub f)⟩
  | hingeFrameReceived a1 => exact .inl ⟨rfl, (⟨_, fun _ => rfl⟩ : ∃ f : Node → Node, ∀ s, execHingeFrameReceived a1 s = s.hub f)⟩
  | leaseTakeover => exact .inl ⟨rfl, (⟨_, fun _ => rfl⟩ : ∃ f : Node → Node, ∀ s, execLeaseTakeover s = s.hub f)⟩
  | leaseFenceComplete a1 => exact .inl ⟨rfl, (⟨_, fun _ => rfl⟩ : ∃ f : Node → Node, ∀ s, execLeaseFenceComplete a1 s = s.hub f)⟩
  | dutyReceived a1 b1 c1 d1 => exact .inl ⟨rfl, (⟨_, fun _ => rfl⟩ : ∃ f : Node → Node, ∀ s, execDutyReceived a1 b1 c1 d1 s = s.hub f)⟩
  | dutyAnnounce => exact .inl ⟨rfl, (⟨_, fun _ => rfl⟩ : ∃ f : Node → Node, ∀ s, execDutyAnnounce s = s.hub f)⟩
  | leaseClaim => exact .inl ⟨rfl, (⟨_, fun _ => rfl⟩ : ∃ f : Node → Node, ∀ s, execLeaseClaim s = s.hub f)⟩
  | claimReceived a1 b1 c1 => exact .inl ⟨rfl, (⟨_, fun _ => rfl⟩ : ∃ f : Node → Node, ∀ s, execClaimReceived a1 b1 c1 s = s.hub f)⟩
  | claimDecision => exact .inl ⟨rfl, (⟨_, fun _ => rfl⟩ : ∃ f : Node → Node, ∀ s, execClaimDecision s = s.hub f)⟩
  | resyncComplete => exact .inl ⟨rfl, (⟨_, fun _ => rfl⟩ : ∃ f : Node → Node, ∀ s, execResyncComplete s = s.hub f)⟩
  | controlMessageReceived a1 => exact .inl ⟨rfl, (⟨_, fun _ => rfl⟩ : ∃ f : Node → Node, ∀ s, execControlMessageReceived a1 s = s.hub f)⟩
  | registerEndpoint a1 b1 => exact .inl ⟨rfl, (⟨_, fun _ => rfl⟩ : ∃ f : Node → Node, ∀ s, execRegisterEndpoint a1 b1 s = s.hub f)⟩
  | registrationRetry a1 => exact .inl ⟨rfl, (⟨_, fun _ => rfl⟩ : ∃ f : Node → Node, ∀ s, execRegistrationRetry a1 s = s.hub f)⟩
  | configSave a1 => exact .inl ⟨rfl, (⟨_, fun _ => rfl⟩ : ∃ f : Node → Node, ∀ s, execConfigSave a1 s = s.hub f)⟩
  | configSaveDone a1 b1 => exact .inl ⟨rfl, (⟨_, fun _ => rfl⟩ : ∃ f : Node → Node, ∀ s, execConfigSaveDone a1 b1 s = s.hub f)⟩
  | configList a1 => exact .inl ⟨rfl, (⟨_, fun _ => rfl⟩ : ∃ f : Node → Node, ∀ s, execConfigList a1 s = s.hub f)⟩
  | configAdopt a1 b1 c1 d1 e1 => exact .inl ⟨rfl, (⟨_, fun _ => rfl⟩ : ∃ f : Node → Node, ∀ s, execConfigAdopt a1 b1 c1 d1 e1 s = s.hub f)⟩
  | configReload a1 => exact .inl ⟨rfl, (⟨_, fun _ => rfl⟩ : ∃ f : Node → Node, ∀ s, execConfigReload a1 s = s.hub f)⟩
  | configStatus a1 b1 => exact .inl ⟨rfl, (⟨_, fun _ => rfl⟩ : ∃ f : Node → Node, ∀ s, execConfigStatus a1 b1 s = s.hub f)⟩
  | ranoriKey a1 b1 c1 d1 => exact .inl ⟨rfl, (⟨_, fun _ => rfl⟩ : ∃ f : Node → Node, ∀ s, execRanoriKey a1 b1 c1 d1 s = s.hub f)⟩
  | ranoriSessions a1 b1 => exact .inl ⟨rfl, (⟨_, fun _ => rfl⟩ : ∃ f : Node → Node, ∀ s, execRanoriSessions a1 b1 s = s.hub f)⟩
  | ranoriHandover a1 b1 => exact .inl ⟨rfl, (⟨_, fun _ => rfl⟩ : ∃ f : Node → Node, ∀ s, execRanoriHandover a1 b1 s = s.hub f)⟩
  | i2cWriteTransaction a1 b1 => exact .inr (.inr ⟨rfl, (⟨_, fun _ => rfl⟩ : ∃ f : Node → Node, ∀ s, execI2cWriteTransaction a1 b1 s = s.act f)⟩)
  | i2cReadTransaction a1 b1 => exact .inr (.inr ⟨rfl, (⟨_, fun _ => rfl⟩ : ∃ f : Node → Node, ∀ s, execI2cReadTransaction a1 b1 s = s.act f)⟩)
  | i2cProtocolError => exact .inl ⟨rfl, (⟨_, fun _ => rfl⟩ : ∃ f : Node → Node, ∀ s, execI2cProtocolError s = s.hub f)⟩
  | i2cSdaTimeout => exact .inl ⟨rfl, (⟨_, fun _ => rfl⟩ : ∃ f : Node → Node, ∀ s, execI2cSdaTimeout s = s.hub f)⟩
  | attentionSend a1 => exact .inr (.inl ⟨rfl, (⟨_, fun _ => rfl⟩ : ∃ f : Node → Node, ∀ s, execAttentionSend a1 s = s.sill f)⟩)
  | attentionRetry a1 => exact .inr (.inl ⟨rfl, (⟨_, fun _ => rfl⟩ : ∃ f : Node → Node, ∀ s, execAttentionRetry a1 s = s.sill f)⟩)
  | pcieMemoryRequest a1 b1 c1 d1 => exact .inr (.inl ⟨rfl, (⟨_, fun _ => rfl⟩ : ∃ f : Node → Node, ∀ s, execPcieMemoryRequest a1 b1 c1 d1 s = s.sill f)⟩)
  | pcieHotReset => exact .inl ⟨rfl, (⟨_, fun _ => rfl⟩ : ∃ f : Node → Node, ∀ s, execPcieHotReset s = s.hub f)⟩
  | msixMessage a1 => exact .inl ⟨rfl, (⟨_, fun _ => rfl⟩ : ∃ f : Node → Node, ∀ s, execMsixMessage a1 s = s.hub f)⟩
  | pciRearm a1 b1 => exact .inl ⟨rfl, (⟨_, fun _ => rfl⟩ : ∃ f : Node → Node, ∀ s, execPciRearm a1 b1 s = s.hub f)⟩
  | erase4k a1 => exact .inl ⟨rfl, (⟨_, fun _ => rfl⟩ : ∃ f : Node → Node, ∀ s, execErase4k a1 s = s.hub f)⟩
  | erase64k a1 => exact .inl ⟨rfl, (⟨_, fun _ => rfl⟩ : ∃ f : Node → Node, ∀ s, execErase64k a1 s = s.hub f)⟩
  | program a1 => exact .inl ⟨rfl, (⟨_, fun _ => rfl⟩ : ∃ f : Node → Node, ∀ s, execProgram a1 s = s.hub f)⟩
  | qspiCommandEnd => exact .inl ⟨rfl, (⟨_, fun _ => rfl⟩ : ∃ f : Node → Node, ∀ s, execQspiCommandEnd s = s.hub f)⟩
  | porAssert => exact .inr (.inr ⟨rfl, (⟨_, fun _ => rfl⟩ : ∃ f : Node → Node, ∀ s, execPorAssert s = s.act f)⟩)
  | porRelease => exact .inr (.inr ⟨rfl, (⟨_, fun _ => rfl⟩ : ∃ f : Node → Node, ∀ s, execPorRelease s = s.act f)⟩)
  | strapLatch a1 => exact .inr (.inl ⟨rfl, (⟨_, fun _ => rfl⟩ : ∃ f : Node → Node, ∀ s, execStrapLatch a1 s = s.sill f)⟩)
  | railOutOfRange a1 => exact .inr (.inl ⟨rfl, (⟨_, fun _ => rfl⟩ : ∃ f : Node → Node, ∀ s, execRailOutOfRange a1 s = s.sill f)⟩)
  | vddSillLoss => exact .inr (.inr ⟨rfl, (⟨_, fun _ => rfl⟩ : ∃ f : Node → Node, ∀ s, execVddSillLoss s = s.act f)⟩)
  | bootCensus a1 b1 c1 d1 e1 f1 => exact .inl ⟨rfl, (⟨_, fun _ => rfl⟩ : ∃ f : Node → Node, ∀ s, execBootCensus a1 b1 c1 d1 e1 f1 s = s.hub f)⟩
  | bootImageVerified a1 b1 => exact .inl ⟨rfl, (⟨_, fun _ => rfl⟩ : ∃ f : Node → Node, ∀ s, execBootImageVerified a1 b1 s = s.hub f)⟩
  | firstCommit => exact .inl ⟨rfl, (⟨_, fun _ => rfl⟩ : ∃ f : Node → Node, ∀ s, execFirstCommit s = s.hub f)⟩
  | clockWaitExpiry => exact .inl ⟨rfl, (⟨_, fun _ => rfl⟩ : ∃ f : Node → Node, ∀ s, execClockWaitExpiry s = s.hub f)⟩
  | sysReboot a1 => exact .inl ⟨rfl, (⟨_, fun _ => rfl⟩ : ∃ f : Node → Node, ∀ s, execSysReboot a1 s = s.hub f)⟩
  | systemVersion a1 => exact .inl ⟨rfl, (⟨_, fun _ => rfl⟩ : ∃ f : Node → Node, ∀ s, execSystemVersion a1 s = s.hub f)⟩
  | systemShutdown a1 => exact .inl ⟨rfl, (⟨_, fun _ => rfl⟩ : ∃ f : Node → Node, ∀ s, execSystemShutdown a1 s = s.hub f)⟩
  | shutdownStepEnd => exact .inl ⟨rfl, (⟨_, fun _ => rfl⟩ : ∃ f : Node → Node, ∀ s, execShutdownStepEnd s = s.hub f)⟩
  | systemStatus a1 b1 => exact .inl ⟨rfl, (⟨_, fun _ => rfl⟩ : ∃ f : Node → Node, ∀ s, execSystemStatus a1 b1 s = s.hub f)⟩
  | managementCoresStop => exact .inl ⟨rfl, (⟨_, fun _ => rfl⟩ : ∃ f : Node → Node, ∀ s, execManagementCoresStop s = s.hub f)⟩
  | managementCoresResume => exact .inl ⟨rfl, (⟨_, fun _ => rfl⟩ : ∃ f : Node → Node, ∀ s, execManagementCoresResume s = s.hub f)⟩
  | pcieLinkUp a1 b1 => exact .inl ⟨rfl, (⟨_, fun _ => rfl⟩ : ∃ f : Node → Node, ∀ s, execPcieLinkUp a1 b1 s = s.hub f)⟩
  | vddSillPowerUp => exact .inr (.inr ⟨rfl, (⟨_, fun _ => rfl⟩ : ∃ f : Node → Node, ∀ s, execVddSillPowerUp s = s.act f)⟩)
  | stuckBusRetry a1 => exact .inr (.inl ⟨rfl, (⟨_, fun _ => rfl⟩ : ∃ f : Node → Node, ∀ s, execStuckBusRetry a1 s = s.sill f)⟩)

/-- Every command answers what one effect and the end of a command make of the block, with the queue as it was. -/
theorem exec_act (i : Instr) : ∃ f : Node → Node, ∀ s, exec i s = .next { s with node := (f s.node).settle } := by
  rcases exec_form i with ⟨-, f, h⟩ | ⟨-, f, h⟩ | ⟨-, f, h⟩
  · exact ⟨fun n => if n.alive then f n else n, fun s => h s⟩
  · exact ⟨fun n => if n.sil.powered then f n else n, fun s => h s⟩
  · exact ⟨f, fun s => h s⟩

/-- A command of the hub alone. -/
theorem exec_hub (i : Instr) (h : Safety.beyondHub i = false) : ∃ f : Node → Node, ∀ s, exec i s = s.hub f := by
  rcases exec_form i with ⟨-, hf⟩ | ⟨hb, -⟩ | ⟨hb, -⟩
  · exact hf
  · rw [h] at hb; cases hb
  · rw [h] at hb; cases hb

end Sys2Proof.Machine
end

