-- ==== Sys2Proof/Laws/Frames.lean ====
section
/-! SUPPORT. Frames: what the operations over registers, headers and memory may change, and how frames are joined. -/

namespace Sys2Proof.Safety

open Sys2Proof (Word Byte Sparse Page)
open Sys2Proof.Machine

/-! Frames of parts. -/

theorem OnlyIn.refl (ps : List Part) (n : Node) : OnlyIn ps n n := fun p _ => Part.same_refl p n

/-- A node with other registers. -/
theorem onlyIn_regs (n : Node) (r : Regs) : OnlyIn [.regs] n { n with regs := r } := by
  intro p hp; cases p <;> first | rfl | exact absurd hp (by decide)

theorem onlyIn_hdrs (n : Node) (h : Sparse Hdr) : OnlyIn [.hdrs] n { n with hdrs := h } := by
  intro p hp; cases p <;> first | rfl | exact absurd hp (by decide)

theorem onlyIn_flt (n : Node) (x : FltSt) : OnlyIn [.flt] n { n with flt := x } := by
  intro p hp; cases p <;> first | rfl | exact absurd hp (by decide)

theorem onlyIn_drive (n : Node) (x : DriveSt) : OnlyIn [.drive] n { n with drive := x } := by
  intro p hp; cases p <;> first | rfl | exact absurd hp (by decide)

theorem onlyIn_hng (n : Node) (x : HngSt) : OnlyIn [.hng] n { n with hng := x } := by
  intro p hp; cases p <;> first | rfl | exact absurd hp (by decide)

theorem onlyIn_dies (n : Node) (x : Sparse DieSt) : OnlyIn [.dies] n { n with dies := x } := by
  intro p hp; cases p <;> first | rfl | exact absurd hp (by decide)

theorem onlyIn_setReg (n : Node) (p : Page) (off : Nat) (v : Word) (i : Nat) : OnlyIn [.regs] n (n.setReg p off v i) :=
  onlyIn_regs n _

theorem onlyIn_setFld (n : Node) (p : Page) (f : Field) (v i : Nat) : OnlyIn [.regs] n (n.setFld p f v i) :=
  onlyIn_regs n _

theorem onlyIn_bump (n : Node) (p : Page) (f : Field) (c i : Nat) : OnlyIn [.regs] n (n.bump p f c i) := onlyIn_regs n _

theorem onlyIn_irq (n : Node) (p : Page) (b : Nat) : OnlyIn [.regs] n (n.irq p b) := by
  unfold Node.irq; split
  · exact onlyIn_setReg _ _ _ _ _
  · exact OnlyIn.refl _ _

theorem onlyIn_modHdr (n : Node) (p : Page) (f : Hdr → Hdr) : OnlyIn [.hdrs] n (n.modHdr p f) := onlyIn_hdrs n _

theorem onlyIn_modDie (n : Node) (d : Nat) (f : DieSt → DieSt) : OnlyIn [.dies] n (n.modDie d f) := onlyIn_dies n _

theorem onlyIn_respond (n : Node) (ok : Bool) (w : Word) : OnlyIn [.rsp] n (n.respond ok w) := by
  intro p hp; cases p <;> first | rfl | exact absurd hp (by decide)

theorem onlyIn_attnCause (n : Node) (k : Nat) : OnlyIn [] n (n.attnCause k) := by
  intro p hp; unfold Node.attnCause
  cases p <;> split <;> rfl

/-- A fold of steps that keep a frame keeps it. -/
theorem OnlyIn.foldl {α : Type} {ps : List Part} (f : Node → α → Node) (h : ∀ m a, OnlyIn ps m (f m a)) (xs : List α)
    (n : Node) : OnlyIn ps n (xs.foldl f n) := by
  induction xs generalizing n with
  | nil => exact OnlyIn.refl _ _
  | cons x xs ih => exact (h n x).trans (ih _)

/-! Frames of registers. -/

theorem RegsIn.refl (ps : List Page) (n : Node) : RegsIn ps n n := fun _ _ => rfl

theorem RegsIn.trans {ps : List Page} {a b c : Node} (h : RegsIn ps a b) (g : RegsIn ps b c) : RegsIn ps a c :=
  fun k hk => (g k hk).trans (h k hk)

theorem RegsIn.mono {ps qs : List Page} {a b : Node} (h : RegsIn ps a b) (hs : ∀ p, p ∈ ps → p ∈ qs) : RegsIn qs a b :=
  fun k hk => h k (fun hp => hk (hs _ hp))

theorem RegsIn.of_eq {a b : Node} (ps : List Page) (h : b.regs = a.regs) : RegsIn ps a b := fun k _ => by rw [h]

theorem RegsBut.of_eq {a b : Node} (ks : List Nat) (h : b.regs = a.regs) : RegsBut ks a b := fun k _ => by rw [h]

theorem RegsIn.settle {ps : List Page} {a b : Node} (h : RegsIn ps a b) : RegsIn ps a b.settle :=
  h.trans (RegsIn.of_eq ps (Node.settle_regs b))

theorem RegsBut.settle {ks : List Nat} {a b : Node} (h : RegsBut ks a b) : RegsBut ks a b.settle :=
  fun k hk => by rw [Node.settle_regs]; exact h k hk

theorem RegsBut.trans {ks : List Nat} {a b c : Node} (h : RegsBut ks a b) (g : RegsBut ks b c) : RegsBut ks a c :=
  fun k hk => (g k hk).trans (h k hk)

theorem RegsBut.mono {ks js : List Nat} {a b : Node} (h : RegsBut ks a b) (hs : ∀ k, k ∈ ks → k ∈ js) : RegsBut js a b :=
  fun k hk => h k (fun hp => hk (hs _ hp))

theorem regsBut_setReg (n : Node) (p : Page) (off : Nat) (v : Word) (i : Nat) :
    RegsBut [regKey p off i] n (n.setReg p off v i) := by
  intro k hk
  rw [Node.get_setReg, if_neg (by simpa using hk)]

theorem regsBut_setFld (n : Node) (p : Page) (f : Field) (v i : Nat) : RegsBut [regKey p f.off i] n (n.setFld p f v i) :=
  regsBut_setReg _ _ _ _ _

theorem regsBut_bump (n : Node) (p : Page) (f : Field) (c i : Nat) : RegsBut [regKey p f.off i] n (n.bump p f c i) :=
  regsBut_setReg _ _ _ _ _

theorem regsBut_irq (n : Node) (p : Page) (b : Nat) : RegsBut [regKey p 0x010 0] n (n.irq p b) := by
  unfold Node.irq; split
  · exact regsBut_setReg _ _ _ _ _
  · exact fun _ _ => rfl

theorem blocks_blockNum (b : Block) : blocks.getD (blockNum b) .sys = b := by cases b <;> rfl

/-- The page of a register's key. -/
theorem keyPage_regKey {p : Page} (off i : Nat) (h : p.inst < 32) : keyPage (regKey p off i) = p := by
  obtain ⟨b, k⟩ := p
  simp only at h
  have hk : regKey ⟨b, k⟩ off i = (blockNum b * 32 + k) * 67108864 + (off / 4 % 1024 * 65536 + i % 65536) := by
    unfold regKey pageCode; ring
  have h2 : off / 4 % 1024 * 65536 + i % 65536 < 67108864 := by omega
  have h3 : regKey ⟨b, k⟩ off i / 67108864 = blockNum b * 32 + k := by rw [hk]; omega
  have h4 : (blockNum b * 32 + k) / 32 = blockNum b := by omega
  have h5 : (blockNum b * 32 + k) % 32 = k := by omega
  unfold keyPage
  simp only [h3, h4, h5, blocks_blockNum]

theorem regsIn_setReg (n : Node) {p : Page} (off : Nat) (v : Word) (i : Nat) (h : p.inst < 32) :
    RegsIn [p] n (n.setReg p off v i) := by
  intro k hk
  rw [Node.get_setReg, if_neg]
  rintro rfl
  exact hk (by simp [keyPage_regKey off i h])

theorem regsIn_setFld (n : Node) {p : Page} (f : Field) (v i : Nat) (h : p.inst < 32) : RegsIn [p] n (n.setFld p f v i) :=
  regsIn_setReg _ _ _ _ h

theorem regsIn_bump (n : Node) {p : Page} (f : Field) (c i : Nat) (h : p.inst < 32) : RegsIn [p] n (n.bump p f c i) :=
  regsIn_setReg _ _ _ _ h

theorem regsIn_irq (n : Node) {p : Page} (b : Nat) (h : p.inst < 32) : RegsIn [p] n (n.irq p b) := by
  unfold Node.irq; split
  · exact regsIn_setReg _ _ _ _ h
  · exact RegsIn.refl _ _

theorem RegsIn.foldl {α : Type} {ps : List Page} (f : Node → α → Node) (h : ∀ m a, RegsIn ps m (f m a)) (xs : List α)
    (n : Node) : RegsIn ps n (xs.foldl f n) := by
  induction xs generalizing n with
  | nil => exact RegsIn.refl _ _
  | cons x xs ih => exact (h n x).trans (ih _)

end Sys2Proof.Safety
end

