-- ==== Sys2Proof/Laws/Faults.lean ====
section
/-! SUPPORT. What a fault report does: its frame, and the record that it queues. -/

namespace Sys2Proof.Machine

open Sys2Proof (Word Byte Sparse Page)
open Sys2Proof.Safety

namespace Node

theorem onlyIn_modDrv (n : Node) (k : Nat) (f : DrvCh → DrvCh) : OnlyIn [.drive] n (n.modDrv k f) := onlyIn_drive n _

theorem onlyIn_pinsAll (n : Node) (pick : Nat → Bool) (x : ModPins) : OnlyIn [.drive] n (n.pinsAll pick x) := by
  unfold pinsAll; split
  · exact OnlyIn.foldl _ (fun m k => onlyIn_modDrv m k _) _ n
  · exact OnlyIn.refl _ _

theorem onlyIn_setHeldLeases (n : Node) (h : BitVec 66) : OnlyIn [.regs] n (n.setHeldLeases h) :=
  (onlyIn_setReg _ _ _ _ _).trans ((onlyIn_setReg _ _ _ _ _).trans (onlyIn_setReg _ _ _ _ _))

theorem regsIn_setHeldLeases (n : Node) (h : BitVec 66) : RegsIn [hngPage] n (n.setHeldLeases h) :=
  (regsIn_setReg _ _ _ _ (by decide)).trans ((regsIn_setReg _ _ _ _ (by decide)).trans (regsIn_setReg _ _ _ _ (by decide)))

theorem onlyIn_sendRelease (n : Node) : OnlyIn [.hng, .regs] n n.sendRelease := by
  unfold sendRelease; split
  · exact ((onlyIn_hng n _).mono (by simp)).trans ((onlyIn_bump _ _ _ _ _).mono (by simp))
  · exact OnlyIn.refl _ _

theorem regsIn_sendRelease (n : Node) : RegsIn [hngPage] n n.sendRelease := by
  unfold sendRelease; split
  · exact regsIn_bump _ _ _ _ (by decide)
  · exact RegsIn.refl _ _

theorem onlyIn_fatalFence (n : Node) : OnlyIn [.hng, .regs] n n.fatalFence := by
  unfold fatalFence; split
  · exact (onlyIn_hng n _).mono (by simp)
  · exact ((onlyIn_hng n _).mono (by simp)).trans (((onlyIn_setHeldLeases n.stopRenewals 0).mono (by simp)).trans
      ((onlyIn_sendRelease _).trans ((onlyIn_irq _ _ _).mono (by simp))))

theorem regsIn_fatalFence (n : Node) : RegsIn [hngPage] n n.fatalFence := by
  unfold fatalFence; split
  · exact RegsIn.of_eq _ rfl
  · exact (RegsIn.of_eq _ (rfl : n.stopRenewals.regs = n.regs)).trans ((regsIn_setHeldLeases n.stopRenewals 0).trans
      ((regsIn_sendRelease _).trans (regsIn_irq _ _ (by decide))))

theorem onlyIn_fatalEnter (n : Node) : OnlyIn [.sil, .clk, .mgmt, .reeds] n n.fatalEnter := by
  intro p hp; cases p <;> first | rfl | exact absurd hp (by decide)

theorem onlyIn_railsLow (n : Node) : OnlyIn [.drive, .pins] n n.railsLow := by
  intro p hp; cases p <;> first | rfl | exact absurd hp (by decide)

theorem onlyIn_fatalPins (n : Node) : OnlyIn [.pins] n n.fatalPins := by
  intro p hp; cases p <;> first | rfl | exact absurd hp (by decide)

/-- What a fatal fault changes (R325). -/
theorem onlyIn_fatalStop (n : Node) : OnlyIn [.regs, .sil, .clk, .mgmt, .reeds, .hng, .drive, .pins] n n.fatalStop := by
  unfold fatalStop; split
  · exact OnlyIn.refl _ _
  · refine OnlyIn.trans ?_ ((onlyIn_attnCause _ 1).mono (by simp))
    refine OnlyIn.trans ((onlyIn_fatalEnter n).mono (by simp)) ?_
    refine OnlyIn.trans ((onlyIn_fatalFence _).mono (by simp)) ?_
    refine OnlyIn.trans ((onlyIn_pinsAll _ (fun _ => true) .zero).mono (by simp)) ?_
    exact ((onlyIn_railsLow _).mono (by simp)).trans ((onlyIn_fatalPins _).mono (by simp))

theorem regsIn_fatalStop (n : Node) : RegsIn [hngPage] n n.fatalStop := by
  unfold fatalStop; split
  · exact RegsIn.refl _ _
  · refine RegsIn.trans ?_ (RegsIn.of_eq _ (attnCause_regs _ 1))
    refine RegsIn.trans (RegsIn.of_eq _ (onlyIn_fatalEnter n .regs (by simp))) ?_
    refine RegsIn.trans (regsIn_fatalFence _) ?_
    refine RegsIn.trans (RegsIn.of_eq _ ((onlyIn_pinsAll _ (fun _ => true) .zero) .regs (by simp))) ?_
    exact (RegsIn.of_eq _ (onlyIn_railsLow _ .regs (by simp))).trans (RegsIn.of_eq _ (onlyIn_fatalPins _ .regs (by simp)))

/-- A record that no waiting record of its Sill cycle comes after goes last, with the number it arrived with. -/
theorem enqueue_last (q : List Record) (r : Record) (h : laterInCycle q r = 0) : enqueue q r = q ++ [r] := by
  simp [enqueue, renumbered, h]

theorem onlyIn_queueRecord (n : Node) (r : Record) : OnlyIn [.flt, .regs] n (n.queueRecord r) := by
  unfold queueRecord; dsimp only; split
  · exact ((onlyIn_flt n _).trans (onlyIn_flt _ _)).mono (by simp)
  · exact ((onlyIn_flt n _).trans (onlyIn_flt _ _)).mono (by simp) |>.trans ((onlyIn_bump _ _ _ _ _).mono (by simp))

theorem regsIn_queueRecord (n : Node) (r : Record) : RegsIn [fltPage] n (n.queueRecord r) := by
  unfold queueRecord; dsimp only; split
  · exact RegsIn.of_eq _ rfl
  · exact RegsIn.trans (RegsIn.of_eq _ rfl) (regsIn_bump _ _ _ _ (by decide))

theorem queueRecord_flt (n : Node) (r : Record) :
    (n.queueRecord r).flt.nextSeq = (n.flt.nextSeq + 1) % 4294967296 ∧ (n.queueRecord r).flt.ring = n.flt.ring ∧
    (n.flt.queue.length < 64 → (n.queueRecord r).flt.queue = enqueue n.flt.queue r) := by
  unfold queueRecord; dsimp only
  split
  · exact ⟨rfl, rfl, fun _ => rfl⟩
  · next h => exact ⟨rfl, rfl, fun h' => absurd h' h⟩

theorem onlyIn_enterFault (n : Node) (p : Page) (cls : Nat) : OnlyIn [.flt, .regs] n (n.enterFault p cls) := by
  unfold enterFault
  dsimp only
  refine OnlyIn.trans (b := if n.byCount p cls || n.byRepeat p cls then
    (n.clearHistory (faultSource p) cls).enterHistory (faultSource p) (cls + 1) else n.enterHistory (faultSource p) cls) ?_ ?_
  · split
    · exact ((onlyIn_flt n _).trans (onlyIn_flt _ _)).mono (by simp)
    · exact (onlyIn_flt n _).mono (by simp)
  · refine OnlyIn.mono (ps := [.regs]) ?_ (by simp)
    generalize (if n.byCount p cls || n.byRepeat p cls then
      (n.clearHistory (faultSource p) cls).enterHistory (faultSource p) (cls + 1)
      else n.enterHistory (faultSource p) cls) = m
    cases n.byCount p cls <;> cases n.byRepeat p cls <;> simp only [Bool.or_true, Bool.or_false, if_true, if_false,
      Bool.false_eq_true]
    · exact OnlyIn.refl _ _
    · exact (onlyIn_bump _ _ _ _ _).trans (onlyIn_irq _ _ _)
    · exact (onlyIn_bump _ _ _ _ _).trans (onlyIn_irq _ _ _)
    · exact (onlyIn_bump _ _ _ _ _).trans ((onlyIn_bump _ _ _ _ _).trans (onlyIn_irq _ _ _))

theorem regsIn_enterFault (n : Node) (p : Page) (cls : Nat) : RegsIn [fltPage] n (n.enterFault p cls) := by
  unfold enterFault
  dsimp only
  refine RegsIn.trans (b := if n.byCount p cls || n.byRepeat p cls then
    (n.clearHistory (faultSource p) cls).enterHistory (faultSource p) (cls + 1) else n.enterHistory (faultSource p) cls) ?_ ?_
  · split <;> exact RegsIn.of_eq _ rfl
  · generalize (if n.byCount p cls || n.byRepeat p cls then
      (n.clearHistory (faultSource p) cls).enterHistory (faultSource p) (cls + 1)
      else n.enterHistory (faultSource p) cls) = m
    have hi : fltPage.inst < 32 := by decide
    cases n.byCount p cls <;> cases n.byRepeat p cls <;> simp only [Bool.or_true, Bool.or_false, if_true, if_false,
      Bool.false_eq_true]
    · exact RegsIn.refl _ _
    · exact (regsIn_bump _ _ _ _ hi).trans (regsIn_irq _ _ hi)
    · exact (regsIn_bump _ _ _ _ hi).trans (regsIn_irq _ _ hi)
    · exact (regsIn_bump _ _ _ _ hi).trans ((regsIn_bump _ _ _ _ hi).trans (regsIn_irq _ _ hi))

theorem enterFault_records (n : Node) (p : Page) (cls : Nat) :
    (n.enterFault p cls).flt.nextSeq = n.flt.nextSeq ∧ (n.enterFault p cls).flt.ring = n.flt.ring ∧
    (n.enterFault p cls).flt.queue = n.flt.queue := by
  unfold enterFault
  dsimp only
  cases n.byCount p cls <;> cases n.byRepeat p cls <;> simp only [Bool.or_true, Bool.or_false, if_true, if_false,
    Bool.false_eq_true, irq_flt, bump_flt] <;> exact ⟨rfl, rfl, rfl⟩

theorem onlyIn_countFault (n : Node) (p : Page) (cls : Nat) : OnlyIn [.regs] n (n.countFault p cls) := by
  unfold countFault; split
  · exact onlyIn_bump _ _ _ _ _
  · split
    · exact onlyIn_bump _ _ _ _ _
    · exact OnlyIn.refl _ _

theorem regsIn_countFault (n : Node) {p : Page} (cls : Nat) (h : p.inst < 32) : RegsIn [p] n (n.countFault p cls) := by
  unfold countFault; split
  · exact regsIn_bump _ _ _ _ h
  · split
    · exact regsIn_bump _ _ _ _ h
    · exact RegsIn.refl _ _

theorem onlyIn_noteLast (n : Node) (p : Page) : OnlyIn [.flt] n (n.noteLast p) := onlyIn_flt n _

theorem regsIn_noteLast (n : Node) (p : Page) : RegsIn [] n (n.noteLast p) := RegsIn.of_eq _ rfl

theorem noteLast_records (n : Node) (p : Page) :
    (n.noteLast p).flt.nextSeq = n.flt.nextSeq ∧ (n.noteLast p).flt.ring = n.flt.ring ∧ (n.noteLast p).flt.queue = n.flt.queue :=
  ⟨rfl, rfl, rfl⟩

/-- The parts that a fault report may change. -/
theorem onlyIn_reportFault (n : Node) (p : Page) (code cls : Nat) (d : Word) (u st : Nat) :
    OnlyIn faultParts n (n.reportFault p code cls d u st) := by
  have h : OnlyIn faultParts n ((((n.enterFault p cls).countFault p (n.judgedClass p cls)).noteLast p).queueRecord
      (n.faultRecord p code cls (n.judgedClass p cls) (n.byCount p cls) (n.byRepeat p cls) d u st)) :=
    ((onlyIn_enterFault n p cls).mono (by decide)).trans
      (((onlyIn_countFault _ p _).mono (by decide)).trans (((onlyIn_noteLast _ _).mono (by decide)).trans
        ((onlyIn_queueRecord _ _).mono (by decide))))
  unfold reportFault
  dsimp only
  split
  · exact h.trans ((onlyIn_fatalStop _).mono (by decide))
  · exact h

/-- The pages whose registers a fault report may change. -/
theorem regsIn_reportFault (n : Node) {p : Page} (code cls : Nat) (d : Word) (u st : Nat) (hp : p.inst < 32) :
    RegsIn [p, fltPage, hngPage] n (n.reportFault p code cls d u st) := by
  have h : RegsIn [p, fltPage, hngPage] n ((((n.enterFault p cls).countFault p (n.judgedClass p cls)).noteLast p).queueRecord
      (n.faultRecord p code cls (n.judgedClass p cls) (n.byCount p cls) (n.byRepeat p cls) d u st)) :=
    ((regsIn_enterFault n p cls).mono (by simp)).trans
      (((regsIn_countFault _ _ hp).mono (by simp)).trans (((regsIn_noteLast _ _).mono (by simp)).trans
        ((regsIn_queueRecord _ _).mono (by simp))))
  unfold reportFault
  dsimp only
  split
  · exact h.trans ((regsIn_fatalStop _).mono (by simp))
  · exact h

theorem judgedClass_le (n : Node) (p : Page) (cls : Nat) : cls ≤ n.judgedClass p cls := by
  unfold judgedClass; split <;> omega

theorem fatalStop_flt (n : Node) : n.fatalStop.flt = n.flt := onlyIn_fatalStop n .flt (by decide)

theorem countFault_flt (n : Node) (p : Page) (cls : Nat) : (n.countFault p cls).flt = n.flt :=
  onlyIn_countFault n p cls .flt (by decide)

theorem reportFault_flt (n : Node) (p : Page) (code cls : Nat) (d : Word) (u st : Nat) :
    (n.reportFault p code cls d u st).flt = ((((n.enterFault p cls).countFault p (n.judgedClass p cls)).noteLast p).queueRecord
      (n.faultRecord p code cls (n.judgedClass p cls) (n.byCount p cls) (n.byRepeat p cls) d u st)).flt := by
  unfold reportFault
  dsimp only
  split
  · rw [fatalStop_flt]
  · rfl

/-- A fault report takes a sequence number, and its record joins the queue. -/
theorem reportFault_raised (n : Node) (p : Page) (code cls : Nat) (d : Word) (u st : Nat) :
    (n.reportFault p code cls d u st).flt.nextSeq = (n.flt.nextSeq + 1) % 4294967296 ∧
    (n.reportFault p code cls d u st).flt.ring = n.flt.ring ∧
    (n.flt.queue.length < 64 → (n.reportFault p code cls d u st).flt.queue = enqueue n.flt.queue
      (n.faultRecord p code cls (n.judgedClass p cls) (n.byCount p cls) (n.byRepeat p cls) d u st)) := by
  rw [reportFault_flt]
  generalize n.faultRecord p code cls (n.judgedClass p cls) (n.byCount p cls) (n.byRepeat p cls) d u st = r
  obtain ⟨q1, q2, q3⟩ := queueRecord_flt (((n.enterFault p cls).countFault p (n.judgedClass p cls)).noteLast p) r
  obtain ⟨e1, e2, e3⟩ := enterFault_records n p cls
  obtain ⟨l1, l2, l3⟩ := noteLast_records ((n.enterFault p cls).countFault p (n.judgedClass p cls)) p
  rw [l1, countFault_flt] at q1
  rw [l2, countFault_flt] at q2
  rw [l3, countFault_flt] at q3
  exact ⟨q1.trans (by rw [e1]), q2.trans e2, fun h => (q3 (by rw [e3]; exact h)).trans (by rw [e3])⟩

/-- A fault that a block raises is at the collector. -/
theorem raiseFault_raised (n : Node) (p : Page) (code : Nat) (d : Word) (u : Nat) (nr : Bool) :
    Raised p code n (n.raiseFault p code d u nr) := by
  obtain ⟨h1, h2, h3⟩ := reportFault_raised n p code (faultClass p.block code) d u
    (if hasTest p.block then (if nr then 4 else 1) else 0)
  exact ⟨h1, h2, fun hl => ⟨_, h3 hl, rfl, rfl, rfl, rfl, rfl, judgedClass_le n p _, rfl⟩⟩

theorem onlyIn_raiseFault (n : Node) (p : Page) (code : Nat) (d : Word) (u : Nat) (nr : Bool) :
    OnlyIn faultParts n (n.raiseFault p code d u nr) := onlyIn_reportFault n p code _ d u _

theorem regsIn_raiseFault (n : Node) {p : Page} (code : Nat) (d : Word) (u : Nat) (nr : Bool) (hp : p.inst < 32) :
    RegsIn [p, fltPage, hngPage] n (n.raiseFault p code d u nr) := regsIn_reportFault n code _ d u _ hp

end Node

end Sys2Proof.Machine
end

