-- ==== Sys2Proof/Tests/Slice0.lean ====
section
/-! SUPPORT. Tests: states for them, witnesses that the hypotheses of the obligations hold together, what WellFormed refuses,
and single commands with results that the spec gives. -/

namespace Sys2Proof.Tests

open Sys2Proof.Machine Sys2Proof.Safety

set_option linter.unusedVariables false
/- Tests that the kernel evaluates wait for each other: elaborated one at a time, they take no thread each. -/
set_option Elab.async false

/-- A node in service: the supplies and straps are up, all dies are present. -/
def base : Node :=
  { State.reset.node with
    sil := { State.reset.node.sil with powered := true }
    boot := { State.reset.node.boot with engPresent := 0x3f, drvPresent := true, strapped := true } }
def sBase : State := { node := base }
def noDies : State := { node := { base with boot := { base.boot with engPresent := 0x3e, drvPresent := false } } }
def poisonedDram : State := { node := { base with dram := { base.dram with poisoned := [0] } } }
def reqA : MatrixReq := { master := 3, id := 1, target := 5, beats := 16 }
def reqB : MatrixReq := { master := 9, id := 2, target := 5, beats := 16 }
def reqPcie : MatrixReq := { master := 8, id := 3, target := 6, beats := 1, outbound := true }
def heldReq : State := { node := { base with mtx := { held := [reqA] } } }
/-- The node with a page's header as given. -/
def hdrSt (p : Page) (h : Hdr) : State := { node := base.setHdr p h }
def running : State := { node := { base with clk := { base.clk with running := true, index := 5 } } }
def pcie : Src := ⟨.pcie, 8⟩
def i2cSrc : Src := ⟨.i2c, 0⟩
/-- A page whose shutdown runs, the same with an enable latched behind it, and a page that is active. -/
def hBusy (p : Page) : State := hdrSt p { busy := true, active := true }
def hPend (p : Page) : State := hdrSt p { busy := true, pending := true }
def hActive (p : Page) : State := hdrSt p { active := true }
/-- A page whose key a port holds, or for which it has armed one. -/
def keyed (p : Page) : State := hdrSt p { keyHolder := some .pcie }
def armed (p : Page) : State := hdrSt p { keyArmed := [.pcie] }
/-- Nodes in the course of a re-index or of a change of rate, generation running or stopped. -/
def withCas (c : CasSt) (run : Bool) : State :=
  { node := { base with cas := c, clk := { base.clk with running := run, index := 5 } } }
def fading : State := withCas { reindex := .fading } true
def reindexStopped : State := withCas { reindex := .stopped } false
def awaitStopped : State :=
  { node := { (withCas { reindex := .stopped, newRate := some 2, awaiting := true } false).node with mgmt := { running := true } } }
def awaitIdle : State :=
  { node := { (withCas { newRate := some 2, awaiting := true } false).node with mgmt := { running := true } } }
/-- No DRAM channel can hold this configuration's rings. -/
def awaitRefused : State :=
  { node := { awaitStopped.node with
      rt := { awaitStopped.node.rt with inForce := true, cfg := { rate := 3, dramBytes := 1099511627776 } } } }
/-- One work item of 55 FIR segments, which is too large at the rates of the 44.1 kHz family. -/
def cfgHeavy : Cfg := { rate := 3, items := [{ die := 0, slot := 0, item := 1, segs := [(5, 55)] }] }
def keyedFading : State := { node := fading.node.setHdr Node.casPage { keyHolder := some .pcie } }
def casStops : State := { node := running.node.setHdr Node.casPage { busy := true, active := true } }
/-- A node in casement time with engine `k` of die 0 as given. -/
def withEngine (k : Nat) (e : Engine) : Node := running.node.modEngine 0 k (fun _ => e)
/-- Engine 0 as given. -/
def runs (e : Engine) : State := { node := withEngine 0 e }
def fenPoisoned : State := { node := { running.node.modDie 0 (fun s => { s with poisoned := [8] }) with mgmt := { running := true } } }
/-- Engine 3 is retired and the spare stands by for it, or stands in. -/
def retired3 (e8 : EngineState) (d : DieSt → DieSt) : State :=
  { node := (((running.node.modEngine 0 3 (fun e => { e with state := .retired })).modEngine 0 8 (fun e => { e with state := e8 })).modDie 0 d) }
def spareReady : State := retired3 .spare (fun s => { s with spareFor := some 3, rerun := some (7, [.clear, .storeSample 64]) })
/-- An unfinished item. -/
def unfinA : Unfinished := { die := 0, unit := 0, item := 9, late := false }
/-- A link in training with lanes that failed. -/
def linkBad (lanes : Word) : State := { node := base.modLink 0 0 (fun l => { l with training := true, lanes := lanes }) }
/-! Reed cores. -/
def core0 : CoreId := ⟨0, 0⟩
def prog0 : ReedCfg :=
  { die := 0, core := 0, slot := 0, budget := 1000, entry := 16, nin := 1, nout := 1, regionBase := 256, regionLen := 256,
    windows := [(4096, 4096)], inOffs := [0], outOffs := [8192] }
def regs0 : List Word := [5, 0x7FFFFFFF, 0x80000000, 0xFFFFFFFF, 33, 1, 0] ++ List.replicate 9 0
def accs0 : List (BitVec 80) := [0x1234567, 0x7FFFFFFFFFFFFFFFFFFF, 0x80000000000000000000, 0]
/-- A core that runs program 0, as `f` gives it. -/
def reedSt (f : ReedCore → ReedCore) : State :=
  { node := { running.node with rt := { running.node.rt with cfg := { running.node.rt.cfg with reeds := [prog0] } } }.modReed
      core0 (fun r => f { r with mode := .program, slot := 0, pc := 20, x := regs0, ac := accs0, runsOver := false,
                                 p := List.replicate 8 256, b := List.replicate 8 256 }) }
def reedRuns : State := reedSt id
def reedHandler : State := reedSt (fun r => { r with mode := .handler, runsOver := true })
def reedCircular : State := reedSt (fun r => { r with l := List.replicate 8 7, m := List.replicate 8 0xFFFF })
/-- REP frames and transfers of a core, and a core with a set of channels. -/
def repA : RepFrame := ⟨19, 2, 1, 1⟩
def repB : RepFrame := ⟨19, 2, 1, 3⟩
def repC : RepFrame := ⟨17, 4, 2, 1⟩
def xferR : ReedXfer := { write := false, fen := 4096, loc := 256, len := 3 }
def xferW : ReedXfer := { write := true, fen := 4096, loc := 256, len := 2, words := [0, 0] }
def chanSt (xs : List ReedXfer) : State := reedSt (fun r => { r with chans := [[], [], [], xs] })
/-- A core before its first run of the casement; and one whose run has ended with `cyc` cycles. -/
def reedFree : State := reedSt (fun r => { r with mode := .idle })
def reedDone : State := reedSt (fun r => { r with mode := .idle, entered := 1 })
def reedEnding (cyc : Nat) : State := reedSt (fun r => { r with mode := .ending, cyc := cyc })
def reedIrq (m : ReedMode) : State := reedSt (fun r => { r with mode := m, st := 0x100, ipend := 6, imask := 7 })
def reedInHandler (i : Bool) : State :=
  { node := (reedSt (fun r => { r with mode := .handler, interrupted := i, ipc := 20, ist := 3 })).node.setFld (rcxPage core0) Fld.rcxIrqBudgetCycles 500 }
/-! The services. -/
def serving : Node := { running.node with mgmt := { running := true } }
/-- A slot is BUSY, and a request longer than a slot can hold. -/
def slotBusy (k : Nat) : State := { node := serving.setFld mgtPage Fld.mgtMbxStatBusy (2 ^ k) }
def badLen : State := { node := serving.setReg mgtPage (requestOff 0) 0x01020340 }
/-- A slot is BUSY and jobs exist. -/
def withJobs (js : List Job) : State :=
  { node := { (slotBusy 0).node with rt := { (slotBusy 0).node.rt with jobs := js } } }
def jobIn (st : JobState) : Job := { num := 5, state := st, detail := 300, loads := [(1, 2, 3)] }
def oneJob (st : JobState) : State := withJobs [jobIn st]
def fourJobs : State := withJobs [{ num := 1, state := .stale }, { num := 2, state := .stale }, { num := 3, state := .stale }, { num := 255, state := .stale }]
def xptKeyed (n : Node) : Node := n.setHdr xptPage { keyHolder := some .pcie }
def heldKey : State := { node := xptKeyed (oneJob .admitted).node }
def jobWaits : Job := { jobIn .admitted with waiting := [1] }
def waitsSlot : State := withJobs [jobWaits]
/-- A configuration in force has lost a die, and its re-admission waits. -/
def readmits : State :=
  { node := { serving with rt := { serving.rt with inForce := true, readmitWaits := true, forceJob := 7 } } }
/-! Shutters and strips. -/
def site : ShutterId := ⟨3, 0, 5⟩
def shutSt (id : ShutterId) (sh : Shutter) : State := { node := running.node.setShut id { sh with present := true } }
def rampA : Ramp := { g0 := 0x20000000, g1 := 0, law := 0, len := 960, total := 960, start := 0x20000000, target := 0, done := 100 }
/-- A configuration in force with a source, a bus and a DRAM output strip of one FIR segment, all on die 0. -/
def cfgA : Cfg :=
  { rate := 3, sources := [{ num := 3, kind := 0, origin := 3, die := 0, sections := 2, loc0 := 1024, loc1 := 2048, fenClass := true }],
    buses := [{ num := 7, die := 0, sections := 2, loc0 := 4096, loc1 := 8192 }],
    strips := [{ num := 5, inBus := true, input := 7, die := 0, sections := 2, segments := 1, frac := true, dram := true,
                 loc0 := 16384, loc1 := 20480, firLoc0 := 32768, firLoc1 := 65536, window := 131072, window2 := 135168 }],
    steerLoc := [(200704, 262144)] }
def cfgNode : Node := { running.node with rt := { running.node.rt with cfg := cfgA, inForce := true } }
def inCfg (f : StripSt → StripSt) : State := { node := ((cfgNode.modStrip 1 3 f).modStrip 2 7 f).modStrip 3 5 f }
/-- The BQD window selects record 0 of strip 5, and the FIR window strip 5. -/
def select5 (s : State) : State :=
  { node := (((s.node.setFld (bqdPage 0) Fld.bqdSelKind 2).setFld (bqdPage 0) Fld.bqdSelIndex 5).setFld (firPage 0) Fld.firSelStrip 5) }
def immediate5 (s : State) : State :=
  { node := ((select5 s).node.setFld (bqdPage 0) Fld.pgCtrlCommitMode 2).setFld (firPage 0) Fld.pgCtrlCommitMode 2 }
def steers : State :=
  { node := cfgNode.modDie 0 (fun s => { s with steerCopying := true }) }
/-- Strip 5 stands at a delay of 300 samples, and the DRAM word of its first read is poisoned. -/
def readsPoison : State :=
  let n := (inCfg (fun t => { t with applied := 300 * 65536, target := 300 * 256 })).node
  let m : Int := (n.mediaSample 0 : Nat) - (300 : Int)
  { node := { n with dram := { n.dram with poisoned := (n.stripOf 5).toList.map (fun c =>
      (dramBase + c.ring + 4 * (m % (Node.dramRing : Int)).toNat) / 64) } } }
/-! Streams and ports. -/
def rxA : RxStreamCfg :=
  { num := 3, dual := false, port := 1, eid := 77, udpDst := 4000, dstAddr := 99, srcs := [some 11], senderEid := 44, depth := 4,
    ringBase := 256 }
def txA : TxStreamCfg := { num := 2, eid := 78 }
/-- Port 1 is Active with every UDP port in its audio class. -/
def rxPort (n : Node) : Node := (n.setHdr (macPage 1) { active := true }).setAct (macPage 1) Fld.macRxclassUdpHi 0xFFFF
def rxNode : Node :=
  rxPort { running.node with rt := { running.node.rt with inForce := true, cfg := { rx := [rxA], tx := [txA] } } }
def packetA : StreamPacket :=
  { port := 1, src := 11, dst := 99, udpDst := 4000, rate := running.node.rate, eid := 77, sender := 44, seq := 7, stamp := 3,
    samples := List.replicate running.node.s 0x1234
    crc := BitVec.ofNat 32 (crc32c ((List.replicate running.node.s 0x1234).flatMap (fun (w : Word) => Node.beBytes w.toNat 4))) }
def slotA : Slot := { t := 3, wrote := [(7, 2 ^ running.node.s - 1)] }
def slotB : Slot := { t := 2, wrote := [(7, 2 ^ running.node.s - 1)] }
def rxIs (x : RxStream) : State := { node := rxNode.setRx 3 x }
/-- Port 0 is Active with a transmit and a receive ring of 16 descriptors in working SRAM, one descriptor ready in each. -/
def macNode (f : MacSt → MacSt) : Node :=
  let n := running.node.setHdr (macPage 0) { active := true }
  let n := (n.setFld (macPage 0) Fld.macTxrBaseLoAddr 0x10000000).setFld (macPage 0) Fld.macRxrBaseLoAddr 0x10000200
  let n := (n.setFld (macPage 0) Fld.macTxrTailIndex 1).setFld (macPage 0) Fld.macRxrTailIndex 1
  let n := n.setFld (macPage 0) Fld.macCfgPromisc 1
  let n := n.wrBytes 0x10000000 (Node.leBytes 0x10001000 4 ++ Node.leBytes 0x80000040 4)
  let n := n.wrBytes 0x10000200 (Node.leBytes 0x10002000 4 ++ Node.leBytes 0x80000800 4)
  n.modMac 0 f
def macSt (f : MacSt → MacSt) : State := { node := macNode f }
def macOn : State := macSt (fun m => { m with link := true })
def macNoRing : State := { node := macOn.node.setFld (macPage 0) Fld.macRxrTailIndex 0 }
def macNoPause : State := { node := macOn.node.setFld (macPage 0) Fld.macCfgRxPauseEn 0 }
def macPaused : State := macSt (fun m => { m with paused := true })
def macSending : State := macSt (fun m => { m with sending := some 0 })
def macTrains : State := macSt (fun m => { m with training := true, relink := true })
def macHolds : State := macSt (fun m => { m with link := true, rxHeld := [⟨{ bytes := [1], wireLen := 64 }, false, 0, 0⟩] })
def macFull : State := { node := { macOn.node with str := { macOn.node.str with ringUse := (2000000, 0, 0) } } }
def macStops : State := { node := macOn.node.setHdr (macPage 0) { busy := true } }
def macAudio : State := macSt (fun m => { m with audioOn := true, audio := [128] })
def macQueued (as : List Nat) : State := macSt (fun m => { m with paused := true, waits := some 0, audio := as })
/-- A MAC takes a frame: it receives, or it stops and the frame had begun. -/
abbrev takesFrame (s : State) (k : Nat) (f : RxFrame) : Prop := s.node.receives k = true ∨
  (f.begun = true ∧ (s.node.hdr (macPage k)).busy = true ∧ (s.node.mac k).retired = false ∧ (s.node.mac k).idle = false)
def frameA (len : Nat) : RxFrame := { bytes := [0, 0, 5, 6, 7, 8, 9, 9], wireLen := len }
/-! Time. -/
def steered : State := { node := running.node.setFld phcPage Fld.phcCtrlSteer 1 }
def unsteered (f : PhcSt → PhcSt) : State :=
  { node := { running.node.setFld phcPage Fld.phcCtrlSteer 0 with phc := f running.node.phc } }
/-- STEP.SECONDS and STEP.NS hold an offset, and the largest step without a permit is `lim` ns. -/
def stepSt (sec ns lim : Word) (f : PhcSt → PhcSt) : State :=
  { node := ((((unsteered f).node.setReg phcPage 0x05C ns).setReg phcPage 0x060 sec).setReg phcPage 0x064 (if sec.msb then 0xFFFF else 0)).setReg phcPage 0x06C lim }
def ptpSt (x : PtpSt) (busy : Bool) : State :=
  { node := { serving.setFld mgtPage Fld.mgtMbxStatBusy (if busy then 1 else 0) with ptp := x } }
def portOn (state : Nat) : PtpPort := { enable := true, state := state }
/-! References. Slot 0 takes a 10 MHz input whose QL is good. -/
def refNode : Node :=
  let n := running.node.setHdr refPage { active := true }
  let n := (n.setFld refPage Fld.refScfg0Enable 1).setFld refPage Fld.refScfg0Enable 1 1
  let n := (n.setFld refPage Fld.refScfg1QlMin 0xF000).setFld refPage Fld.refScfg1UserQl 0x0621
  n.setFld refPage Fld.refAgreePpb 10
def refSt (f : RefSlot → RefSlot) : State := { node := refNode.modSlot 0 f }
def refIs (st : SlotState) : State := refSt (fun r => { r with state := st })
def refActive : State := { node := { (refIs .qualified).node with refs := { (refIs .qualified).node.refs with active := some 0 } } }
def twoUsable : State := { node := (refIs .qualified).node.modSlot 1 (fun r => { r with state := .degraded }) }
def twoApart : State := { node := twoUsable.node.modSlot 1 (fun r => { r with abs := [10000000] }) }
def agreedFor (t : Nat) : State := refSt (fun r => { r with state := .votedOut, agreed := t })
def refServes (inForce : Bool) : State :=
  { node := { refNode.setFld mgtPage Fld.mgtMbxStatBusy 1 with
      mgmt := { running := true }, rt := { refNode.rt with inForce := inForce, cfg := { refpol := [(refPage, 0x074, 0, 0x06210621)] } } } }
def dpllSt (k : Nat) (d : Dpll) : State := { node := refActive.node.modDpll k (fun _ => d) }
def noInput (k : Nat) (d : Dpll) : State := { node := refNode.modDpll k (fun _ => d) }
/-! Local audio. Receiver 0 feeds source 9, a member of bundle 1; decimator 0 feeds source 10. -/
def locNode : Node :=
  { running.node with rt := { running.node.rt with inForce := true, cfg := {
      sources := [{ num := 9, kind := 1, origin := 0, die := 0, bundle := 1 }, { num := 10, kind := 3, origin := 0, die := 0, bundle := 1 }],
      bundles := [{ num := 1, inputs := [⟨1, 0⟩, ⟨3, 0⟩] }] } } }.setShut ⟨1, 0, 9⟩ { present := true }
def aesIs (state : Nat) : State := { node := locNode.setFld (aesPage 0) Fld.aesRxStatState state }
def aesSync (state : Nat) : State := { node := (aesIs state).node.setAct (aesPage 0) Fld.aesCfgRxSync 1 }
def aesMutes : State :=
  { node := ((aesIs 4).node.setFld (aesPage 0) Fld.aesCfgVMute 1).modAes 0 (fun x => { x with vRunA := 7 }) }
def aesSends : State := { node := locNode.setFld (aesPage 0) Fld.aesTxStatRunning 1 }
def subA : Subframe := { audio := 0x123456, v := true }
def subB : Subframe := { audio := 0xABCDEF, parityError := true }
def tdmNode (x : TdmSt) : Node := (locNode.setHdr (tdmPage 0) { active := true }).modTdm 0 (fun _ => x)
def fadeUp : SlotFade := { output := true, slot := 31, up := true, start := 0, len := 32 }
def fadeDown : SlotFade := { output := false, slot := 0, up := false, start := 0, len := 32 }
def tdmWaits : State :=
  { node := ((tdmNode { waiting := true }).setAct (tdmPage 0) Fld.tdmRxmaskSlot 0x80000001).setReg (tdmPage 0) 0x054 0x80000000 }
def tdmAtOnce : State := { node := tdmWaits.node.setFld (tdmPage 0) Fld.tdmMaskctlGraceful 0 }
def tdmFades : State := { node := (tdmNode { fades := [fadeUp, fadeDown] }).setReg (tdmPage 0) 0x050 5 }
def stuck0 : State := { node := (locNode.setReg sdiPage 0x044 1).setAct decPage Fld.decCfgOn 1 }
def decChanges : State := { node := locNode.modDec 0 (fun _ => { changing := true, ran := 30 }) }
def decSettles : State := { node := stuck0.node.setFld decPage Fld.decStatSettling 1 }
/-! Drive outputs: channel 0, whose sink Shutter exists. -/
def chIn (st : Nat) (f : DrvCh → DrvCh) : State :=
  { node := (((locNode.setHdr (modPage 0) { active := true }).chSet 0 Fld.modChstatState st).setShut (drvSink 0) { present := true }).modDrv 0 f }
def chSt (st : Nat) : State := chIn st id
def chCut : State := { node := { (chSt 3).node with drive := { (chSt 3).node.drive with missing := 8 } } }
def chFollowed (st : Nat) : State := { node := (chSt st).node.chSet 0 Fld.modChstatFollowed 1 }
def chOffPage (st : Nat) : State := { node := (chIn st (fun d => { d with stop := .ending })).node.setHdr (modPage 0) {} }
/-- An identity frame of version `v` with the given release byte, for channel 0. -/
def idFrame (v rel : Byte) : List Byte :=
  let f : List Byte := [0x7E, 0x5A, v] ++ List.replicate 15 0 ++ [rel] ++ List.replicate 11 0
  f ++ [BitVec.ofNat 8 (crc16 f / 256), BitVec.ofNat 8 (crc16 f)]
def lateGroup : State :=
  { node := { (chSt 1).node.chSet 0 Fld.modChctlChEn 1 with
      drive := { (chSt 1).node.drive with firstMet := [(0, 1)] } } }
/-! The CARRIER and FAULT services. -/
def svc : Node := { (chSt 1).node.setFld mgtPage Fld.mgtMbxStatBusy 1 with mgmt := { running := true } }
def svcNoDrive : State := { node := { svc with boot := { svc.boot with drvPresent := false, engPresent := 0x3e } } }
def svcDrive (d : DriveSt) : State := { node := { svc with drive := d } }
def planA : PlanJob := { num := 1, first := 0, count := 2 }
def planB : PlanJob := { num := 2, first := 0, count := 192, state := 3, smallest := 7, short := 1 }
def svcPlans : State := svcDrive { svc.drive with jobs := [planA, planB], nextJob := 3, protectedFreqs := [576000, 16000000] }
def recA : Record :=
  { seq := 9, casement := 5, epoch := 0, ns := 1, sec := 2, region := 7, page := 0, code := 1, cls := 1, orig := 1, esc := 0,
    stest := 0, detail := 0 }
def testA : TestJob := { job := 1, region := 1, page := 0, unit := 3, result := 2 }
def svcFaults : State := { node := { svc with flt := { svc.flt with ring := [recA, { recA with seq := 10, ack := true }], nextSeq := 11, jobs := [testA], nextJob := 2 } } }
/-! DRAM. Rank 0 serves the first window, rank 1 the second; rank 2 is the spare. -/
def drmNode (ranks : Nat) (d : DramSt) : Node :=
  let n := (running.node.setHdr drmPage { active := true }).setFld drmPage Fld.drmRankstatState ranks
  let n := (n.setFld drmPage Fld.drmRefreshPostponeMax 8).setFld drmPage Fld.drmCfgRanks 7
  { (n.setFld drmPage Fld.drmCfgSpareEn 1).setFld drmPage Fld.drmCfgSpare 2 with dram := { d with windows := [0, 1] } }
def drmSt (ranks : Nat) (d : DramSt) : State := { node := drmNode ranks d }
def drmA : State := drmSt 0x211 {}
def drmMigrates : State := drmSt 0x713 { migrating := some (0, 2) }
def drmCopied : State := { node := (drmNode 0x713 { migrating := some (0, 2) }).setFld drmPage Fld.drmMigMarkW 0x3FFFFFC }
def drmPostponed : State := drmSt 0x211 { postponed := [8, 0, 0, 0] }
def fullQueue : List (Nat × Nat × Nat) := List.replicate 16 (0, 0, 5)
def drmFull : State := drmSt 0x211 { queue0 := fullQueue, heldActs := [(0, 0, 9), (1, 0, 9)] }
/-- Row 5 of bank 0 is one activate short of the threshold. -/
def drmHot : State :=
  { node := (drmNode 0x211 { tables := [(0, [⟨5, 255⟩])] }).setFld drmPage Fld.drmActThresh 256 }
def drmReread : State := drmSt 0x211 { rereads := [(0, 7, 3)] }
def drmReplay : State := drmSt 0x211 { replaying := some 0 }
def drmTrains : State := { node := ((drmNode 0x211 {}).setHdr drmPage {}).setFld drmPage Fld.drmStatTraining 1 }
/-! Faults and the Sill island. -/
def strappedSt : State := running
def unstrapped : State := { node := { base with boot := { base.boot with strapped := false } } }
def fltQ (f : FltSt) : State := { node := { running.node with flt := f } }
def fltOne : State := fltQ { queue := [recA], nextSeq := 10, lost := true }
def fltFullRing (ack : Bool) : State :=
  fltQ { queue := [recA], nextSeq := 10, ring := List.replicate 255 recA ++ [{ recA with ack := ack }] }
def fatalSt : State := { node := { base with sil := { base.sil with fatal := true } } }
def sillSt (f : SilSt → SilSt) : State := { node := { running.node with sil := f running.node.sil } }
def sillLate : State := { node := { running.node with clk := { running.node.clk with now := 40000000 } } }
def sillOwn : State := sillSt (fun z => { z with ownTime := true })
def sillKeyed (f : SilSt → SilSt) : State := { node := (sillSt f).node.setHdr silPage { keyHolder := some .pcie } }
def sillDog : State := { node := (sillSt (fun z => { z with wdogRunning := true })).node.setFld silPage Fld.silWdogEnable 1 }
def coreSrc : Src := ⟨.core, 0⟩
def leases (h : BitVec 66) : State :=
  { node := ((running.node.setAct hngPage Fld.hngPartnerEid 9).setHdr hngPage { active := true }).setHeldLeases h }
def cold : List Int := List.replicate 8 20
def warm : List Int := [124, 124, 124, 124, 124, 124, 124, 124]
def hot : List Int := [125, 125, 125, 125, 125, 125, 125, 125]
/-! Hinge pairs. The node is paired with node 9, may hold leases 0, 1, 64 and 65, and counts casement 100. -/
def pairNode (held : BitVec 66) (h : HngSt) : Node :=
  let n := (running.node.setAct hngPage Fld.hngPartnerEid 9).setHdr hngPage { active := true }
  let n := ((n.setAct hngPage (Fld.hngEligLease 0) 3).setAct hngPage (Fld.hngEligLease 2) 3).setHeldLeases held
  { n with hng := h, sil := { n.sil with index := 100 } }
def pairSt (held : BitVec 66) (h : HngSt) : State := { node := pairNode held h }
def pairIdle : State := pairSt 0 {}
def pairUp : State := { node := (pairNode 0 {}).setFld hngPage Fld.hngStatPartnerUp 1 }
def pairWire : State := { node := (pairNode 0 { partnerHeld := 1 }).setAct hngPage Fld.hngCfgWireEn 1 }
/-- A frame on the wire with its check byte. -/
def wireFrame (type tseq : Nat) : Word := hingeFrame type tseq
def takesOver : State := pairSt 0 { partnerHeld := 1 }
def fences : State := pairSt (1 <<< 65) { fencing := 1 <<< 65 }
def hasDuty : State := pairSt (3 <<< 64) {}
def claimA : Claim := { casement := 97, leases := 3, priority := 0, eui := 5 }
def claims (t : Option Claim) (msg : Option Nat) : State := pairSt 0 { mine := some claimA, theirs := t, lastMsg := msg }
def resyncs : State := { node := (pairNode 0 { matching := 8 }).setFld hngPage Fld.hngStatResync 1 }
/-! Control, the directory and the configuration. -/
def msg (ok : Bool) (seq : Nat) (k : ControlKind) : ControlMsg := { sender := 40, seq := seq, tagOk := ok, kind := k }
def peer40 (tokens : Nat) : State :=
  { node := { running.node with cfg := { running.node.cfg with
      sessions := [{ peer := 40, highest := 64, seen := [64], tokens := tokens, filledAt := running.node.sillTime }] } } }
def registrar (h : BitVec 66) : State :=
  { node := { (pairNode h {}) with cfg := { running.node.cfg with directory := [(0x400000, 7)] } } }
def refuses : State :=
  { node := { running.node with rt := { running.node.rt with cfg := { tx := [txA], sinks := [{ id := ⟨0, 0⟩, feedKind := 9, feed := 0 }] } } }.setShut
      (Node.sinkShut ⟨0, 0⟩) { present := true, gain := 5 } }
/-- Slot 0 BUSY, with what the CONFIG service needs; a copy A in flash of one byte. -/
def cfgSt (inForce : Bool) (c : ConfigSt) (f : FlashSt) : State :=
  { node := { (slotBusy 0).node with rt := { (slotBusy 0).node.rt with inForce := inForce }, cfg := c, flash := f } }
def cfgIdle : State := cfgSt true {} {}
def cfgNone : State := cfgSt false {} {}
def cfgBusy : State := cfgSt true { jobs := [{ num := 1 }], owner := some 1, nextJob := 2 } {}
def cfgWaits : State := cfgSt true {} { running := some (.erase4k, 0, []) }
def cfgCopyA : State := { node := cfgIdle.node.writeCopy false 7 [1] }
def snapAt : Nat := 0x10002000
def cfgSnapshot : State :=
  { node := cfgIdle.node.wrBytes snapAt
      (Node.leBytes copyMagic.toNat 4 ++ Node.leBytes 0 4 ++ Node.leBytes 1 4 ++ Node.leBytes (crc32c [9]) 4 ++ [9]) }
def cfgSnapBusy : State := { node := { cfgSnapshot.node with cfg := cfgBusy.node.cfg } }
def cfgSnapWaits : State := { node := { cfgSnapshot.node with flash := { cfgSnapshot.node.flash with running := some (.erase4k, 0, []) } } }
def infoOk : SnapshotInfo := {}
/-! Ports. The node is strapped for I²C address 0x0A and serves it. -/
def i2cNode (x : I2cSt) : Node :=
  { running.node with i2c := { x with straps := some 5, nodeServed := true } }
def i2cSt (x : I2cSt) : State := { node := i2cNode x }
/-- KIND 2 at address 0: the boot ROM. -/
def i2cRom : State := i2cSt { bank := 0x80000000, ptrNode := 0xFA }
def attnSt (attempts : Nat) : State :=
  { node := { ((i2cNode { pend := 4, attempts := attempts }).setFld Node.i2cPage Fld.i2cCfgAttnEn 1) with
      flt := { running.node.flt with nextSeq := 0x30A } } }
def busStuck : State := i2cSt { stuck := true }
/-! The PCIe endpoint and the flash: the link up, page QSP held by the PCIe port. -/
def pciNode (z : PciSt) : Node := { running.node.setReg Node.pciPage 0x040 0xD with pci := z }
def pciSt (z : PciSt) : State := { node := pciNode z }
def pciFatal : State := { node := { pciNode {} with sil := { running.node.sil with fatal := true }, clk := {}, mgmt := {} } }
/-- Vector 0 is pointed at the mailbox's interrupt, which stands; told, pending and masked as given. -/
def vectorDue (z : PciSt) : State :=
  { node := (((pciNode z).setReg Node.pciPage 0x048 0 (pageRegion mgtPage * 256 + pageIndex mgtPage)).setReg mgtPage 0x010 1).setReg mgtPage 0x014 1 }
def qspNode (f : FlashSt) : Node :=
  { running.node.setHdr qspPage { keyHolder := some .pcie } with flash := f }
def qspAt (off : Nat) (f : FlashSt) : State := { node := (qspNode f).setFld qspPage Fld.qspAddrAddr off }
def flashRuns (op : FlashOp) : State := qspAt 0 { running := some (op, 0x1000000, if op = .program then [7, 8] else []) }
def qspI2c : State := { node := running.node.setHdr qspPage { keyHolder := some .i2c } }
/-! Power and boot. -/
def atStage (stage : Nat) : Node := running.node.setFld sysPage Fld.sysBootStage stage
def stageSt (stage : Nat) : State := { node := atStage stage }
def porSt : State := { node := { base with sil := { base.sil with por := true }, boot := { base.boot with strapped := false } } }
def railSt (strapped : Bool) : State := { node := { base with boot := { base.boot with strapped := strapped, railOut := true } } }
def unpowered : State := { node := { State.reset.node with sil := { powered := false } } }
/-- A firmware image of 4 bytes with a sequence number. -/
def image (b : Bool) (seq size : Nat) (n : Node) : Node :=
  (n.flashWrite (imageBase b) (Node.leBytes imageMagic.toNat 4 ++ Node.leBytes 3 4 ++ Node.leBytes seq 4 ++ Node.leBytes size 4)).flashWrite
    (imageBase b + 256) [1, 2, 3, 4]
def images (a b : Option Nat) : State :=
  let n := atStage 2
  let n := match a with | some q => image false q 4 n | none => n
  { node := match b with | some q => image true q 4 n | none => n }
def bootJob : Job := { num := 5, state := .admitted }
def bootWaits : State :=
  { node := { (atStage 7) with
      boot := { base.boot with job := some 5, clockWaited := true }, mgmt := { running := true }
      rt := { base.rt with jobs := [bootJob] } } }
/-- Step `k` of the orderly shutdown runs. -/
def shutAt (k : Nat) : State :=
  { node := { (atStage 0xA) with boot := { base.boot with shutdown := k, shutdownJob := 3 }, mgmt := { running := true } } }
def imageRunning : State := { node := (atStage 9).setFld sysPage Fld.sysBootResultA 1 }
/-- Core 0 with a control transfer or a REP under way. -/
def jumpSt (j : Option (Nat × ReedJump)) (m : ReedMode) : State := reedSt (fun r => { r with jump := j, mode := m, runsOver := true })
def repSt (fs : List RepFrame) : State := reedSt (fun r => { r with reps := fs })
/-- Output strip 5 is selected in SHT. -/
def selSite (n : Node) : Node := ((n.setFld shtPage Fld.shtSelKind 3).setFld shtPage Fld.shtSelIndex 5)
/-- A refused job whose DETAIL names no load. -/
def jobNoLoad (detail : Nat) : Job := { num := 5, state := .refused, detail := detail, loads := [(1, 2, 3)] }
/-- Frames that a filter or a check stops. -/
def frameShort : RxFrame := { bytes := [1, 2, 3], wireLen := 64 }
def frameBadFcs : RxFrame := { bytes := [0, 0, 5, 6, 7, 8, 9, 9], wireLen := 64, fcsOk := false }
def frameAudio : RxFrame := { bytes := [0, 0, 5, 6, 7, 8, 9, 9], wireLen := 1500, udpPort := some 0 }
/-- Receive filtering by address alone. -/
def macFilters : State := { node := macOn.node.setFld (macPage 0) Fld.macCfgPromisc 0 }
def reedWaitsX : State :=
  reedSt (fun r => { r with chans := [[], [], [], [xferR]], stall := some (.waitx 8), unconfirmed := [(3, 256, 3), (2, 300, 1)] })
/-- Slot `k` is BUSY and no job, commit or fault stands. -/
def quietSlot (k : Nat) : State := { node := { (slotBusy k).node with mgmt := { running := true } } }
def shutSlot : State := { node := (shutAt 2).node.setFld mgtPage Fld.mgtMbxStatBusy 1 }
def notStrapped : State := { node := { base with boot := { base.boot with strapped := false } } }
def unforced : State := { node := { (quietSlot 1).node with rt := {}, cas := {} } }
def readmitsCopying : State := { node := { readmits.node with xpt := { copying := true, dirty := true } } }

/-! A configuration whose schedule spans two dies: source 3, bus 7 and items 9 and 10 on die 0; source 4, output strip 5 and items
1 and 2 on die 1. -/
def cfgX : Cfg :=
  { rate := 3
    sources := [{ num := 3, kind := 0, origin := 3, die := 0 }, { num := 4, kind := 0, origin := 4, die := 1 }]
    buses := [{ num := 7, die := 0 }]
    xpoints := [{ entry := 5, source := 3, bus := 7 }, { entry := 6, source := 4, bus := 7 }]
    strips := [{ num := 5, inBus := true, input := 7, die := 1 }]
    items := [{ die := 0, slot := 0, item := 9, ins := [3] }, { die := 0, slot := 0, item := 10, xps := [5], buses := [7] },
      { die := 1, slot := 0, item := 1, xps := [6], ins := [4] }, { die := 1, slot := 0, item := 2, outs := [5] }]
    blocks := [⟨0, 0, 3, 0x1000, 0⟩, ⟨0, 1, 3, 0x1100, 0⟩, ⟨0, 2, 7, 0x1200, 0⟩, ⟨1, 0, 4, 0x1000, 0⟩, ⟨1, 1, 4, 0x1100, 0⟩,
      ⟨1, 2, 7, 0x1200, 0⟩, ⟨1, 3, 5, 0x1300, 0⟩]
    psums := [⟨7, 1, 0, 1, 1, 0x2000, 0⟩, ⟨7, 1, 0, 1, 0, 0x2000, 0⟩]
    links := [{ link := 0x48, up := false, blocks := 1, psums := 1 }, { link := 0x48, up := true, blocks := 1 }, { link := 0x4A, up := false, blocks := 2 },
      { link := 0x4A, up := true, psums := 1 }] }
def schedSt (c : CasSt) : State :=
  { node := { running.node with rt := { running.node.rt with cfg := cfgX, inForce := true }, cas := c } }
/-- The work window is open and the input block of item 9 has come. -/
def itemWaits : State := schedSt { windowOpen := true }
def itemReady : State := schedSt { windowOpen := true, arrived := [(0, .input 3)] }
def itemPoisoned : State := { node := itemReady.node.modDie 0 (fun s => { s with poisoned := [0x1000] }) }
def itemOf (f : Engine → Engine) (deadline : Bool) : State :=
  { node := { itemReady.node.modEngine 0 0 (fun e => f { e with item := some 9 }) with
      cas := { itemReady.node.cas with deadlinePassed := deadline } } }
/-- The partial sum of item 1 is formed on die 1. -/
def psumSent : State := schedSt { windowOpen := true, done := [(1, 0, 1)] }
/-- Every item is done. -/
def allDone (unfinished : Bool) : State :=
  schedSt { windowOpen := true, done := [(0, 0, 9), (0, 0, 10), (1, 0, 1), (1, 0, 2)], unfinished := unfinished }
def reedIrqWaits : State :=
  reedSt (fun r => { r with mode := .program, st := 0x100, ipend := 6, imask := 7, stall := some (.waitx 8) })
/-- The configuration in force fits no more. -/
def readmitsHuge : State :=
  { node := { readmits.node with rt := { readmits.node.rt with cfg := { strips := [{ num := 5, inBus := true, input := 7, die := 0 }] } } } }
/-- The directory is full. -/
def registrarFull : State :=
  { node := { (registrar (1 <<< 65)).node with cfg := { running.node.cfg with directory := List.replicate 2097152 (0x400000, 7) } } }
theorem replicate_full (n : Nat) : List.find? (fun e => decide (e.fst = 0x400001)) (List.replicate n ((0x400000, 7) : Nat × Nat)) = none :=
  List.find?_eq_none.2 (fun x hx => by rw [(List.mem_replicate.1 hx).2]; decide)
theorem registrar_full_new :
    List.find? (fun e => decide (e.fst = 0x400001)) registrarFull.node.cfg.directory = none := replicate_full _
theorem registrar_full_length : 2097152 ≤ registrarFull.node.cfg.directory.length :=
  Nat.le_of_eq (List.length_replicate (n := 2097152) (a := ((0x400000, 7) : Nat × Nat))).symm
def opened (s : State) : State := { node := { s.node with cas := { s.node.cas with windowOpen := true } } }
/-- Engine 0 has performed nothing yet of an item that stores a sum of nothing. -/
def storeEngine : Engine := { item := some 9, ops := [.clear, .storeSample 64] }

/-- A destination of three bytes is no address of the port. -/
theorem short_frame_filtered : macFilters.node.addrAccepted 0 frameShort.bytes = false := by
  have h : ∀ hi lo : Nat, [1#8, 2#8, 3#8] ≠ (Node.leBytes hi 2).reverse ++ (Node.leBytes lo 4).reverse := by
    intro hi lo h; simpa [Node.leBytes] using congrArg List.length h
  have hp : macFilters.node.flag (macPage 0) Fld.macCfgPromisc = false := by decide +kernel
  have hh : (macFilters.node.reg (macPage 0) (80 + 4 * (Node.hashBit [1#8, 2#8, 3#8] / 32))).getLsbD (Node.hashBit [1#8, 2#8, 3#8] % 32) = false := by
    decide +kernel
  simp only [Node.addrAccepted, hp]
  simp [frameShort]
  refine ⟨h _ _, ?_⟩
  simpa using hh

/-- The hypotheses of `RefusedRegisterAccess` hold together. -/
theorem witness_RefusedRegisterAccess :
    (let s : State := sBase;
     let p : Page := mtxPage;
     let off : Nat := 0;
     let bytes : Nat := 0;
     s.node.alive = true ∧
       pageValid p = true ∧ s.node.pagePresent p = true ∧ (bytes < 4 ∨ off % 4 ≠ 0 ∨ (s.node.hdr p).resetting =
         true)) ∧
    (let s : State := noDies;
     let p : Page := { block := Block.pen, inst := 0 };
     s.node.alive = true ∧ s.node.pagePresent p = false) := by
  refine ⟨?_, ?_⟩ <;> decide +kernel

/-- The hypotheses of `HeaderRegisterAccess` hold together. -/
theorem witness_HeaderRegisterAccess :
    (let s : State := sBase;
     let p : Page := mtxPage;
     s.node.alive = true ∧
       pageValid p = true ∧
         s.node.pagePresent p = true ∧ (s.node.hdr p).resetting = false ∧ (s.node.hdr p).frozen = none) ∧
    (let s : State := sBase;
     let p : Page := { block := Block.cas, inst := 0 };
     s.node.alive = true ∧
       pageValid p = true ∧ s.node.pagePresent p = true ∧ (s.node.hdr p).resetting = false ∧ blockIrqs p.block ≠ 0) ∧
    (let s : State := sBase;
     let src : Src := pcie;
     let p : Page := { block := Block.cas, inst := 0 };
     let other : Src := i2cSrc;
     s.node.alive = true ∧ pageValid p = true ∧ s.node.pagePresent p = true ∧ (s.node.hdr p).resetting = false ∧
       blockIrqs p.block ≠ 0 ∧ other.port ≠ src.port) ∧
    (let s : State := sBase;
     let p : Page := mtxPage;
     s.node.alive = true ∧ pageValid p = true ∧ s.node.pagePresent p = true ∧ (s.node.hdr p).resetting = false ∧
       (s.node.hdr mtxPage).resetting = false) := by
  refine ⟨?_, ?_, ?_, ?_⟩ <;> decide +kernel

/-- The hypotheses of `MemoryWriteStores` hold together. -/
theorem witness_MemoryWriteStores :
    (let s : State := sBase;
     let a : Nat := 276824063;
     let data : List Byte := [1];
     s.node.alive = true ∧
       data ≠ [] ∧
         let x : Nat := 8388607;
         ∀ (j : Nat), j < data.length → s.node.decode (a + j) = Target.work (x + j)) ∧
    (let s : State := sBase;
     let a : Nat := 1342177280;
     let data : List Byte := [1];
     s.node.alive = true ∧
       data ≠ [] ∧
         let d : Nat := 0;
         let x : Nat := 0;
         (∀ (j : Nat), j < data.length → s.node.decode (a + j) = Target.fen d (x + j)) ∧
           (s.node.die d).steerCopying = false) := by
  refine ⟨?_, ?_⟩ <;> decide +kernel

/-- The hypotheses of `AddressErrors` hold together. -/
theorem witness_AddressErrors :
    (let s : State := sBase;
     let a : Nat := 8388607;
     s.node.alive = true ∧ s.node.decode a = Target.none) ∧
    (let s : State := noDies;
     let a : Nat := 1342177280;
     s.node.alive = true ∧ s.node.decode a = Target.absent) ∧
    (let s : State := poisonedDram;
     let a : Nat := 0;
     s.node.alive = true ∧ a / 64 ∈ s.node.dram.poisoned) := by
  refine ⟨?_, ?_, ?_⟩ <;> decide +kernel

/-- The hypotheses of `MatrixGrants` hold together. -/
theorem witness_MatrixGrants :
    (let s : State := sBase;
     let r : MatrixReq := reqA;
     s.node.alive = true ∧
       s.node.mtx.outstanding = [] ∧ s.node.mtx.held = [] ∧ ¬(r.master = 8 ∧ r.outbound = true) ∧ r.bridge = none) ∧
    (let s : State := sBase;
     let r : MatrixReq := reqPcie;
     s.node.alive = true ∧
       s.node.mtx.outstanding = [] ∧ s.node.mtx.held = [] ∧ r.master = 8 ∧ r.outbound = true ∧ r.bridge = none) ∧
    (let s : State := heldReq;
     let r : MatrixReq := reqA;
     s.node.alive = true ∧ s.node.mtx.outstanding = [] ∧ s.node.mtx.held = [r] ∧ ¬(r.master = 8 ∧ r.outbound = true)) ∧
    (let s : State := sBase;
     let r : MatrixReq := reqA;
     let q : MatrixReq := reqB;
     s.node.alive = true ∧ s.node.mtx.outstanding = [] ∧ (s.node.mtx.held = [] ∧ r.master < 4 ∧ 9 ≤ q.master ∧
       q.target = r.target ∧ r.bridge = none ∧ q.bridge = none) ∧ q.arrive ≤ r.arrive) ∧
    (let s : State := sBase;
     let r : MatrixReq := reqA;
     let q : MatrixReq := { reqB with arrive := 3 };
     s.node.alive = true ∧ s.node.mtx.outstanding = [] ∧ (s.node.mtx.held = [] ∧ r.master < 4 ∧ 9 ≤ q.master ∧
       q.target = r.target ∧ r.bridge = none ∧ q.bridge = none) ∧ r.arrive < q.arrive) := by
  refine ⟨?_, ?_, ?_, ?_, ?_⟩ <;> decide +kernel

/-- The hypotheses of `PageEnableStates` hold together. -/
theorem witness_PageEnableStates :
    (let s : State := sBase;
     let p : Page := strPage;
     s.node.alive = true ∧
       pageValid p = true ∧
         s.node.pagePresent p = true ∧
           (s.node.hdr p).resetting = false ∧
             enableActs p = true ∧ (s.node.hdr p).active = false ∧ (s.node.hdr p).busy = false) ∧
    (let s : State := hBusy strPage;
     let p : Page := strPage;
     s.node.alive = true ∧
       pageValid p = true ∧
         s.node.pagePresent p = true ∧
           (s.node.hdr p).resetting = false ∧ enableActs p = true ∧ (s.node.hdr p).busy = true) ∧
    (let s : State := hActive strPage;
     let p : Page := strPage;
     s.node.alive = true ∧
       pageValid p = true ∧
         s.node.pagePresent p = true ∧
           (s.node.hdr p).resetting = false ∧
             enableActs p = true ∧
               (s.node.hdr p).active = true ∧
                 (s.node.hdr p).busy = false ∧ (p.block = Block.str ∨ p.block = Block.mac ∨ p.block = Block.drm)) ∧
    (let s : State := sBase;
     let p : Page := mtxPage;
     s.node.alive = true ∧ pageValid p = true ∧ s.node.pagePresent p = true ∧ (s.node.hdr p).resetting = false ∧
       enableActs p = true ∧ ((s.node.hdr p).busy = false ∧
       (p.block = Block.rail ∨ p.block = Block.mtx ∨ p.block = Block.mgt))) := by
  refine ⟨?_, ?_, ?_, ?_⟩ <;> decide +kernel

/-- The hypotheses of `ShutdownAndSoftReset` hold together. -/
theorem witness_ShutdownAndSoftReset :
    (let s : State := hBusy strPage;
     let p : Page := strPage;
     let h : Hdr := s.node.hdr p;
     s.node.alive = true ∧ pageValid p = true ∧ s.node.pagePresent p = true ∧ h.busy = true ∧ p ≠ Node.casPage ∧
       s.node.stopped p = true ∧ h.resetting = false ∧ h.pending = false) ∧
    (let s : State := hPend strPage;
     let p : Page := strPage;
     let h : Hdr := s.node.hdr p;
     s.node.alive = true ∧ pageValid p = true ∧ s.node.pagePresent p = true ∧ h.busy = true ∧ p ≠ Node.casPage ∧
       s.node.stopped p = true ∧ h.resetting = false ∧ h.pending = true) ∧
    (let s : State := hdrSt strPage { busy := true, active := true, resetting := true };
     let p : Page := strPage;
     let h : Hdr := s.node.hdr p;
     s.node.alive = true ∧ pageValid p = true ∧ s.node.pagePresent p = true ∧ h.busy = true ∧ p ≠ Node.casPage ∧
       s.node.stopped p = true ∧ h.resetting = true) ∧
    (let s : State := sBase;
     let p : Page := strPage;
     let h : Hdr := s.node.hdr p;
     s.node.alive = true ∧ pageValid p = true ∧ s.node.pagePresent p = true ∧
       (h.busy = false ∨ p = Node.casPage ∨ s.node.stopped p = false)) ∧
    (let s : State := sBase;
     let p : Page := strPage;
     let h : Hdr := s.node.hdr p;
     s.node.alive = true ∧ pageValid p = true ∧ s.node.pagePresent p = true ∧ h.resetting = false ∧
       h.active = false ∧ h.busy = false) ∧
    (let s : State := hActive mtxPage;
     let p : Page := mtxPage;
     let h : Hdr := s.node.hdr p;
     s.node.alive = true ∧ pageValid p = true ∧ s.node.pagePresent p = true ∧ h.resetting = false ∧ h.active = true ∧
       h.busy = false ∧ (p.block = Block.rail ∨ p.block = Block.mtx ∨ p.block = Block.mgt)) ∧
    (let s : State := hActive strPage;
     let p : Page := strPage;
     let h : Hdr := s.node.hdr p;
     s.node.alive = true ∧ pageValid p = true ∧ s.node.pagePresent p = true ∧ h.resetting = false ∧ h.active = true ∧
       h.busy = false ∧ (p.block = Block.str ∨ p.block = Block.mac ∨ p.block = Block.drm)) := by
  refine ⟨?_, ?_, ?_, ?_, ?_, ?_, ?_⟩ <;> decide +kernel

/-- The hypotheses of `FreezeAndCommitRequests` hold together. -/
theorem witness_FreezeAndCommitRequests :
    (let s : State := sBase;
     let p : Page := strPage;
     s.node.alive = true ∧ pageValid p = true ∧ s.node.pagePresent p = true ∧ (s.node.hdr p).resetting = false ∧
       (s.node.hdr p).frozen = none) ∧
    (let s : State := { node := sBase.node.modHdr strPage (fun h => { h with frozen := some [] }) };
     let p : Page := strPage;
     s.node.alive = true ∧ pageValid p = true ∧ s.node.pagePresent p = true ∧ (s.node.hdr p).resetting = false ∧
       (s.node.hdr p).frozen ≠ none) ∧
    (let s : State := running;
     let p : Page := strPage;
     s.node.alive = true ∧ pageValid p = true ∧ s.node.pagePresent p = true ∧ (s.node.hdr p).resetting = false ∧
       s.node.running = true ∧ p ≠ Node.casPage) ∧
    (let s : State := running;
     s.node.alive = true ∧ s.node.running = true ∧ (s.node.hdr Node.casPage).resetting = false) ∧
    (let s : State := { node := running.node.modHdr strPage (fun h => { h with commitReq := true }) };
     s.node.alive = true ∧ s.node.running = true ∧ s.node.stagedJob = none ∧ s.node.cas.groupReq = false ∧
       strPage ∈ allPages ∧ (s.node.hdr strPage).commitReq = true) ∧
    (let s : State := { node := { running.node with cas := { running.node.cas with groupReq := true } } };
     s.node.alive = true ∧ s.node.running = true ∧ s.node.stagedJob = none ∧ s.node.cas.groupReq = true ∧
       Node.casPage ∈ s.node.groupPages) ∧
    (let s : State := sBase; s.node.alive = true ∧ s.node.running = false) := by
  refine ⟨?_, ?_, ?_, ?_, ?_, ?_, ?_⟩ <;> decide +kernel

/-- The hypotheses of `PageKeys` hold together. -/
theorem witness_PageKeys :
    (let s : State := sBase;
     let src : Src := pcie;
     let p : Page := strPage;
     s.node.alive = true ∧
       pageValid p = true ∧
         s.node.pagePresent p = true ∧
           (s.node.hdr p).resetting = false ∧
             ((s.node.hdr p).keyHolder = none ∨ (s.node.hdr p).keyHolder = some src.port) ∧
               ¬src.port ∈ (s.node.hdr p).keyArmed) ∧
    (let s : State := armed strPage;
     let src : Src := pcie;
     let p : Page := strPage;
     s.node.alive = true ∧
       pageValid p = true ∧
         s.node.pagePresent p = true ∧
           (s.node.hdr p).resetting = false ∧
             ((s.node.hdr p).keyHolder = none ∨ (s.node.hdr p).keyHolder = some src.port) ∧
               src.port ∈ (s.node.hdr p).keyArmed) ∧
    (let s : State := keyed strPage;
     let src : Src := pcie;
     let p : Page := strPage;
     s.node.alive = true ∧
       pageValid p = true ∧
         s.node.pagePresent p = true ∧
           (s.node.hdr p).resetting = false ∧
             let code : Byte := 0;
             code ≠ 165 ∧ code ≠ 90 ∧ (s.node.hdr p).keyHolder = some src.port) ∧
    (let s : State := keyed strPage;
     let src : Src := i2cSrc;
     let p : Page := strPage;
     s.node.alive = true ∧
       pageValid p = true ∧
         s.node.pagePresent p = true ∧
           (s.node.hdr p).resetting = false ∧
             let q : Port := Port.pcie;
             (s.node.hdr p).keyHolder = some q ∧ q ≠ src.port) := by
  refine ⟨?_, ?_, ?_, ?_⟩ <;> decide +kernel

/-- The hypotheses of `CasementBoundaryAdvances` hold together. -/
theorem witness_CasementBoundaryAdvances :
    (let s : State := running;
     s.node.alive = true ∧ s.node.running = true ∧ s.node.clk.now ≤ s.node.nextBoundary) := by
  decide +kernel

/-- The hypotheses of `ReindexSequence` hold together. -/
theorem witness_ReindexSequence :
    (let s : State := running;
     let src : Src := pcie;
     Reachable s Node.casPage ∧
       ¬src.port ∈ (s.node.hdr Node.casPage).keyArmed ∧ (s.node.hdr Node.casPage).keyHolder ≠ some src.port) ∧
    (let s : State := fading;
     s.node.alive = true ∧ s.node.running = true ∧ s.node.cas.reindex = Reindex.fading ∧ NoCommitWaits s.node) ∧
    (let s : State := reindexStopped;
     s.node.alive = true ∧
       s.node.cas.reindex = Reindex.stopped ∧ s.node.cas.awaiting = false ∧ s.node.cas.newRate = none) ∧
    (let s : State := keyed Node.casPage;
     let src : Src := pcie;
     Reachable s Node.casPage ∧
       ¬src.port ∈ (s.node.hdr Node.casPage).keyArmed ∧
         (s.node.hdr Node.casPage).keyHolder = some src.port ∧ s.node.cas.reindex = Reindex.idle) ∧
    (let s : State := keyedFading;
     let src : Src := pcie;
     Reachable s Node.casPage ∧
       ¬src.port ∈ (s.node.hdr Node.casPage).keyArmed ∧
         (s.node.hdr Node.casPage).keyHolder = some src.port ∧ s.node.cas.reindex ≠ Reindex.idle) := by
  delta Reachable NoCommitWaits; refine ⟨?_, ?_, ?_, ?_, ?_⟩ <;> decide +kernel

/-- The hypotheses of `RateReadmission` hold together. -/
theorem witness_RateReadmission :
    (let s : State := awaitStopped;
     let r : Nat := 2;
     s.node.alive = true ∧
       s.node.cas.newRate = some r ∧
         s.node.cas.awaiting = true ∧
           s.node.mgmt.running = true ∧
             s.node.cas.reindex = Reindex.stopped ∧
               (s.node.admission none
                     ({ s.node.rt.cfg with rate := r })).refusal =
                 none) ∧
    (let s : State := awaitRefused;
     let r : Nat := 2;
     s.node.alive = true ∧
       s.node.cas.newRate = some r ∧
         s.node.cas.awaiting = true ∧
           s.node.mgmt.running = true ∧
             s.node.cas.reindex = Reindex.stopped ∧
               let d : Nat :=
                 (awaitRefused.node.admission none
                         ({ awaitRefused.node.rt.cfg with rate := 2 })).refusal.getD
                   0;
               (s.node.admission none
                     ({ s.node.rt.cfg with rate := r })).refusal =
                 some d) ∧
    (let s : State := awaitIdle;
     let r : Nat := 2;
     s.node.alive = true ∧
       s.node.cas.newRate = some r ∧
         s.node.cas.awaiting = true ∧
           s.node.mgmt.running = true ∧
             s.node.cas.reindex = Reindex.idle ∧
               s.node.running = false ∧
                 s.node.cas.again = false ∧
                   (s.node.admission none
                           ({ s.node.rt.cfg with rate := r })).refusal =
                       none ∧
                     r < 6) ∧
    (let s : State := { node := { awaitStopped.node with rt := { awaitStopped.node.rt with inForce := true, cfg := cfgHeavy } } };
     let r : Nat := 2;
     let cfg : Cfg := { s.node.rt.cfg with rate := r };
     s.node.alive = true ∧ s.node.cas.newRate = some r ∧ s.node.cas.awaiting = true ∧ s.node.mgmt.running = true ∧
       s.node.cas.reindex = Reindex.stopped ∧ (s.node.admission none cfg).refusal = none ∧ (oversizeItem cfg).isSome = true) := by
  refine ⟨?_, ?_, ?_, ?_⟩ <;> decide +kernel

/-- The hypotheses of `GenerationStopAndLatchedReads` hold together. -/
theorem witness_GenerationStopAndLatchedReads :
    (let s : State := running;
     s.node.alive = true ∧ (s.node.hdr Node.casPage).frozen = none) ∧
    (let s : State := running;
     s.node.alive = true ∧ (s.node.hdr xptPage).frozen = none) ∧
    (let s : State := running;
     s.node.alive = true ∧ (s.node.hdr shtPage).frozen = none) ∧
    (let s : State := casStops;
     s.node.alive = true ∧
       (s.node.hdr Node.casPage).busy = true ∧
         (s.node.hdr Node.casPage).resetting = false ∧
           (s.node.hdr Node.casPage).pending = false ∧ s.node.running = true ∧ NoCommitWaits s.node) := by
  delta NoCommitWaits; refine ⟨?_, ?_, ?_, ?_⟩ <;> decide +kernel

/-- The hypotheses of `WorkItemsWriteBack` hold together. -/
theorem witness_WorkItemsWriteBack :
    (let s : State := itemReady;
     let d : Die := 0;
     let slot : Fin 8 := 0;
     let k : Nat := 0;
     let item : Nat := 9;
     let e : Engine := s.node.engine (↑d) k;
     let x : Sched := ⟨9, cfgX, { die := 0, slot := 0, item := 9, ins := [3] }, false⟩;
     let r : ItemRun := s.node.runItem (↑d) (s.node.itemOps x);
     s.node.alive = true ∧ (s.node.die ↑d).engines.length = 9 ∧ s.node.engineOf ↑d ↑slot = some k ∧
       s.node.nextItem ↑d ↑slot = some x ∧ s.node.cas.windowOpen = true ∧ x.num = item ∧ s.node.firstUnmet x = none ∧
       e.item = none ∧ s.node.running = true ∧ s.node.cas.deadlinePassed = false ∧
       s.node.rt.lostSlots.contains (↑d * 8 + ↑slot) = false ∧ s.node.boot.engPresent.getLsbD ↑d = true ∧
       e.inject = 0 ∧ r.poisoned = false) ∧
    (let s : State := itemPoisoned;
     let d : Die := 0;
     let slot : Fin 8 := 0;
     let k : Nat := 0;
     let item : Nat := 9;
     let e : Engine := s.node.engine (↑d) k;
     let x : Sched := ⟨9, cfgX, { die := 0, slot := 0, item := 9, ins := [3] }, false⟩;
     let r : ItemRun := s.node.runItem (↑d) (s.node.itemOps x);
     s.node.alive = true ∧ (s.node.die ↑d).engines.length = 9 ∧ s.node.engineOf ↑d ↑slot = some k ∧
       s.node.nextItem ↑d ↑slot = some x ∧ s.node.cas.windowOpen = true ∧ x.num = item ∧ s.node.firstUnmet x = none ∧
       e.item = none ∧ s.node.running = true ∧ s.node.cas.deadlinePassed = false ∧
       s.node.rt.lostSlots.contains (↑d * 8 + ↑slot) = false ∧ s.node.boot.engPresent.getLsbD ↑d = true ∧
       e.inject = 0 ∧ r.poisoned = true) ∧
    (let s : State := itemWaits;
     let d : Die := 0;
     let slot : Fin 8 := 0;
     let k : Nat := 0;
     let item : Nat := 9;
     let x : Sched := ⟨9, cfgX, { die := 0, slot := 0, item := 9, ins := [3] }, false⟩;
     s.node.alive = true ∧ (s.node.die ↑d).engines.length = 9 ∧ s.node.engineOf ↑d ↑slot = some k ∧
       s.node.nextItem ↑d ↑slot = some x ∧ s.node.cas.windowOpen = true ∧ (x.num ≠ item ∨ s.node.firstUnmet x ≠ none)) ∧
    (let s : State := running;
     let d : Die := 0;
     let slot : Fin 8 := 0;
     let k : Nat := 0;
     s.node.alive = true ∧ (s.node.die ↑d).engines.length = 9 ∧ s.node.engineOf ↑d ↑slot = some k ∧
       s.node.cas.windowOpen = false) ∧
    (let s : State := itemOf id false;
     let d : Die := 0;
     let slot : Fin 8 := 0;
     let k : Nat := 0;
     let item : Nat := 9;
     let e : Engine := s.node.engine (↑d) k;
     s.node.alive = true ∧ (s.node.die ↑d).engines.length = 9 ∧ s.node.engineOf ↑d ↑slot = some k ∧
       e.item = some item ∧ (s.node.die ↑d).steerCopying = false ∧ e.late = false ∧ s.node.cas.deadlinePassed = false) ∧
    (let s : State := itemOf id true;
     let d : Die := 0;
     let slot : Fin 8 := 0;
     let k : Nat := 0;
     let item : Nat := 9;
     let e : Engine := s.node.engine (↑d) k;
     s.node.alive = true ∧ (s.node.die ↑d).engines.length = 9 ∧ s.node.engineOf ↑d ↑slot = some k ∧
       e.item = some item ∧ (s.node.die ↑d).steerCopying = false ∧ (e.late = true ∨ s.node.cas.deadlinePassed = true)) ∧
    (let s : State := itemOf (fun e => { e with late := true }) true;
     let d : Die := 0;
     let slot : Fin 8 := 0;
     let k : Nat := 0;
     let item : Nat := 9;
     let e : Engine := s.node.engine (↑d) k;
     s.node.alive = true ∧ (s.node.die ↑d).engines.length = 9 ∧ s.node.engineOf ↑d ↑slot = some k ∧
       e.item = some item ∧ e.late = true) := by
  refine ⟨
    ⟨by decide +kernel, by decide +kernel, by decide +kernel, rfl, by decide +kernel, by decide +kernel,
    ⟨by decide +kernel, by decide +kernel, by decide +kernel, by decide +kernel, by decide +kernel, by decide +kernel,
    ⟨by decide +kernel, by decide +kernel⟩⟩⟩,
    ⟨by decide +kernel, by decide +kernel, by decide +kernel, rfl, by decide +kernel, by decide +kernel,
    ⟨by decide +kernel, by decide +kernel, by decide +kernel, by decide +kernel, by decide +kernel, by decide +kernel,
    ⟨by decide +kernel, by decide +kernel⟩⟩⟩,
    ⟨by decide +kernel, by decide +kernel, by decide +kernel, rfl, by decide +kernel, by decide +kernel⟩, ?_, ?_, ?_,
    ?_⟩ <;> decide +kernel

/-- The hypotheses of `LintelTransferArrives` hold together. -/
theorem witness_LintelTransferArrives :
    (let s : State := itemWaits;
     let d : Die := 0;
     let l : Fin 2 := 0;
     let what : Lintel := .input 3;
     let usable : Prop := s.node.running = true ∧ s.node.rt.inForce = true ∧ (s.node.link ↑d ↑l).down = false ∧
       (s.node.link ↑d ↑l).training = false ∧ s.node.transferLink d what = l.val ∧ s.node.transferReady what = true ∧ ¬(↑d, what) ∈ s.node.cas.arrived;
     let off : Nat := 0x1000;
     let data : List Byte := ((itemWaits.node.transferData 0 (.input 3)).getD (0, [])).2;
     s.node.alive = true ∧ usable ∧ (s.node.die ↑d).steerCopying = false ∧
       s.node.transferData (↑d) what = some (off, data) ∧ (∀ (b src sl it : Nat), what ≠ Lintel.psum b src sl it)) ∧
    (let s : State := psumSent;
     let d : Die := 0;
     let l : Fin 2 := 0;
     let what : Lintel := .psum 7 1 0 1;
     let flaw : Option (Nat × Nat) := none;
     let usable : Prop := s.node.running = true ∧ s.node.rt.inForce = true ∧ (s.node.link ↑d ↑l).down = false ∧
       (s.node.link ↑d ↑l).training = false ∧ s.node.transferLink d what = l.val ∧ s.node.transferReady what = true ∧ ¬(↑d, what) ∈ s.node.cas.arrived;
     let off : Nat := 0x2000;
     let data : List Byte := ((psumSent.node.transferData 0 (.psum 7 1 0 1)).getD (0, [])).2;
     let b : Nat := 7;
     let src : Nat := 1;
     let sl : Nat := 0;
     let it : Nat := 1;
     s.node.alive = true ∧ usable ∧ (s.node.die ↑d).steerCopying = false ∧
       s.node.transferData (↑d) what = some (off, data) ∧ what = Lintel.psum b src sl it ∧
       psumOk (flawed data flaw) = true) ∧
    (let s : State := psumSent;
     let d : Die := 0;
     let l : Fin 2 := 0;
     let what : Lintel := .psum 7 1 0 1;
     let flaw : Option (Nat × Nat) := some (0, 1);
     let usable : Prop := s.node.running = true ∧ s.node.rt.inForce = true ∧ (s.node.link ↑d ↑l).down = false ∧
       (s.node.link ↑d ↑l).training = false ∧ s.node.transferLink d what = l.val ∧ s.node.transferReady what = true ∧ ¬(↑d, what) ∈ s.node.cas.arrived;
     let off : Nat := 0x2000;
     let data : List Byte := ((psumSent.node.transferData 0 (.psum 7 1 0 1)).getD (0, [])).2;
     let b : Nat := 7;
     let src : Nat := 1;
     let sl : Nat := 0;
     let it : Nat := 1;
     s.node.alive = true ∧ usable ∧ (s.node.die ↑d).steerCopying = false ∧
       s.node.transferData (↑d) what = some (off, data) ∧ what = Lintel.psum b src sl it ∧
       psumOk (flawed data flaw) = false) ∧
    (let s : State := sBase;
     let d : Die := 0;
     let l : Fin 2 := 0;
     let what : Lintel := .input 3;
     let usable : Prop := s.node.running = true ∧ s.node.rt.inForce = true ∧ (s.node.link ↑d ↑l).down = false ∧
       (s.node.link ↑d ↑l).training = false ∧ s.node.transferLink d what = l.val ∧ s.node.transferReady what = true ∧ ¬(↑d, what) ∈ s.node.cas.arrived;
     s.node.alive = true ∧ ¬usable) := by
  refine ⟨
    ⟨by decide +kernel, by decide +kernel, by decide +kernel, by decide +kernel,
      by intro b src sl it h; cases (show Lintel.input 3 = _ from h)⟩,
    ?_, ?_, ?_⟩ <;> decide +kernel

/-- The hypotheses of `WorkDeadlineJudged` hold together. -/
theorem witness_WorkDeadlineJudged :
    (let s : State := itemOf id true;
     s.node.alive = true ∧ s.node.running = true ∧ s.node.cas.windowOpen = true ∧ s.node.cas.deadlinePassed = true) ∧
    (let s : State := allDone false;
     let us : List Unfinished := s.node.unfinishedItems;
     s.node.alive = true ∧ s.node.running = true ∧ s.node.cas.windowOpen = true ∧ s.node.cas.deadlinePassed = false ∧
       s.node.rt.cfg.reeds = [] ∧ (∀ (c : CoreId), (s.node.reed c).mode = ReedMode.idle ∧
       (s.node.reed c).interrupted = false) ∧ us = []) ∧
    (let s : State := itemWaits;
     let us : List Unfinished := s.node.unfinishedItems;
     let u : Unfinished := { die := 0, unit := 0, item := 9, late := true };
     let rest : List Unfinished := itemWaits.node.unfinishedItems.tail;
     s.node.alive = true ∧ s.node.running = true ∧ s.node.cas.windowOpen = true ∧ s.node.cas.deadlinePassed = false ∧
       s.node.rt.cfg.reeds = [] ∧ (∀ (c : CoreId), (s.node.reed c).mode = ReedMode.idle ∧
       (s.node.reed c).interrupted = false) ∧ us = u :: rest ∧ s.node.cas.unfinished = false) ∧
    (let s : State := allDone true;
     s.node.alive = true ∧ s.node.running = true ∧ s.node.cas.windowOpen = true ∧ s.node.cas.deadlinePassed = false ∧
       s.node.rt.cfg.reeds = [] ∧ (∀ (c : CoreId), (s.node.reed c).mode = ReedMode.idle ∧
       (s.node.reed c).interrupted = false) ∧ s.node.cas.unfinished = true) := by
  have h (s : State) (hs : s.node.reeds = []) (c : CoreId) :
      (s.node.reed c).mode = .idle ∧ (s.node.reed c).interrupted = false := by
    unfold Node.reed
    rw [hs]
    exact ⟨rfl, rfl⟩
  refine ⟨?_,
    ⟨by decide +kernel, by decide +kernel, by decide +kernel, by decide +kernel, by decide +kernel,
      h _ (by decide +kernel), by decide +kernel⟩,
    ⟨by decide +kernel, by decide +kernel, by decide +kernel, by decide +kernel, by decide +kernel,
      h _ (by decide +kernel), by decide +kernel, by decide +kernel⟩,
    ⟨by decide +kernel, by decide +kernel, by decide +kernel, by decide +kernel, by decide +kernel,
      h _ (by decide +kernel), by decide +kernel⟩⟩
  decide +kernel

/-- The hypotheses of `ResidueMismatchAndTests` hold together. -/
theorem witness_ResidueMismatchAndTests :
    (let r : ItemRun := { flaw := some (0, 1, 1) };
     let v : Int := 5;
     let err : Int := 1;
     satInt 72 v = v ∧ r.flaw = some (r.checks, 1, err)) ∧
    (let r : ItemRun := { flaw := some (0, 2, 3) };
     let v : Int := -5;
     let err : Int := 3;
     satInt 32 v = v ∧ r.flaw = some (r.checks, 2, err)) ∧
    (let s : State := runs storeEngine;
     let d : Die := 0;
     let slot : Fin 8 := 0;
     let k : Nat := 0;
     let item : Nat := 9;
     let stage : Fin 4 := 2;
     let op : Nat := 0;
     let err : Int := 3;
     let e : Engine := s.node.engine (↑d) k;
     let r : ItemRun := List.foldl (fun r op => s.node.runOp (↑d) r op) { e.ran with flaw := some (op, ↑stage, err) } (List.drop e.past e.ops);
     s.node.alive = true ∧ (s.node.die ↑d).engines.length = 9 ∧ s.node.engineOf ↑d ↑slot = some k ∧
       (s.node.engine (↑d) k).item = some item ∧ r.agree = true) ∧
    (let s : State := runs storeEngine;
     let d : Die := 0;
     let slot : Fin 8 := 0;
     let k : Nat := 0;
     let item : Nat := 9;
     let stage : Fin 4 := 2;
     let op : Nat := 0;
     let err : Int := 1;
     let e : Engine := s.node.engine (↑d) k;
     let r : ItemRun := List.foldl (fun r op => s.node.runOp (↑d) r op) { e.ran with flaw := some (op, ↑stage, err) } (List.drop e.past e.ops);
     s.node.alive = true ∧ (s.node.die ↑d).engines.length = 9 ∧ s.node.engineOf ↑d ↑slot = some k ∧
       (s.node.engine (↑d) k).item = some item ∧ r.agree = false ∧ e.suspect = false ∧
       (s.node.runItem (↑d) e.ops).poisoned = false) ∧
    (let s : State := runs { storeEngine with suspect := true };
     let d : Die := 0;
     let slot : Fin 8 := 0;
     let k : Nat := 0;
     let item : Nat := 9;
     let stage : Fin 4 := 2;
     let op : Nat := 0;
     let err : Int := 1;
     let e : Engine := s.node.engine (↑d) k;
     let r : ItemRun := List.foldl (fun r op => s.node.runOp (↑d) r op) { e.ran with flaw := some (op, ↑stage, err) } (List.drop e.past e.ops);
     s.node.alive = true ∧ (s.node.die ↑d).engines.length = 9 ∧ s.node.engineOf ↑d ↑slot = some k ∧
       (s.node.engine (↑d) k).item = some item ∧ r.agree = false ∧ e.suspect = true) := by
  refine ⟨?_, ?_, ?_, ?_, ?_⟩ <;> decide +kernel

/-- The hypotheses of `EngineTestsAndSpare` hold together. -/
theorem witness_EngineTestsAndSpare :
    (let s : State := running;
     let d : Die := 0;
     s.node.alive = true ∧
       (s.node.die ↑d).engines.length = 9 ∧
         let e : Fin 9 := 0;
         (s.node.engine ↑d ↑e).state = EngineState.active ∨ (s.node.engine ↑d ↑e).state = EngineState.standingIn) ∧
    (let s : State := running;
     let d : Die := 0;
     s.node.alive = true ∧
       (s.node.die ↑d).engines.length = 9 ∧
         let e : Fin 9 := 8;
         (s.node.engine ↑d ↑e).state = EngineState.spare ∨ (s.node.engine ↑d ↑e).state = EngineState.retired) ∧
    (let s : State := running;
     let d : Die := 0;
     s.node.alive = true ∧
       (s.node.die ↑d).engines.length = 9 ∧
         (s.node.engine (↑d) 8).state = EngineState.spare ∧ (s.node.die ↑d).spareFor = none) ∧
    (let s : State := running;
     let d : Die := 0;
     s.node.alive = true ∧
       (s.node.die ↑d).engines.length = 9 ∧
         let src : Src := pcie;
         Reachable s (penPage ↑d) ∧
           ¬src.port ∈ (s.node.hdr (penPage ↑d)).keyArmed ∧ (s.node.hdr (penPage ↑d)).keyHolder ≠ some src.port) ∧
    (let s : State := spareReady;
     let d : Die := 0;
     s.node.alive = true ∧
       (s.node.die ↑d).engines.length = 9 ∧
         let x : Nat := 3;
         (s.node.die ↑d).spareFor = some x ∧ (s.node.engine (↑d) 8).state = EngineState.spare) ∧
    (let s : State := keyed (penPage 0);
     let d : Die := 0;
     s.node.alive = true ∧
       (s.node.die ↑d).engines.length = 9 ∧
         let src : Src := pcie;
         Reachable s (penPage ↑d) ∧
           ¬src.port ∈ (s.node.hdr (penPage ↑d)).keyArmed ∧
             let e : BitVec 4 := 8;
             let c : BitVec 2 := 1;
             (s.node.hdr (penPage ↑d)).keyHolder = some src.port ∧ e.toNat < 9 ∧ (c.toNat = 1 ∨ c.toNat = 2)) ∧
    (let s : State := retired3 .spare id;
     let d : Die := 0;
     let e : Fin 9 := 3;
     s.node.alive = true ∧ (s.node.die ↑d).engines.length = 9 ∧
       ((s.node.engine ↑d ↑e).state = EngineState.retired ∨ (s.node.engine ↑d ↑e).state = EngineState.spare ∧
       (s.node.die ↑d).spareFor ≠ none)) ∧
    (let s : State := running;
     let d : Die := 0;
     let e : Fin 9 := 8;
     s.node.alive = true ∧ (s.node.die ↑d).engines.length = 9 ∧ e = 8 ∧
       (s.node.engine ↑d ↑e).state = EngineState.spare ∧ (s.node.die ↑d).spareFor = none) ∧
    (let s : State := { node := { running.node with cas := { running.node.cas with recomputed := [(0, 8)] } } };
     let d : Die := 0;
     let e : Fin 9 := 8;
     s.node.alive = true ∧ (s.node.die d).engines.length = 9 ∧ s.node.running = true ∧ (d.val, e.val) ∈ s.node.cas.recomputed) ∧
    (let s : State := { node := { running.node with cas := { running.node.cas with recomputed := [(0, 8)] } } };
     let d : Die := 0;
     let e : Fin 9 := 7;
     s.node.alive = true ∧ (s.node.die d).engines.length = 9 ∧ (s.node.running = false ∨ (d.val, e.val) ∉ s.node.cas.recomputed) ∧
       (s.node.engine d e).state = .active) := by
  delta Reachable; refine ⟨?_, ?_, ?_, ?_, ?_, ?_,
    ⟨?_, ?_, ?_, ?_⟩⟩ <;> decide +kernel

/-- The hypotheses of `FenErrors` hold together. -/
theorem witness_FenErrors :
    (let s : State := running;
     let d : Die := 0;
     s.node.alive = true ∧
       let off : Nat := 0;
       off / 524288 < 24 ∧ s.node.boot.engPresent.getLsbD ↑d = true) ∧
    (let s : State := running;
     let d : Die := 0;
     s.node.alive = true ∧
       let bank : Fin 24 := Fin.ofNat (23 + 1) 0;
       (s.node.die ↑d).retiredBanks.getLsbD ↑bank = false) ∧
    (let s : State := fenPoisoned;
     let d : Die := 0;
     s.node.alive = true ∧
       let off : Nat := 8;
       s.node.mgmt.running = true ∧
         (s.node.die ↑d).steerCopying = false ∧ (s.node.die ↑d).poisoned.contains (off / 8 * 8) = true) := by
  refine ⟨?_, ?_, ?_⟩ <;> decide +kernel

/-- The hypotheses of `LintelLinkErrors` hold together. -/
theorem witness_LintelLinkErrors :
    (let s : State := sBase;
     let node : Fin 7 := 0;
     s.node.alive = true ∧
       (s.node.die ↑node).links.length = 2 ∧
         let bad : Word := 1;
         bad ≠ 0) ∧
    (let s : State := linkBad 0;
     let node : Fin 7 := 0;
     let l : Fin 2 := 0;
     s.node.alive = true ∧
       (s.node.die ↑node).links.length = 2 ∧
         (s.node.link ↑node ↑l).training = true ∧ (s.node.link ↑node ↑l).lanes = 0) ∧
    (let s : State := linkBad 1;
     let node : Fin 7 := 0;
     let l : Fin 2 := 0;
     s.node.alive = true ∧
       (s.node.die ↑node).links.length = 2 ∧
         (s.node.link ↑node ↑l).training = true ∧
           (BitVec.toNat (s.node.link ↑node ↑l).lanes % 65536 ≠ 0) ≠
             (BitVec.toNat (s.node.link ↑node ↑l).lanes / 65536 ≠ 0)) ∧
    (let s : State := linkBad 2147483649;
     let node : Fin 7 := 0;
     let l : Fin 2 := 0;
     s.node.alive = true ∧
       (s.node.die ↑node).links.length = 2 ∧
         (s.node.link ↑node ↑l).training = true ∧
           BitVec.toNat (s.node.link ↑node ↑l).lanes % 65536 ≠ 0 ∧
             BitVec.toNat (s.node.link ↑node ↑l).lanes / 65536 ≠ 0) ∧
    (let s : State := linkBad 1;
     let node : Fin 7 := 0;
     let l : Fin 2 := 0;
     let failed : Word := 2;
     let lanes : Word := (s.node.link ↑node ↑l).lanes ||| failed;
     s.node.alive = true ∧ (s.node.die ↑node).links.length = 2 ∧ (s.node.link ↑node ↑l).training = true ∧
       (BitVec.toNat lanes % 65536 ≠ 0) ≠ (BitVec.toNat lanes / 65536 ≠ 0)) ∧
    (let s : State := linkBad 1;
     let node : Fin 7 := 0;
     let l : Fin 2 := 0;
     let failed : Word := 2147483648;
     let lanes : Word := (s.node.link ↑node ↑l).lanes ||| failed;
     s.node.alive = true ∧ (s.node.die ↑node).links.length = 2 ∧ (s.node.link ↑node ↑l).training = true ∧
       BitVec.toNat lanes % 65536 ≠ 0 ∧ BitVec.toNat lanes / 65536 ≠ 0) := by
  refine ⟨?_, ?_, ?_, ?_, ?_, ?_⟩ <;> decide +kernel

/-- The hypotheses of `ReedArithmetic` hold together. -/
theorem witness_ReedArithmetic :
    (let s : State := reedRuns;
     let c : CoreId := core0;
     let a : Fin 16 := 0;
     let b : Opnd := Opnd.reg 1;
     s.node.alive = true ∧
       ReedReady s.node c ∧
         let r : ReedCore := s.node.reed c;
         let A : Word := xr r a;
         let B : Word := opnd r b;
         let v : Int := 2147483652;
         v = BitVec.toInt A + BitVec.toInt B) ∧
    (let s : State := reedRuns;
     let c : CoreId := core0;
     let a : Fin 16 := 2;
     let b : Opnd := Opnd.reg 2;
     s.node.alive = true ∧
       ReedReady s.node c ∧
         let r : ReedCore := s.node.reed c;
         let A : Word := xr r a;
         let B : Word := opnd r b;
         let v : Int := 0;
         v = BitVec.toInt A - BitVec.toInt B) := by
  delta ReedReady; refine ⟨?_, ?_⟩ <;> decide +kernel

/-- The hypotheses of `ReedAccumulators` hold together. -/
theorem witness_ReedAccumulators :
    let s : State := reedRuns;
     let c : CoreId := core0;
     s.node.alive = true ∧ ReedReady s.node c := by
  delta ReedReady; decide +kernel

/-- The hypotheses of `ReedMultiplies` hold together. -/
theorem witness_ReedMultiplies :
    (let s : State := reedRuns;
     let c : CoreId := core0;
     s.node.alive = true ∧
       ReedReady s.node c ∧
         (s.node.reed c).ac.length = 4 ∧
           let r : ReedCore := s.node.reed c;
           let l : MacLoad := { x := 3, p := 0, am := 1 };
           s.node.locAllowed c (ptrAt r (↑l.p) 0) = true ∧
             ptrAt r (↑l.p) 0 < 32768 ∧ ¬ptrAt r (↑l.p) 0 ∈ r.poisonedData ∧ r.unconfirmed = []) ∧
    (let s : State := reedRuns;
     let c : CoreId := core0;
     let k : Fin 4 := 0;
     let pa : Fin 8 := 0;
     let pb : Fin 8 := 0;
     let f : Fin 4 := 0;
     let sub : Bool := false;
     s.node.alive = true ∧
       ReedReady s.node c ∧
         (s.node.reed c).ac.length = 4 ∧
           let r : ReedCore := s.node.reed c;
           let shift : Nat := if ↑f = 3 then 0 else ↑f;
           let mul : Word → Word → Int := fun x y => BitVec.toInt x * BitVec.toInt y * 2 ^ shift;
           let X : Nat → Word := fun i => r.x.getD i 0;
           let put : ReedCore → Nat → Int → ReedCore := fun r i v =>
             { r with ac := r.ac.set i (BitVec.ofInt 80 (clampTo 80 v)), st := stickBit r.st stSatAcc (outside 80 v)
               };
           let K : Int := (acc r ↑k).toInt;
           let sign : Int := if sub = true then -1 else 1;
           let l1 : Option PairLoad := none;
           let l2 : Option PairLoad := none;
           let e : List (Nat × Nat) × ReedCore :=
             Node.pairLoad
               (put r (↑k) (K + sign * (mul (X (2 * ↑pa)) (X (2 * ↑pb)) + mul (X (2 * ↑pa + 1)) (X (2 * ↑pb + 1)))))
               false l1;
           let u : List (Nat × Nat) × ReedCore := Node.pairLoad e.snd true l2;
           (∀ (x : Nat × Nat),
               x ∈ e.fst ++ u.fst → s.node.locAllowed c x.snd = true ∧ x.snd < 32768 ∧ ¬x.snd ∈ r.poisonedData) ∧
             r.unconfirmed = []) ∧
    (let s : State := reedRuns;
     let c : CoreId := core0;
     let q : Fin 2 := 0;
     let pa : Fin 8 := 0;
     let pb : Fin 8 := 0;
     let f : Fin 4 := 0;
     let sub : Bool := false;
     s.node.alive = true ∧
       ReedReady s.node c ∧
         (s.node.reed c).ac.length = 4 ∧
           let r : ReedCore := s.node.reed c;
           let shift : Nat := if ↑f = 3 then 0 else ↑f;
           let mul : Word → Word → Int := fun x y => BitVec.toInt x * BitVec.toInt y * 2 ^ shift;
           let X : Nat → Word := fun i => r.x.getD i 0;
           let put : ReedCore → Nat → Int → ReedCore := fun r i v =>
             { r with ac := r.ac.set i (BitVec.ofInt 80 (clampTo 80 v)), st := stickBit r.st stSatAcc (outside 80 v)
               };
           let sign : Int := if sub = true then -1 else 1;
           let l1 : Option PairLoad := none;
           let l2 : Option PairLoad := none;
           let e : List (Nat × Nat) × ReedCore :=
             Node.pairLoad
               (put (put r (2 * ↑q) ((acc r (2 * ↑q)).toInt + sign * mul (X (2 * ↑pa)) (X (2 * ↑pb)))) (2 * ↑q + 1)
                 ((acc r (2 * ↑q + 1)).toInt + sign * mul (X (2 * ↑pa + 1)) (X (2 * ↑pb))))
               false l1;
           let u : List (Nat × Nat) × ReedCore := Node.pairLoad e.snd true l2;
           (∀ (x : Nat × Nat),
               x ∈ e.fst ++ u.fst → s.node.locAllowed c x.snd = true ∧ x.snd < 32768 ∧ ¬x.snd ∈ r.poisonedData) ∧
             r.unconfirmed = []) := by
  delta ReedReady; refine ⟨?_, ?_, ?_⟩ <;> decide +kernel

/-- The hypotheses of `ReedPointersAndSystem` hold together. -/
theorem witness_ReedPointersAndSystem :
    (let s : State := reedRuns;
     let c : CoreId := core0;
     let k : Fin 8 := 0;
     s.node.alive = true ∧
       ReedReady s.node c ∧
         (s.node.reed c).slot < 8 ∧
           let r : ReedCore := s.node.reed c;
           r.l.getD (↑k) 0 = 0) ∧
    (let s : State := reedRuns;
     let c : CoreId := core0;
     s.node.alive = true ∧
       ReedReady s.node c ∧
         (s.node.reed c).slot < 8 ∧
           let sr : Special := Special.cyc;
           sr = Special.cyc ∨
             sr = Special.caslo ∨ sr = Special.prg ∨ sr = Special.ipend ∨ sr = Special.evthit ∨ sr = Special.cbase) ∧
    (let s : State := reedCircular;
     let c : CoreId := core0;
     let k : Fin 8 := 0;
     s.node.alive = true ∧
       ReedReady s.node c ∧
         (s.node.reed c).slot < 8 ∧
           let r : ReedCore := s.node.reed c;
           let L : Nat := 7;
           0 < L ∧ L = (r.l.getD (↑k) 0).toNat.min 32768) := by
  delta ReedReady; refine ⟨?_, ?_, ?_⟩ <;> decide +kernel

/-- The hypotheses of `ReedLoadsAndStores` hold together. -/
theorem witness_ReedLoadsAndStores :
    (let s : State := reedRuns;
     let c : CoreId := core0;
     let w : ReedAddr := ReedAddr.ptr 0 0;
     s.node.alive = true ∧
       ReedReady s.node c ∧
         let r : ReedCore := s.node.reed c;
         let at_ : Nat → Nat := fun k =>
           match w with
           | ReedAddr.ext v => v.toNat + k
           | ReedAddr.ptr p am => ptrAt r ↑p ↑k;
         let good : Nat → Prop := fun k => s.node.locAllowed c (at_ k) = true ∧ at_ k < 32768;
         good 0 ∧ good 1 ∧ ¬at_ 0 ∈ r.poisonedData ∧ ¬at_ 1 ∈ r.poisonedData ∧ r.unconfirmed = []) ∧
    (let s : State := reedRuns;
     let c : CoreId := core0;
     let w : ReedAddr := ReedAddr.ptr 0 0;
     s.node.alive = true ∧
       ReedReady s.node c ∧
         let r : ReedCore := s.node.reed c;
         let at_ : Nat → Nat := fun k =>
           match w with
           | ReedAddr.ext v => v.toNat + k
           | ReedAddr.ptr p am => ptrAt r ↑p ↑k;
         let good : Nat → Prop := fun k => s.node.locAllowed c (at_ k) = true ∧ at_ k < 32768;
         good 0 ∧ good 1 ∧ at_ 0 ≠ at_ 1) ∧
    (let s : State := reedRuns;
     let c : CoreId := core0;
     let w : ReedAddr := ReedAddr.ext 100;
     s.node.alive = true ∧
       ReedReady s.node c ∧
         let r : ReedCore := s.node.reed c;
         let at_ : Nat → Nat := fun k =>
           match w with
           | ReedAddr.ext v => v.toNat + k
           | ReedAddr.ptr p am => ptrAt r ↑p ↑k;
         r.mode = ReedMode.program ∧ s.node.locAllowed c (at_ 0) = false ∧ ¬at_ 0 ∈ r.poisonedData) ∧
    (let s : State :=
       reedSt fun r =>
         { r with mode := ReedMode.handler, p := List.replicate 8 32768 };
     let c : CoreId := core0;
     let w : ReedAddr := ReedAddr.ptr 0 0;
     s.node.alive = true ∧
       ReedReady s.node c ∧
         let r : ReedCore := s.node.reed c;
         let at_ : Nat → Nat := fun k =>
           match w with
           | ReedAddr.ext v => v.toNat + k
           | ReedAddr.ptr p am => ptrAt r ↑p ↑k;
         r.mode = ReedMode.handler ∧ 32768 ≤ at_ 0 ∧ ¬at_ 0 ∈ r.poisonedData) := by
  delta ReedReady; refine ⟨?_, ?_, ?_, ?_⟩ <;> decide +kernel

/-- The hypotheses of `ReedControlTransfers` hold together. -/
theorem witness_ReedControlTransfers :
    (let s : State := reedRuns;
     let c : CoreId := core0;
     s.node.alive = true ∧
       s.node.reedExecutes c = true ∧
         ¬(s.node.reed c).pc ∈ (s.node.reed c).poisonedProg ∧
           ¬(s.node.reed c).pc + 1 ∈ (s.node.reed c).poisonedProg ∧
             ((s.node.reed c).mode = ReedMode.program → (s.node.reed c).cyc < s.node.reedBudget c) ∧
               ((s.node.reed c).mode = ReedMode.handler →
                   (s.node.reed c).runsOver = true ∨ (s.node.reed c).irqCycles < s.node.irqBudget c) ∧
                 let r : ReedCore := s.node.reed c;
                 r.loads = [] ∧
                   r.jump = none ∧
                     r.reps = [] ∧
                       let cond : Cond := Cond.al;
                       Node.condHolds r.st cond = true) ∧
    (let s : State := reedRuns;
     let c : CoreId := core0;
     s.node.alive = true ∧
       s.node.reedExecutes c = true ∧
         ¬(s.node.reed c).pc ∈ (s.node.reed c).poisonedProg ∧
           ¬(s.node.reed c).pc + 1 ∈ (s.node.reed c).poisonedProg ∧
             ((s.node.reed c).mode = ReedMode.program → (s.node.reed c).cyc < s.node.reedBudget c) ∧
               ((s.node.reed c).mode = ReedMode.handler →
                   (s.node.reed c).runsOver = true ∨ (s.node.reed c).irqCycles < s.node.irqBudget c) ∧
                 let r : ReedCore := s.node.reed c;
                 r.loads = [] ∧
                   r.jump = none ∧
                     r.reps = [] ∧
                       let cond : Cond := Cond.eq;
                       Node.condHolds r.st cond = false) ∧
    (let s : State := reedRuns;
     let c : CoreId := core0;
     s.node.alive = true ∧
       s.node.reedExecutes c = true ∧
         ¬(s.node.reed c).pc ∈ (s.node.reed c).poisonedProg ∧
           ¬(s.node.reed c).pc + 1 ∈ (s.node.reed c).poisonedProg ∧
             ((s.node.reed c).mode = ReedMode.program → (s.node.reed c).cyc < s.node.reedBudget c) ∧
               ((s.node.reed c).mode = ReedMode.handler →
                   (s.node.reed c).runsOver = true ∨ (s.node.reed c).irqCycles < s.node.irqBudget c) ∧
                 let r : ReedCore := s.node.reed c;
                 r.loads = [] ∧
                   r.jump = none ∧
                     r.reps = [] ∧
                       let x : Fin 16 := 0;
                       xr r x ≠ 1) ∧
    (let s : State := reedRuns;
     let c : CoreId := core0;
     s.node.alive = true ∧
       s.node.reedExecutes c = true ∧
         ¬(s.node.reed c).pc ∈ (s.node.reed c).poisonedProg ∧
           ¬(s.node.reed c).pc + 1 ∈ (s.node.reed c).poisonedProg ∧
             ((s.node.reed c).mode = ReedMode.program → (s.node.reed c).cyc < s.node.reedBudget c) ∧
               ((s.node.reed c).mode = ReedMode.handler →
                   (s.node.reed c).runsOver = true ∨ (s.node.reed c).irqCycles < s.node.irqBudget c) ∧
                 let r : ReedCore := s.node.reed c;
                 r.loads = [] ∧
                   r.jump = none ∧
                     r.reps = [] ∧
                       let x : Fin 16 := 5;
                       xr r x = 1) ∧
    (let s : State := reedRuns;
     let c : CoreId := core0;
     s.node.alive = true ∧
       s.node.reedExecutes c = true ∧
         ¬(s.node.reed c).pc ∈ (s.node.reed c).poisonedProg ∧
           ¬(s.node.reed c).pc + 1 ∈ (s.node.reed c).poisonedProg ∧
             ((s.node.reed c).mode = ReedMode.program → (s.node.reed c).cyc < s.node.reedBudget c) ∧
               ((s.node.reed c).mode = ReedMode.handler →
                   (s.node.reed c).runsOver = true ∨ (s.node.reed c).irqCycles < s.node.irqBudget c) ∧
                 let r : ReedCore := s.node.reed c;
                 r.loads = [] ∧
                   r.jump = none ∧
                     r.reps = [] ∧
                       let body : Fin 64 := 0;
                       let x : Fin 16 := 0;
                       0 < BitVec.toInt (xr r x) ∧ BitVec.toNat (xr r x) ≤ 256 / (↑body + 1)) ∧
    (let s : State := reedRuns;
     let c : CoreId := core0;
     s.node.alive = true ∧
       s.node.reedExecutes c = true ∧
         ¬(s.node.reed c).pc ∈ (s.node.reed c).poisonedProg ∧
           ¬(s.node.reed c).pc + 1 ∈ (s.node.reed c).poisonedProg ∧
             ((s.node.reed c).mode = ReedMode.program → (s.node.reed c).cyc < s.node.reedBudget c) ∧
               ((s.node.reed c).mode = ReedMode.handler →
                   (s.node.reed c).runsOver = true ∨ (s.node.reed c).irqCycles < s.node.irqBudget c) ∧
                 let r : ReedCore := s.node.reed c;
                 r.loads = [] ∧
                   r.jump = none ∧
                     r.reps = [] ∧
                       let x : Fin 16 := 2;
                       BitVec.toInt (xr r x) ≤ 0) ∧
    (let s : State := reedRuns;
     let c : CoreId := core0;
     s.node.alive = true ∧
       s.node.reedExecutes c = true ∧
         ¬(s.node.reed c).pc ∈ (s.node.reed c).poisonedProg ∧
           ¬(s.node.reed c).pc + 1 ∈ (s.node.reed c).poisonedProg ∧
             ((s.node.reed c).mode = ReedMode.program → (s.node.reed c).cyc < s.node.reedBudget c) ∧
               ((s.node.reed c).mode = ReedMode.handler →
                   (s.node.reed c).runsOver = true ∨ (s.node.reed c).irqCycles < s.node.irqBudget c) ∧
                 let r : ReedCore := s.node.reed c;
                 r.loads = [] ∧
                   r.jump = none ∧
                     r.reps = [] ∧
                       let body : Fin 64 := 63;
                       let x : Fin 16 := 0;
                       0 < BitVec.toInt (xr r x) ∧ 256 / (↑body + 1) < BitVec.toNat (xr r x)) ∧
    (let s : State := reedRuns;
     let c : CoreId := core0;
     s.node.alive = true ∧
       s.node.reedExecutes c = true ∧
         ¬(s.node.reed c).pc ∈ (s.node.reed c).poisonedProg ∧
           ¬(s.node.reed c).pc + 1 ∈ (s.node.reed c).poisonedProg ∧
             ((s.node.reed c).mode = ReedMode.program → (s.node.reed c).cyc < s.node.reedBudget c) ∧
               ((s.node.reed c).mode = ReedMode.handler →
                   (s.node.reed c).runsOver = true ∨ (s.node.reed c).irqCycles < s.node.irqBudget c) ∧
                 let r : ReedCore := s.node.reed c;
                 r.loads = [] ∧ r.jump = none ∧ r.reps = [] ∧ r.mode = ReedMode.program) ∧
    (let s : State := reedHandler;
     let c : CoreId := core0;
     s.node.alive = true ∧
       s.node.reedExecutes c = true ∧
         ¬(s.node.reed c).pc ∈ (s.node.reed c).poisonedProg ∧
           ¬(s.node.reed c).pc + 1 ∈ (s.node.reed c).poisonedProg ∧
             ((s.node.reed c).mode = ReedMode.program → (s.node.reed c).cyc < s.node.reedBudget c) ∧
               ((s.node.reed c).mode = ReedMode.handler →
                   (s.node.reed c).runsOver = true ∨ (s.node.reed c).irqCycles < s.node.irqBudget c) ∧
                 let r : ReedCore := s.node.reed c;
                 r.loads = [] ∧ r.jump = none ∧ r.reps = [] ∧ r.mode = ReedMode.handler) ∧
    (let s : State := jumpSt (some (2, ReedJump.end_)) ReedMode.program;
     let c : CoreId := core0;
     s.node.alive = true ∧
       s.node.reedExecutes c = true ∧
         ¬(s.node.reed c).pc ∈ (s.node.reed c).poisonedProg ∧
           ¬(s.node.reed c).pc + 1 ∈ (s.node.reed c).poisonedProg ∧
             ((s.node.reed c).mode = ReedMode.program → (s.node.reed c).cyc < s.node.reedBudget c) ∧
               ((s.node.reed c).mode = ReedMode.handler →
                   (s.node.reed c).runsOver = true ∨ (s.node.reed c).irqCycles < s.node.irqBudget c) ∧
                 let r : ReedCore := s.node.reed c;
                 r.loads = [] ∧
                   r.reps = [] ∧
                     let k : Nat := 2;
                     let j : ReedJump := ReedJump.end_;
                     1 < k ∧ r.jump = some (k, j)) ∧
    (let s : State := jumpSt (some (1, ReedJump.to 0)) ReedMode.program;
     let c : CoreId := core0;
     s.node.alive = true ∧
       s.node.reedExecutes c = true ∧
         ¬(s.node.reed c).pc ∈ (s.node.reed c).poisonedProg ∧
           ¬(s.node.reed c).pc + 1 ∈ (s.node.reed c).poisonedProg ∧
             ((s.node.reed c).mode = ReedMode.program → (s.node.reed c).cyc < s.node.reedBudget c) ∧
               ((s.node.reed c).mode = ReedMode.handler →
                   (s.node.reed c).runsOver = true ∨ (s.node.reed c).irqCycles < s.node.irqBudget c) ∧
                 let r : ReedCore := s.node.reed c;
                 r.loads = [] ∧
                   r.reps = [] ∧
                     let a : Nat := 0;
                     r.jump = some (1, ReedJump.to a)) ∧
    (let s : State := jumpSt (some (1, ReedJump.end_)) ReedMode.program;
     let c : CoreId := core0;
     s.node.alive = true ∧
       s.node.reedExecutes c = true ∧
         ¬(s.node.reed c).pc ∈ (s.node.reed c).poisonedProg ∧
           ¬(s.node.reed c).pc + 1 ∈ (s.node.reed c).poisonedProg ∧
             ((s.node.reed c).mode = ReedMode.program → (s.node.reed c).cyc < s.node.reedBudget c) ∧
               ((s.node.reed c).mode = ReedMode.handler →
                   (s.node.reed c).runsOver = true ∨ (s.node.reed c).irqCycles < s.node.irqBudget c) ∧
                 let r : ReedCore := s.node.reed c;
                 r.loads = [] ∧ r.reps = [] ∧ r.jump = some (1, ReedJump.end_)) ∧
    (let s : State := jumpSt (some (1, ReedJump.reti)) ReedMode.handler;
     let c : CoreId := core0;
     s.node.alive = true ∧
       s.node.reedExecutes c = true ∧
         ¬(s.node.reed c).pc ∈ (s.node.reed c).poisonedProg ∧
           ¬(s.node.reed c).pc + 1 ∈ (s.node.reed c).poisonedProg ∧
             ((s.node.reed c).mode = ReedMode.program → (s.node.reed c).cyc < s.node.reedBudget c) ∧
               ((s.node.reed c).mode = ReedMode.handler →
                   (s.node.reed c).runsOver = true ∨ (s.node.reed c).irqCycles < s.node.irqBudget c) ∧
                 let r : ReedCore := s.node.reed c;
                 r.loads = [] ∧
                   r.reps = [] ∧ r.jump = some (1, ReedJump.reti) ∧ r.mode = ReedMode.handler ∧ r.servesMbx = false) ∧
    (let s : State := repSt [repA];
     let c : CoreId := core0;
     s.node.alive = true ∧
       s.node.reedExecutes c = true ∧
         ¬(s.node.reed c).pc ∈ (s.node.reed c).poisonedProg ∧
           ¬(s.node.reed c).pc + 1 ∈ (s.node.reed c).poisonedProg ∧
             ((s.node.reed c).mode = ReedMode.program → (s.node.reed c).cyc < s.node.reedBudget c) ∧
               ((s.node.reed c).mode = ReedMode.handler →
                   (s.node.reed c).runsOver = true ∨ (s.node.reed c).irqCycles < s.node.irqBudget c) ∧
                 let r : ReedCore := s.node.reed c;
                 let f : RepFrame := repA;
                 let fs : List RepFrame := [];
                 r.loads = [] ∧ r.jump = none ∧ r.reps = f :: fs ∧ f.left = 1 ∧ f.count = 1 ∧ fs = []) ∧
    (let s : State := repSt [repB];
     let c : CoreId := core0;
     s.node.alive = true ∧
       s.node.reedExecutes c = true ∧
         ¬(s.node.reed c).pc ∈ (s.node.reed c).poisonedProg ∧
           ¬(s.node.reed c).pc + 1 ∈ (s.node.reed c).poisonedProg ∧
             ((s.node.reed c).mode = ReedMode.program → (s.node.reed c).cyc < s.node.reedBudget c) ∧
               ((s.node.reed c).mode = ReedMode.handler →
                   (s.node.reed c).runsOver = true ∨ (s.node.reed c).irqCycles < s.node.irqBudget c) ∧
                 let r : ReedCore := s.node.reed c;
                 let f : RepFrame := repB;
                 let fs : List RepFrame := [];
                 r.loads = [] ∧ r.jump = none ∧ r.reps = f :: fs ∧ f.left = 1 ∧ 1 < f.count) ∧
    (let s : State := repSt [repC];
     let c : CoreId := core0;
     s.node.alive = true ∧
       s.node.reedExecutes c = true ∧
         ¬(s.node.reed c).pc ∈ (s.node.reed c).poisonedProg ∧
           ¬(s.node.reed c).pc + 1 ∈ (s.node.reed c).poisonedProg ∧
             ((s.node.reed c).mode = ReedMode.program → (s.node.reed c).cyc < s.node.reedBudget c) ∧
               ((s.node.reed c).mode = ReedMode.handler →
                   (s.node.reed c).runsOver = true ∨ (s.node.reed c).irqCycles < s.node.irqBudget c) ∧
                 let r : ReedCore := s.node.reed c;
                 let f : RepFrame := repC;
                 let fs : List RepFrame := [];
                 r.loads = [] ∧ r.jump = none ∧ r.reps = f :: fs ∧ 1 < f.left) ∧
    (let s : State := repSt [repA, repC];
     let c : CoreId := core0;
     s.node.alive = true ∧
       s.node.reedExecutes c = true ∧
         ¬(s.node.reed c).pc ∈ (s.node.reed c).poisonedProg ∧
           ¬(s.node.reed c).pc + 1 ∈ (s.node.reed c).poisonedProg ∧
             ((s.node.reed c).mode = ReedMode.program → (s.node.reed c).cyc < s.node.reedBudget c) ∧
               ((s.node.reed c).mode = ReedMode.handler →
                   (s.node.reed c).runsOver = true ∨ (s.node.reed c).irqCycles < s.node.irqBudget c) ∧
                 let r : ReedCore := s.node.reed c;
                 let f : RepFrame := repA;
                 let fs : List RepFrame := [repC];
                 r.loads = [] ∧
                   r.jump = none ∧
                     r.reps = f :: fs ∧
                       let g : RepFrame := repC;
                       let gs : List RepFrame := [];
                       f.left = 1 ∧ f.count = 1 ∧ fs = g :: gs ∧ 1 < g.left) := by
  refine ⟨?_, ?_, ?_, ?_, ?_, ?_,
    ⟨?_, ?_, ?_, ?_, ?_, ?_,
    ⟨?_, ?_, ?_, ?_, ?_⟩⟩⟩ <;> decide +kernel

/-- The hypotheses of `ReedTransfers` hold together. -/
theorem witness_ReedTransfers :
    (let s : State := reedRuns;
     let c : CoreId := core0;
     let ch : Fin 4 := 3;
     let a : Opnd := Opnd.ext 8180;
     let p : Fin 8 := 0;
     let len : BitVec 13 := 1;
     s.node.alive = true ∧
       let r : ReedCore := s.node.reed c;
       let fen : Nat := BitVec.toNat (opnd r a);
       let loc : Nat := (r.p.getD (↑p) 0).toNat;
       let allowed : Prop :=
         fen % 4 = 0 ∧
           s.node.fenAllowed c fen (4 * len.toNat) = true ∧
             ∀ (k : Nat), k < len.toNat → s.node.locAllowed c (loc + k) = true ∧ ¬loc + k ∈ r.poisonedData;
       ReedReady s.node c ∧ allowed ∧ r.chans.getD ↑ch [] = []) ∧
    (let s : State := reedRuns;
     let c : CoreId := core0;
     s.node.alive = true ∧
       let r : ReedCore := s.node.reed c;
       ReedReady s.node c ∧
         let mask : BitVec 4 := 8;
         ∀ (k : Fin 4), mask.getLsbD ↑k = true → r.chans.getD ↑k [] = []) ∧
    (let s : State := reedRuns;
     let c : CoreId := core0;
     let a : Opnd := Opnd.ext 4097;
     let len : BitVec 13 := 1;
     s.node.alive = true ∧
       let r : ReedCore := s.node.reed c;
       let fen : Nat := BitVec.toNat (opnd r a);
       ReedReady s.node c ∧
         r.mode = ReedMode.program ∧ (fen % 4 ≠ 0 ∨ s.node.fenAllowed c fen (4 * len.toNat) = false)) ∧
    (let s : State := chanSt [xferR];
     let c : CoreId := core0;
     let ch : Fin 4 := 3;
     let a : Opnd := Opnd.ext 8180;
     let p : Fin 8 := 0;
     let len : BitVec 13 := 1;
     s.node.alive = true ∧
       let r : ReedCore := s.node.reed c;
       let fen : Nat := BitVec.toNat (opnd r a);
       let loc : Nat := (r.p.getD (↑p) 0).toNat;
       let allowed : Prop :=
         fen % 4 = 0 ∧
           s.node.fenAllowed c fen (4 * len.toNat) = true ∧
             ∀ (k : Nat), k < len.toNat → s.node.locAllowed c (loc + k) = true ∧ ¬loc + k ∈ r.poisonedData;
       ReedReady s.node c ∧ allowed ∧ r.chans.getD ↑ch [] ≠ []) ∧
    (let s : State := chanSt [xferR];
     let c : CoreId := core0;
     s.node.alive = true ∧
       let r : ReedCore := s.node.reed c;
       ReedReady s.node c ∧
         let mask : BitVec 4 := 8;
         ∃ k, mask.getLsbD ↑k = true ∧ r.chans.getD ↑k [] ≠ []) ∧
    (let s : State := chanSt [xferR];
     let c : CoreId := core0;
     let ch : Fin 4 := 3;
     s.node.alive = true ∧
       let r : ReedCore := s.node.reed c;
       let x : ReedXfer := xferR;
       let rest : List ReedXfer := [];
       r.chans.getD ↑ch [] = x :: rest ∧
         x.loc + x.len ≤ 32768 ∧
           (s.node.die ↑c.die).poisoned = [] ∧
             (s.node.die ↑c.die).steerCopying = false ∧ r.stall = none ∧ x.write = false) ∧
    (let s : State := reedRuns;
     let c : CoreId := core0;
     let ch : Fin 4 := 3;
     let a : Opnd := Opnd.ext 8180;
     let p : Fin 8 := 0;
     let len : BitVec 13 := 1;
     let r : ReedCore := s.node.reed c;
     let fen : Nat := BitVec.toNat (opnd r a);
     let loc : Nat := (r.p.getD (↑p) 0).toNat;
     let allowed : Prop := fen % 4 = 0 ∧ s.node.fenAllowed c fen (4 * len.toNat) = true ∧ ∀ (k : Nat), k < len.toNat → s.node.locAllowed c (loc + k) = true ∧ ¬loc + k ∈ r.poisonedData;
     let settled : Nat → Nat → Prop := fun loc len => ∀ (u : Nat × Nat × Nat), u ∈ r.unconfirmed → u.snd.fst + u.snd.snd ≤ loc ∨ loc + len ≤ u.snd.fst;
     s.node.alive = true ∧ ReedReady s.node c ∧ allowed ∧ r.chans.getD ↑ch [] = [] ∧ settled loc len.toNat) ∧
    (let s : State := chanSt [xferW];
     let c : CoreId := core0;
     let ch : Fin 4 := 3;
     let p : Fin 8 := 0;
     let len : BitVec 13 := 0;
     let r : ReedCore := s.node.reed c;
     let loc : Nat := (r.p.getD (↑p) 0).toNat;
     let settled : Nat → Nat → Prop := fun loc len => ∀ (u : Nat × Nat × Nat), u ∈ r.unconfirmed → u.snd.fst + u.snd.snd ≤ loc ∨ loc + len ≤ u.snd.fst;
     let x : ReedXfer := xferW;
     let rest : List ReedXfer := [];
     s.node.alive = true ∧ r.chans.getD ↑ch [] = x :: rest ∧ x.loc + x.len ≤ 32768 ∧
       (s.node.die ↑c.die).poisoned = [] ∧ (s.node.die ↑c.die).steerCopying = false ∧ r.stall = none ∧ x.write = true ∧
       settled x.loc x.len ∧ (∀ (k : Nat), k < x.len → x.words.getD k 0 = s.node.locRead c (x.loc + k))) ∧
    (let s : State := reedWaitsX;
     let c : CoreId := core0;
     let ch : Fin 4 := 3;
     let r : ReedCore := s.node.reed c;
     let x : ReedXfer := xferR;
     let cycles : Nat := 40;
     s.node.alive = true ∧ r.chans.getD ↑ch [] = [x] ∧ r.stall = some (ReedStall.waitx (2 ^ ch.val)) ∧
       r.mode = ReedMode.program ∧ r.chans.length = 4 ∧ r.cyc + cycles < s.node.reedBudget c) ∧
    (let s : State := reedWaitsX;
     let c : CoreId := core0;
     let ch : Fin 4 := 3;
     let r : ReedCore := s.node.reed c;
     let x : ReedXfer := xferR;
     let cycles : Nat := 1000;
     s.node.alive = true ∧ r.chans.getD ↑ch [] = [x] ∧ r.stall = some (ReedStall.waitx (2 ^ ch.val)) ∧
       r.mode = ReedMode.program ∧ r.chans.length = 4 ∧ s.node.reedBudget c ≤ r.cyc + cycles) := by
  delta ReedReady; refine ⟨?_, ?_, ?_, ?_, ?_, ?_,
    ⟨?_, ?_, ?_, ?_⟩⟩ <;>
    first
    | decide +kernel
    | exact ⟨by decide +kernel, by decide +kernel, 3, by decide +kernel⟩

/-- The hypotheses of `ReedRuns` hold together. -/
theorem witness_ReedRuns :
    (let s : State := reedRuns;
     let c : CoreId := core0;
     s.node.alive = true ∧
       let r : ReedCore := s.node.reed c;
       s.node.reedExecutes c = true ∧ r.mode = ReedMode.program) ∧
    (let s : State :=
       reedSt fun r =>
         { r with cyc := 1000 };
     let c : CoreId := core0;
     s.node.alive = true ∧
       let r : ReedCore := s.node.reed c;
       s.node.reedExecutes c = true ∧ r.mode = ReedMode.program ∧ s.node.reedBudget c ≤ r.cyc) ∧
    (let s : State := reedIrq ReedMode.program;
     let c : CoreId := core0;
     s.node.alive = true ∧
       let r : ReedCore := s.node.reed c;
       r.retired = false ∧
         (r.mode = ReedMode.program ∨ r.mode = ReedMode.idle) ∧
           r.stall = none ∧
             r.loads = [] ∧
               r.jump = none ∧
                 r.reps = [] ∧
                   r.irqBarred = false ∧
                     BitVec.getLsbD r.st 8 = true ∧
                       let k : Fin 3 := 1;
                       (r.ipend &&& r.imask).getLsbD ↑k = true ∧
                         ∀ (j : Fin 3), j < k → (r.ipend &&& r.imask).getLsbD ↑j = false) ∧
    (let s : State := reedInHandler false;
     let c : CoreId := core0;
     s.node.alive = true ∧
       let r : ReedCore := s.node.reed c;
       s.node.reedExecutes c = true ∧ r.mode = ReedMode.handler) ∧
    (let s : State := reedInHandler false;
     let c : CoreId := core0;
     s.node.alive = true ∧
       let r : ReedCore := s.node.reed c;
       r.mode = ReedMode.handler ∧ r.runsOver = false ∧ r.interrupted = false) ∧
    (let s : State := reedInHandler true;
     let c : CoreId := core0;
     s.node.alive = true ∧
       let r : ReedCore := s.node.reed c;
       r.mode = ReedMode.handler ∧ r.runsOver = false ∧ r.interrupted = true) ∧
    (let s : State := opened reedFree;
     let c : CoreId := core0;
     let r : ReedCore := s.node.reed c;
     let k : Nat := 0;
     let g : ReedCfg := prog0;
     s.node.alive = true ∧ r.mode = ReedMode.idle ∧ r.runsOver = false ∧ r.retired = false ∧
       (s.node.running = false ∨ s.node.cas.windowOpen = true) ∧ s.node.nextSlot c = some k ∧
       s.node.reedCfg c k = some g) ∧
    (let s : State := opened reedDone;
     let c : CoreId := core0;
     let r : ReedCore := s.node.reed c;
     s.node.alive = true ∧ r.mode = ReedMode.idle ∧ r.runsOver = false ∧ r.retired = false ∧
       (s.node.running = false ∨ s.node.cas.windowOpen = true) ∧ s.node.nextSlot c = none) ∧
    (let s : State := reedEnding 976;
     let c : CoreId := core0;
     let r : ReedCore := s.node.reed c;
     let g : ReedCfg := prog0;
     let o : Nat := 8192;
     let cyc : Nat := r.cyc + 8 + (s.node.s * g.nout + 7) / 8;
     s.node.alive = true ∧ r.mode = ReedMode.ending ∧ s.node.reedCfg c r.slot = some g ∧ g.die = ↑c.die ∧
       g.outOffs = [o] ∧ (s.node.die g.die).poisoned = [] ∧ (s.node.die g.die).steerCopying = false ∧
       r.unconfirmed = [] ∧ cyc ≤ g.budget ∧ r.st &&& 112 = 0) ∧
    (let s : State := reedEnding 995;
     let c : CoreId := core0;
     let r : ReedCore := s.node.reed c;
     let g : ReedCfg := prog0;
     let o : Nat := 8192;
     let cyc : Nat := r.cyc + 8 + (s.node.s * g.nout + 7) / 8;
     s.node.alive = true ∧ r.mode = ReedMode.ending ∧ s.node.reedCfg c r.slot = some g ∧ g.die = ↑c.die ∧
       g.outOffs = [o] ∧ (s.node.die g.die).poisoned = [] ∧ (s.node.die g.die).steerCopying = false ∧
       r.unconfirmed = [] ∧ g.budget < cyc) ∧
    (let s : State := reedIrqWaits;
     let c : CoreId := core0;
     let r : ReedCore := s.node.reed c;
     let k : Fin 3 := 1;
     let cycles : Nat := 40;
     let mask : Nat := 8;
     s.node.alive = true ∧ r.retired = false ∧ (r.mode = ReedMode.program ∨ r.mode = ReedMode.idle) ∧ r.loads = [] ∧
       r.jump = none ∧ r.reps = [] ∧ r.irqBarred = false ∧ r.st.getLsbD 8 = true ∧
       (r.ipend &&& r.imask).getLsbD ↑k = true ∧ (∀ (j : Fin 3), j < k → (r.ipend &&& r.imask).getLsbD ↑j = false) ∧
       r.stall = some (ReedStall.waitx mask) ∧ r.mode = ReedMode.program ∧ r.cyc + cycles ≤ s.node.reedBudget c) ∧
    (let s : State := reedIrqWaits;
     let c : CoreId := core0;
     let r : ReedCore := s.node.reed c;
     let k : Fin 3 := 1;
     let cycles : Nat := 1001;
     let mask : Nat := 8;
     s.node.alive = true ∧ r.retired = false ∧ (r.mode = ReedMode.program ∨ r.mode = ReedMode.idle) ∧ r.loads = [] ∧
       r.jump = none ∧ r.reps = [] ∧ r.irqBarred = false ∧ r.st.getLsbD 8 = true ∧
       (r.ipend &&& r.imask).getLsbD ↑k = true ∧ (∀ (j : Fin 3), j < k → (r.ipend &&& r.imask).getLsbD ↑j = false) ∧
       r.stall = some (ReedStall.waitx mask) ∧ r.mode = ReedMode.program ∧ s.node.reedBudget c < r.cyc + cycles) := by
  refine ⟨?_, ?_, ?_, ?_, ?_, ?_,
    ⟨?_, ?_, ?_, ?_, ?_, ?_⟩⟩ <;> decide +kernel

/-- The hypotheses of `ReedMemoryAndTests` hold together. -/
theorem witness_ReedMemoryAndTests :
    (let s : State := reedRuns;
     let c : CoreId := core0;
     s.node.alive = true ∧
       let r : ReedCore := s.node.reed c;
       s.node.boot.engPresent.getLsbD ↑c.die = true ∧ r.mode = ReedMode.program) ∧
    (let s : State := reedRuns;
     let c : CoreId := core0;
     s.node.alive = true ∧
       let r : ReedCore := s.node.reed c;
       r.retired = false) ∧
    (let s : State := reedRuns;
     let c : CoreId := core0;
     s.node.alive = true ∧
       let page : Page := rcxPage c;
       let src : Src := pcie;
       Reachable s page ∧
         ¬src.port ∈ (s.node.hdr page).keyArmed ∧
           (s.node.hdr page).frozen = none ∧ s.node.flag page Fld.rcxMbxCtlFull = false) ∧
    (let s : State := reedRuns;
     let c : CoreId := core0;
     s.node.alive = true ∧
       let r : ReedCore := s.node.reed c;
       let page : Page := rcxPage c;
       let src : Src := pcie;
       Reachable s page ∧
         ¬src.port ∈ (s.node.hdr page).keyArmed ∧
           (s.node.hdr page).frozen = none ∧
             let a : Nat := 0;
             a = s.node.fld page Fld.rcxMemselAddr ∧ s.node.flag page Fld.rcxMemselProg = false ∧ ¬a ∈
               r.poisonedData) ∧
    (let s : State := reedFree;
     let c : CoreId := core0;
     s.node.alive = true ∧
       let r : ReedCore := s.node.reed c;
       s.node.boot.engPresent.getLsbD ↑c.die = true ∧ r.mode = ReedMode.idle) ∧
    (let s : State := { node := reedFree.node.setFld (rcxPage core0) Fld.rcxMbxCtlFull 1 };
     let c : CoreId := core0;
     s.node.alive = true ∧
       let page : Page := rcxPage c;
       let src : Src := pcie;
       Reachable s page ∧
         ¬src.port ∈ (s.node.hdr page).keyArmed ∧
           (s.node.hdr page).frozen = none ∧ s.node.flag page Fld.rcxMbxCtlFull = true) ∧
    (let s : State := { node := reedFree.node.setFld (rcxPage core0) Fld.rcxMemselProg 1 };
     let c : CoreId := core0;
     s.node.alive = true ∧
       let page : Page := rcxPage c;
       let src : Src := pcie;
       Reachable s page ∧
         ¬src.port ∈ (s.node.hdr page).keyArmed ∧
           (s.node.hdr page).frozen = none ∧
             let a : Nat := 0;
             a = s.node.fld page Fld.rcxMemselAddr ∧
               s.node.flag page Fld.rcxMemselProg = true ∧
                 a < 16384 ∧
                   let w : Word := 5;
                   (s.node.hdr page).keyHolder ≠ some src.port ∧ s.node.progRead c a ≠ w) ∧
    (let s : State :=
       {
         node :=
           (reedFree.node.setFld (rcxPage core0) Fld.rcxMemselProg 1).setHdr (rcxPage core0)
             { keyHolder := some Port.pcie } };
     let c : CoreId := core0;
     s.node.alive = true ∧
       let page : Page := rcxPage c;
       let src : Src := pcie;
       Reachable s page ∧
         ¬src.port ∈ (s.node.hdr page).keyArmed ∧
           (s.node.hdr page).frozen = none ∧
             let a : Nat := 0;
             a = s.node.fld page Fld.rcxMemselAddr ∧
               s.node.flag page Fld.rcxMemselProg = true ∧ a < 16384 ∧ (s.node.hdr page).keyHolder = some src.port) ∧
    (let s : State := reedRuns;
     let c : CoreId := core0;
     let r : ReedCore := s.node.reed c;
     let met : Bool := false;
     s.node.alive = true ∧ s.node.boot.engPresent.getLsbD ↑c.die = true ∧ (r.mode = ReedMode.idle ∨ met = false)) := by
  delta Reachable; refine ⟨?_, ?_, ?_, ?_, ?_, ?_,
    ⟨?_, ?_, ?_⟩⟩ <;> decide +kernel

/-- The hypotheses of `MailboxSlots` hold together. -/
theorem witness_MailboxSlots :
    (let s : State := slotBusy 0;
     let slot : Fin 4 := 0;
     s.node.alive = true ∧
       let code : Nat := 0;
       s.node.mgmt.running = true ∧ s.node.slotBusy ↑slot = true ∧ s.node.lengthBad slot = false ∧ code < 256) ∧
    (let s : State := slotBusy 0;
     let slot : Fin 4 := 3;
     s.node.alive = true ∧ s.node.slotBusy ↑slot = false) ∧
    (let s : State := slotBusy 0;
     let slot : Fin 4 := 0;
     s.node.alive = true ∧
       let src : Src := pcie;
       Reachable s mgtPage ∧
         ¬src.port ∈ (s.node.hdr mgtPage).keyArmed ∧ (ownsSlot src ↑slot = false ∨ s.node.slotBusy ↑slot = true ∧ s.node.lengthBad slot = false)) ∧
    (let s : State := slotBusy 0;
     let slot : Fin 4 := 3;
     s.node.alive = true ∧
       let src : Src := { port := Port.core, master := 7 };
       Reachable s mgtPage ∧
         ¬src.port ∈ (s.node.hdr mgtPage).keyArmed ∧
           ownsSlot src ↑slot = true ∧
             s.node.slotBusy ↑slot = false ∧ BitVec.toNat (s.node.reg mgtPage (requestOff ↑slot)) % 256 ≤ 63) ∧
    (let s : State := badLen;
     let slot : Fin 4 := 0;
     s.node.alive = true ∧
       let src : Src := pcie;
       Reachable s mgtPage ∧
         ¬src.port ∈ (s.node.hdr mgtPage).keyArmed ∧
           ownsSlot src ↑slot = true ∧
             s.node.slotBusy ↑slot = false ∧ 63 < BitVec.toNat (s.node.reg mgtPage (requestOff ↑slot)) % 256) ∧
    (let s : State := { node := (slotBusy 0).node.setReg mgtPage (requestOff 0) 0x01010000 };
     let slot : Fin 4 := 0;
     let code : Nat := 0;
     let service : Nat := BitVec.toNat (s.node.reg mgtPage (requestOff ↑slot)) / 2 ^ 24;
     let command : Nat := BitVec.toNat (s.node.reg mgtPage (requestOff ↑slot)) / 2 ^ 16 % 256;
     s.node.alive = true ∧ s.node.mgmt.running = true ∧ s.node.slotBusy ↑slot = true ∧ s.node.lengthBad slot = false ∧ code < 256 ∧
       knownService service = true ∧ knownCommand service command = true ∧ service ≠ 5 ∧ service ≠ 6) ∧
    (let s : State := { node := (slotBusy 0).node.setReg mgtPage (requestOff 0) 0x05010000 };
     let slot : Fin 4 := 0;
     let code : Nat := 0;
     let service : Nat := BitVec.toNat (s.node.reg mgtPage (requestOff ↑slot)) / 2 ^ 24;
     s.node.alive = true ∧ s.node.mgmt.running = true ∧ s.node.slotBusy ↑slot = true ∧ s.node.lengthBad slot = false ∧ code < 256 ∧
       (service = 5 ∨ service = 6)) ∧
    (let s : State := { node := (slotBusy 0).node.setReg mgtPage (requestOff 0) 0x0B010000 };
     let slot : Fin 4 := 0;
     let code : Nat := 0;
     let service : Nat := BitVec.toNat (s.node.reg mgtPage (requestOff ↑slot)) / 2 ^ 24;
     s.node.alive = true ∧ s.node.mgmt.running = true ∧ s.node.slotBusy ↑slot = true ∧ s.node.lengthBad slot = false ∧ code < 256 ∧
       (service = 0 ∨ 10 < service)) ∧
    (let s : State := { node := (slotBusy 0).node.setReg mgtPage (requestOff 0) 0x01040000 };
     let slot : Fin 4 := 0;
     let code : Nat := 0;
     let service : Nat := BitVec.toNat (s.node.reg mgtPage (requestOff ↑slot)) / 2 ^ 24;
     let command : Nat := BitVec.toNat (s.node.reg mgtPage (requestOff ↑slot)) / 2 ^ 16 % 256;
     s.node.alive = true ∧ s.node.mgmt.running = true ∧ s.node.slotBusy ↑slot = true ∧ s.node.lengthBad slot = false ∧ code < 256 ∧
       knownService service = true ∧ knownCommand service command = false) ∧
    (let s : State := { node := (slotBusy 0).node.setReg mgtPage (requestOff 0) 0x06010000 };
     let slot : Fin 4 := 0;
     s.node.alive = true ∧ s.node.mgmt.running = true ∧ s.node.slotBusy slot = true ∧
       (s.node.reg mgtPage (requestOff slot)).toNat / 2 ^ 24 = 6) := by
  delta Reachable; refine ⟨?_, ?_, ?_, ?_, ?_, ?_,
    ⟨?_, ?_, ?_, ?_⟩⟩ <;> decide +kernel

/-- The hypotheses of `RouteJobQueries` hold together. -/
theorem witness_RouteJobQueries :
    (let s : State := withJobs [];
     let slot : Fin 4 := 0;
     s.node.alive = true ∧
       s.node.mgmt.running = true ∧
         s.node.slotBusy ↑slot = true ∧ s.node.lengthBad slot = false ∧
           let count : Nat := (List.filter (fun j => decide (j.num ≠ 0)) s.node.rt.jobs).length;
           count < 4) ∧
    (let s : State := withJobs [];
     let slot : Fin 4 := 0;
     s.node.alive = true ∧
       s.node.mgmt.running = true ∧
         s.node.slotBusy ↑slot = true ∧ s.node.lengthBad slot = false ∧
           let num : Nat := 0;
           s.node.job num = none) ∧
    (let s : State := oneJob JobState.compiling;
     let slot : Fin 4 := 0;
     s.node.alive = true ∧
       s.node.mgmt.running = true ∧
         s.node.slotBusy ↑slot = true ∧ s.node.lengthBad slot = false ∧
           let num : Nat := 5;
           let j : Job := jobIn JobState.compiling;
           s.node.job num = some j ∧ j.state = JobState.compiling) ∧
    (let s : State := oneJob JobState.compiling;
     let slot : Fin 4 := 0;
     s.node.alive = true ∧
       s.node.mgmt.running = true ∧
         s.node.slotBusy ↑slot = true ∧ s.node.lengthBad slot = false ∧
           let num : Nat := 5;
           let j : Job := jobIn JobState.compiling;
           s.node.job num = some j ∧ j.state ≠ JobState.staged ∧ j.waiting = []) ∧
    (let s : State := oneJob JobState.admitted;
     let slot : Fin 4 := 0;
     s.node.alive = true ∧
       s.node.mgmt.running = true ∧
         s.node.slotBusy ↑slot = true ∧ s.node.lengthBad slot = false ∧
           let num : Nat := 5;
           let j : Job := jobIn JobState.admitted;
           s.node.job num = some j ∧
             let code : Nat := 2;
             (j.state, code) ∈
                 [(JobState.admitted, 2), (JobState.staged, 3), (JobState.stale, 5), (JobState.committed, 6)] ∧
               s.node.rt.lostDetail = none) ∧
    (let s : State := oneJob JobState.staged;
     let slot : Fin 4 := 0;
     s.node.alive = true ∧
       s.node.mgmt.running = true ∧
         s.node.slotBusy ↑slot = true ∧ s.node.lengthBad slot = false ∧
           let num : Nat := 5;
           let j : Job := jobIn JobState.staged;
           s.node.job num = some j ∧ j.state = JobState.staged) ∧
    (let s : State := oneJob JobState.refused;
     let slot : Fin 4 := 0;
     s.node.alive = true ∧
       s.node.mgmt.running = true ∧
         s.node.slotBusy ↑slot = true ∧ s.node.lengthBad slot = false ∧
           let num : Nat := 5;
           let j : Job := jobIn JobState.refused;
           s.node.job num = some j ∧ j.state = JobState.refused ∧ Node.loadReason j.detail = true) ∧
    (let s : State := fourJobs;
     let slot : Fin 4 := 0;
     s.node.alive = true ∧
       s.node.mgmt.running = true ∧
         s.node.slotBusy ↑slot = true ∧ s.node.lengthBad slot = false ∧
           let count : Nat := (List.filter (fun j => decide (j.num ≠ 0)) s.node.rt.jobs).length;
           4 ≤ count) ∧
    (let s : State := withJobs [jobNoLoad 0];
     let slot : Fin 4 := 0;
     s.node.alive = true ∧
       s.node.mgmt.running = true ∧
         s.node.slotBusy ↑slot = true ∧ s.node.lengthBad slot = false ∧
           let num : Nat := 5;
           let j : Job := jobNoLoad 0;
           s.node.job num = some j ∧ j.state = JobState.refused ∧ Node.loadReason j.detail = false) ∧
    (let s : State := { node := (withJobs []).node.setReg mgtPage (requestOff 0) 0x02010000 };
     let slot : Fin 4 := 0;
     s.node.alive = true ∧ s.node.mgmt.running = true ∧ s.node.slotBusy slot = true ∧ s.node.lengthBad slot = true) := by
  refine ⟨?_, ?_, ?_, ?_, ?_, ?_,
    ⟨?_, ?_, ?_, ?_⟩⟩ <;> decide +kernel

/-- The hypotheses of `RouteStaging` hold together. -/
theorem witness_RouteStaging :
    (let s : State := oneJob JobState.compiling;
     s.node.alive = true ∧
       s.node.mgmt.running = true ∧
         let slot : Fin 4 := 0;
         let num : Nat := 5;
         let j : Job := jobIn JobState.compiling;
         s.node.slotBusy ↑slot = true ∧ s.node.lengthBad slot = false ∧
           s.node.job num = some j ∧
             s.node.running = true ∧
               (j.state = JobState.compiling ∨ j.state = JobState.admitted ∧ s.node.stagedJob.isSome = true)) ∧
    (let s : State := oneJob JobState.admitted;
     s.node.alive = true ∧
       s.node.mgmt.running = true ∧
         let slot : Fin 4 := 0;
         let num : Nat := 5;
         let j : Job := jobIn JobState.admitted;
         s.node.slotBusy ↑slot = true ∧ s.node.lengthBad slot = false ∧
           s.node.job num = some j ∧ s.node.running = true ∧ j.state = JobState.admitted ∧ s.node.mayStage = true) ∧
    (let s : State := oneJob JobState.refused;
     s.node.alive = true ∧
       s.node.mgmt.running = true ∧
         let slot : Fin 4 := 0;
         let num : Nat := 5;
         let j : Job := jobIn JobState.refused;
         s.node.slotBusy ↑slot = true ∧ s.node.lengthBad slot = false ∧ s.node.job num = some j ∧ s.node.running = true ∧ j.state = JobState.refused) ∧
    (let s : State := heldKey;
     s.node.alive = true ∧
       s.node.mgmt.running = true ∧
         let slot : Fin 4 := 0;
         let num : Nat := 5;
         let j : Job := jobIn JobState.admitted;
         s.node.slotBusy ↑slot = true ∧ s.node.lengthBad slot = false ∧
           s.node.job num = some j ∧
             s.node.running = true ∧
               j.state = JobState.admitted ∧ s.node.stagedJob.isSome = false ∧ s.node.mayStage = false) ∧
    (let s : State := waitsSlot;
     s.node.alive = true ∧
       s.node.mgmt.running = true ∧
         let j : Job := jobWaits;
         s.node.running = true ∧
           s.node.mayStage = true ∧
             List.find? (fun x => decide (x.state = JobState.admitted) && (x.auto || !x.waiting.isEmpty))
                 s.node.rt.jobs =
               some j) ∧
    (let s : State := readmitsCopying;
     s.node.alive = true ∧
       s.node.mgmt.running = true ∧ s.node.xpt.copying = true ∧ s.node.running = true ∧ s.node.xpt.swapWaits = false) ∧
    (let s : State := oneJob JobState.compiling;
     let num : Nat := 5;
     let j : Job := jobIn JobState.compiling;
     let cfg : Cfg := { cfgX with items := [] };
     let known : Bool := (s.node.checkRefusal (Graph.bundled cfg)).isSome || s.node.placed (Graph.bundled cfg);
     s.node.alive = true ∧ s.node.mgmt.running = true ∧ s.node.job num = some j ∧ j.state = JobState.compiling ∧
       (∀ (x : Job), x ∈ s.node.rt.jobs → x.num = num → x.auto = false) ∧ s.node.boot.job ≠ some num ∧ known = false) ∧
    (let s : State := oneJob JobState.compiling;
     let num : Nat := 5;
     let j : Job := jobIn JobState.compiling;
     let cfg : Cfg := cfgX;
     let known : Bool := (s.node.checkRefusal (Graph.bundled cfg)).isSome || s.node.placed (Graph.bundled cfg);
     s.node.alive = true ∧ s.node.mgmt.running = true ∧ s.node.job num = some j ∧ j.state = JobState.compiling ∧
       (∀ (x : Job), x ∈ s.node.rt.jobs → x.num = num → x.auto = false) ∧ s.node.boot.job ≠ some num ∧ known = true) ∧
    (let s : State := readmits;
     let inForce : Option Cfg := if s.node.rt.inForce = true then some s.node.rt.cfg else none;
     let cfg : Cfg := { };
     let v : Node.Verdict := s.node.admission inForce (Graph.bundled cfg);
     s.node.alive = true ∧ s.node.mgmt.running = true ∧ s.node.running = true ∧ s.node.rt.readmitWaits = true ∧
       s.node.rt.inForce = true ∧ s.node.mayStage = true ∧ Graph.plan (Graph.bundled cfg) = Graph.plan s.node.rt.cfg ∧
       v.refusal = none ∧ s.node.placed (Graph.bundled cfg) = true) ∧
    (let s : State := readmitsHuge;
     let inForce : Option Cfg := if s.node.rt.inForce = true then some s.node.rt.cfg else none;
     let cfg : Cfg := readmitsHuge.node.rt.cfg;
     let v : Node.Verdict := s.node.admission inForce (Graph.bundled cfg);
     let d : Nat := (readmitsHuge.node.admission (some readmitsHuge.node.rt.cfg) (Graph.bundled readmitsHuge.node.rt.cfg)).refusal.getD 0;
     s.node.alive = true ∧ s.node.mgmt.running = true ∧ s.node.running = true ∧ s.node.rt.readmitWaits = true ∧
       s.node.rt.inForce = true ∧ s.node.mayStage = true ∧ Graph.plan (Graph.bundled cfg) = Graph.plan s.node.rt.cfg ∧
       v.refusal = some d ∧
       ((s.node.checkRefusal (Graph.bundled cfg)).isSome = true ∨ s.node.placed (Graph.bundled cfg) = true)) := by
  refine ⟨?_, ?_, ?_, ?_, ?_, ?_,
    ⟨?_, ?_, ?_, ?_⟩⟩ <;> decide +kernel

/-- The hypotheses of `ShutterEvents` hold together. -/
theorem witness_ShutterEvents :
    (let s : State := sBase;
     s.node.alive = true ∧
       let b : Nat := 1;
       1 ≤ b ∧ b ≤ 255) ∧
    (let s : State := sBase;
     s.node.alive = true ∧ s.node.sht.mutePin = false) ∧
    (let s : State := sBase;
     s.node.alive = true ∧
       let src : Src := pcie;
       Reachable s shtPage ∧
         ¬src.port ∈ (s.node.hdr shtPage).keyArmed ∧ (s.node.shut s.node.selShutter).present = false) ∧
    (let s : State := shutSt site { pstate := PState.fading };
     s.node.alive = true ∧
       let id : ShutterId := site;
       (s.node.shut id).present = true ∧
         let sh : Shutter := s.node.shut id;
         sh.pstate = PState.fading) ∧
    (let s : State := shutSt site { pstate := PState.restoring };
     s.node.alive = true ∧
       let id : ShutterId := site;
       (s.node.shut id).present = true ∧
         let sh : Shutter := s.node.shut id;
         sh.pstate = PState.restoring) ∧
    (let s : State := shutSt site { held := true };
     s.node.alive = true ∧
       let path : ShutterId := site;
       (s.node.shut path).present = true ∧ (s.node.shut path).held = true ∧ (s.node.shut path).inHold = false) ∧
    (let s : State := { node := selSite (shutSt site { }).node };
     s.node.alive = true ∧
       let src : Src := pcie;
       Reachable s shtPage ∧
         ¬src.port ∈ (s.node.hdr shtPage).keyArmed ∧
           let id : ShutterId := site;
           id = s.node.selShutter ∧
             1 ≤ id.kind ∧
               id.kind ≤ 4 ∧
                 (s.node.shut id).present = true ∧
                   (s.node.shut id).dropping = false ∧
                     s.node.fld shtPage Fld.pgCtrlCommitMode ≠ 2 ∧
                       s.node.sht.queue.length < 256 ∧ ∀ (e : ShutterId × ShutCfg), e ∈ s.node.sht.queue → e.fst ≠
                         id) ∧
    (let s : State := shutSt site { };
     let id : ShutterId := site;
     let req : ShutCfg := { };
     let k : Nat := 0;
     let was : Shutter := s.node.shut id;
     let sh : Shutter := runTo (Nat.min k s.node.s) was;
     let target : Word := if (sh.unfed || sh.forced || req.shut) = true then 0 else req.gain;
     s.node.alive = true ∧ was.present = true ∧ was.held = false ∧ sh.ramp = none ∧ target ≠ sh.gain) ∧
    (let s : State := shutSt site { };
     let id : ShutterId := site;
     let req : ShutCfg := { gain := 0 };
     let k : Nat := 6;
     let was : Shutter := s.node.shut id;
     let sh : Shutter := runTo (Nat.min k s.node.s) was;
     let target : Word := if (sh.unfed || sh.forced || req.shut) = true then 0 else req.gain;
     s.node.alive = true ∧ was.present = true ∧ was.held = false ∧ sh.ramp = none ∧ target = sh.gain) ∧
    (let s : State := shutSt site { ramp := some rampA };
     let id : ShutterId := site;
     let req : ShutCfg := { gain := 0 };
     let k : Nat := 6;
     let was : Shutter := s.node.shut id;
     let sh : Shutter := runTo (Nat.min k s.node.s) was;
     let target : Word := if (sh.unfed || sh.forced || req.shut) = true then 0 else req.gain;
     s.node.alive = true ∧ was.present = true ∧ was.held = false ∧ (match sh.ramp with | some r => decide (target = r.target) | none => false) = true) ∧
    (let s : State := shutSt site { ramp := some rampA };
     let id : ShutterId := site;
     let req : ShutCfg := { gain := 5 };
     let k : Nat := 6;
     let was : Shutter := s.node.shut id;
     let sh : Shutter := runTo (Nat.min k s.node.s) was;
     let target : Word := if (sh.unfed || sh.forced || req.shut) = true then 0 else req.gain;
     s.node.alive = true ∧ was.present = true ∧ was.held = false ∧ (match sh.ramp with | some r => decide (target ≠ r.target ∧ target ≠ r.start) | none => false) = true) ∧
    (let s : State := shutSt site { ramp := some rampA };
     let id : ShutterId := site;
     let req : ShutCfg := { };
     let k : Nat := 6;
     let was : Shutter := s.node.shut id;
     let sh : Shutter := runTo (Nat.min k s.node.s) was;
     let target : Word := if (sh.unfed || sh.forced || req.shut) = true then 0 else req.gain;
     s.node.alive = true ∧ was.present = true ∧ was.held = false ∧ (match sh.ramp with | some r => decide (target ≠ r.target ∧ target = r.start ∧ 0 < r.done) | none => false) = true) ∧
    (let s : State := shutSt site { ramp := some { rampA with done := 0 } };
     let id : ShutterId := site;
     let req : ShutCfg := { };
     let k : Nat := 0;
     let was : Shutter := s.node.shut id;
     let sh : Shutter := runTo (Nat.min k s.node.s) was;
     let target : Word := if (sh.unfed || sh.forced || req.shut) = true then 0 else req.gain;
     s.node.alive = true ∧ was.present = true ∧ was.held = false ∧ (match sh.ramp with | some r => decide (target ≠ r.target ∧ target = r.start ∧ r.done = 0) | none => false) = true) := by
  delta Reachable; refine ⟨?_, ?_, ?_, ?_, ?_, ?_,
    ⟨?_, ?_, ?_, ?_, ?_, ?_, ?_⟩⟩ <;> decide +kernel

/-- The hypotheses of `CoefficientBanks` hold together. -/
theorem witness_CoefficientBanks :
    (let s : State := sBase;
     let d : Die := 0;
     s.node.alive = true ∧
       (s.node.die ↑d).poisoned = [] ∧
         (s.node.die ↑d).steerCopying = false ∧
           let src : Src := pcie;
           Reachable s (bqdPage ↑d) ∧
             ¬src.port ∈ (s.node.hdr (bqdPage ↑d)).keyArmed ∧
               s.node.block (s.node.bqdSel ↑d).fst (s.node.bqdSel ↑d).snd = none) ∧
    (let s : State := sBase;
     let d : Die := 0;
     s.node.alive = true ∧
       (s.node.die ↑d).poisoned = [] ∧
         (s.node.die ↑d).steerCopying = false ∧
           let src : Src := pcie;
           Reachable s (firPage ↑d) ∧
             ¬src.port ∈ (s.node.hdr (firPage ↑d)).keyArmed ∧
               s.node.chain (s.node.fld (firPage ↑d) Fld.firSelStrip) = none) ∧
    (let s : State := inCfg id;
     let d : Die := 0;
     s.node.alive = true ∧
       (s.node.die ↑d).poisoned = [] ∧
         (s.node.die ↑d).steerCopying = false ∧
           let st : Node → Nat → Nat → StripSt := fun n kind idx => n.strip kind idx;
           let strips : List (Nat × Nat) := [(1, 3), (2, 7), (3, 5)];
           strips = s.node.dieStrips ↑d ∧ ∀ (e : Nat × Nat), e ∈ strips → (st s.node e.fst e.snd).firDue = false) ∧
    (let s : State := inCfg id;
     let d : Die := 0;
     s.node.alive = true ∧
       (s.node.die ↑d).poisoned = [] ∧
         (s.node.die ↑d).steerCopying = false ∧
           let st : Node → Nat → Nat → StripSt := fun n kind idx => n.strip kind idx;
           let strips : List (Nat × Nat) := [(1, 3), (2, 7), (3, 5)];
           strips = s.node.dieStrips ↑d ∧ ∀ (e : Nat × Nat), e ∈ strips → (st s.node e.fst e.snd).due = false) ∧
    (let s : State := select5 (inCfg id);
     let d : Die := 0;
     s.node.alive = true ∧
       (s.node.die ↑d).poisoned = [] ∧
         (s.node.die ↑d).steerCopying = false ∧
           let src : Src := pcie;
           Reachable s (bqdPage ↑d) ∧
             ¬src.port ∈ (s.node.hdr (bqdPage ↑d)).keyArmed ∧
               let kind : Nat := 3;
               let idx : Nat := 5;
               let b : BankCfg := { die := 0, size := 96, loc0 := 16384, loc1 := 20480, sections := 2 };
               let r : Nat := 0;
               s.node.bqdSel ↑d = (kind, idx) ∧
                 s.node.block kind idx = some b ∧
                   b.die = ↑d ∧
                     recordOff kind b.sections (s.node.fld (bqdPage ↑d) Fld.bqdSelRecord) = some r ∧
                       let t : StripSt := s.node.strip kind idx;
                       t.snapped = false ∧ t.due = false ∧ t.prep = false) ∧
    (let s : State := select5 (inCfg id);
     let d : Die := 0;
     s.node.alive = true ∧
       (s.node.die ↑d).poisoned = [] ∧
         (s.node.die ↑d).steerCopying = false ∧
           let src : Src := pcie;
           Reachable s (bqdPage ↑d) ∧
             ¬src.port ∈ (s.node.hdr (bqdPage ↑d)).keyArmed ∧
               let kind : Nat := 3;
               let idx : Nat := 5;
               let b : BankCfg := { die := 0, size := 96, loc0 := 16384, loc1 := 20480, sections := 2 };
               let r : Nat := 0;
               s.node.bqdSel ↑d = (kind, idx) ∧
                 s.node.block kind idx = some b ∧
                   b.die = ↑d ∧
                     recordOff kind b.sections (s.node.fld (bqdPage ↑d) Fld.bqdSelRecord) = some r ∧
                       s.node.fld (bqdPage ↑d) Fld.pgCtrlCommitMode ≠ 2) ∧
    (let s : State := select5 (inCfg id);
     let d : Die := 0;
     s.node.alive = true ∧
       (s.node.die ↑d).poisoned = [] ∧
         (s.node.die ↑d).steerCopying = false ∧
           let src : Src := pcie;
           Reachable s (firPage ↑d) ∧
             ¬src.port ∈ (s.node.hdr (firPage ↑d)).keyArmed ∧
               let idx : Nat := 5;
               let b : BankCfg := { die := 0, size := 256, loc0 := 32768, loc1 := 65536, sections := 1 };
               s.node.fld (firPage ↑d) Fld.firSelStrip = idx ∧
                 s.node.chain idx = some b ∧
                   b.die = ↑d ∧
                     let t : StripSt := s.node.strip 3 idx;
                     t.firSnapped = false ∧ t.firDue = false) ∧
    (let s : State := select5 (inCfg id);
     let d : Die := 0;
     s.node.alive = true ∧
       (s.node.die ↑d).poisoned = [] ∧
         (s.node.die ↑d).steerCopying = false ∧
           let src : Src := pcie;
           Reachable s (firPage ↑d) ∧
             ¬src.port ∈ (s.node.hdr (firPage ↑d)).keyArmed ∧
               let idx : Nat := 5;
               let b : BankCfg := { die := 0, size := 256, loc0 := 32768, loc1 := 65536, sections := 1 };
               s.node.fld (firPage ↑d) Fld.firSelStrip = idx ∧
                 s.node.chain idx = some b ∧ b.die = ↑d ∧ s.node.fld (firPage ↑d) Fld.pgCtrlCommitMode ≠ 2) ∧
    (let s : State := immediate5 (inCfg id);
     let d : Die := 0;
     s.node.alive = true ∧
       (s.node.die ↑d).poisoned = [] ∧
         (s.node.die ↑d).steerCopying = false ∧
           let src : Src := pcie;
           Reachable s (bqdPage ↑d) ∧
             ¬src.port ∈ (s.node.hdr (bqdPage ↑d)).keyArmed ∧
               let kind : Nat := 3;
               let idx : Nat := 5;
               let b : BankCfg := { die := 0, size := 96, loc0 := 16384, loc1 := 20480, sections := 2 };
               let r : Nat := 0;
               s.node.bqdSel ↑d = (kind, idx) ∧
                 s.node.block kind idx = some b ∧
                   b.die = ↑d ∧
                     recordOff kind b.sections (s.node.fld (bqdPage ↑d) Fld.bqdSelRecord) = some r ∧
                       s.node.fld (bqdPage ↑d) Fld.pgCtrlCommitMode = 2) ∧
    (let s : State := immediate5 (inCfg id);
     let d : Die := 0;
     s.node.alive = true ∧
       (s.node.die ↑d).poisoned = [] ∧
         (s.node.die ↑d).steerCopying = false ∧
           let src : Src := pcie;
           Reachable s (firPage ↑d) ∧
             ¬src.port ∈ (s.node.hdr (firPage ↑d)).keyArmed ∧
               let idx : Nat := 5;
               let b : BankCfg := { die := 0, size := 256, loc0 := 32768, loc1 := 65536, sections := 1 };
               s.node.fld (firPage ↑d) Fld.firSelStrip = idx ∧
                 s.node.chain idx = some b ∧ b.die = ↑d ∧ s.node.fld (firPage ↑d) Fld.pgCtrlCommitMode = 2) ∧
    (let s : State :=
       select5
         (inCfg fun t =>
           { t with bank := true, prep := true, firPrep := true });
     let d : Die := 0;
     s.node.alive = true ∧
       (s.node.die ↑d).poisoned = [] ∧
         (s.node.die ↑d).steerCopying = false ∧
           let src : Src := pcie;
           Reachable s (bqdPage ↑d) ∧
             ¬src.port ∈ (s.node.hdr (bqdPage ↑d)).keyArmed ∧
               let kind : Nat := 3;
               let idx : Nat := 5;
               let b : BankCfg := { die := 0, size := 96, loc0 := 16384, loc1 := 20480, sections := 2 };
               let r : Nat := 0;
               s.node.bqdSel ↑d = (kind, idx) ∧
                 s.node.block kind idx = some b ∧
                   b.die = ↑d ∧
                     recordOff kind b.sections (s.node.fld (bqdPage ↑d) Fld.bqdSelRecord) = some r ∧
                       let t : StripSt := s.node.strip kind idx;
                       t.snapped = false ∧ t.due = false ∧ t.prep = true) ∧
    (let s : State :=
       select5
         (inCfg fun t =>
           { t with bank := true, prep := true, firPrep := true });
     let d : Die := 0;
     s.node.alive = true ∧
       (s.node.die ↑d).poisoned = [] ∧
         (s.node.die ↑d).steerCopying = false ∧
           let st : Node → Nat → Nat → StripSt := fun n kind idx => n.strip kind idx;
           let kind : Nat := 2;
           let idx : Nat := 7;
           let b : BankCfg := { die := 0, size := 64, loc0 := 4096, loc1 := 8192, sections := 2 };
           s.node.block kind idx = some b ∧
             b.die = ↑d ∧ (st s.node kind idx).prep = true ∧ (st s.node kind idx).heldAcc = []) ∧
    (let s : State :=
       select5
         (inCfg fun t =>
           { t with bank := true, prep := true, firPrep := true });
     let d : Die := 0;
     s.node.alive = true ∧
       (s.node.die ↑d).poisoned = [] ∧
         (s.node.die ↑d).steerCopying = false ∧
           let st : Node → Nat → Nat → StripSt := fun n kind idx => n.strip kind idx;
           let idx : Nat := 5;
           let b : BankCfg := { die := 0, size := 256, loc0 := 32768, loc1 := 65536, sections := 1 };
           s.node.chain idx = some b ∧
             b.die = ↑d ∧
               (st s.node 3 idx).firPrep = true ∧
                 Memory.wf s.node.mem = true ∧ (b.loc0 + b.size ≤ b.loc1 ∨ b.loc1 + b.size ≤ b.loc0)) ∧
    (let s : State :=
       select5
         (inCfg fun t =>
           { t with due := true, firSnapped := true });
     let d : Die := 0;
     s.node.alive = true ∧
       (s.node.die ↑d).poisoned = [] ∧
         (s.node.die ↑d).steerCopying = false ∧
           let src : Src := pcie;
           Reachable s (bqdPage ↑d) ∧
             ¬src.port ∈ (s.node.hdr (bqdPage ↑d)).keyArmed ∧
               let kind : Nat := 3;
               let idx : Nat := 5;
               let b : BankCfg := { die := 0, size := 96, loc0 := 16384, loc1 := 20480, sections := 2 };
               let r : Nat := 0;
               s.node.bqdSel ↑d = (kind, idx) ∧
                 s.node.block kind idx = some b ∧
                   b.die = ↑d ∧
                     recordOff kind b.sections (s.node.fld (bqdPage ↑d) Fld.bqdSelRecord) = some r ∧
                       let t : StripSt := s.node.strip kind idx;
                       t.snapped = true ∨ t.due = true) ∧
    (let s : State :=
       select5
         (inCfg fun t =>
           { t with due := true, firSnapped := true });
     let d : Die := 0;
     s.node.alive = true ∧
       (s.node.die ↑d).poisoned = [] ∧
         (s.node.die ↑d).steerCopying = false ∧
           let src : Src := pcie;
           Reachable s (firPage ↑d) ∧
             ¬src.port ∈ (s.node.hdr (firPage ↑d)).keyArmed ∧
               let idx : Nat := 5;
               let b : BankCfg := { die := 0, size := 256, loc0 := 32768, loc1 := 65536, sections := 1 };
               s.node.fld (firPage ↑d) Fld.firSelStrip = idx ∧
                 s.node.chain idx = some b ∧
                   b.die = ↑d ∧
                     let t : StripSt := s.node.strip 3 idx;
                     t.firSnapped = true ∨ t.firDue = true) ∧
    (let s : State := immediate5 (inCfg (fun t => { t with prep := true, firPrep := true }));
     let d : Die := 0;
     let src : Src := pcie;
     let kind : Nat := 3;
     let idx : Nat := 5;
     let b : BankCfg := { die := 0, size := 96, loc0 := 16384, loc1 := 20480, sections := 2 };
     let r : Nat := 0;
     let t : StripSt := s.node.strip kind idx;
     s.node.alive = true ∧ (s.node.die ↑d).poisoned = [] ∧ (s.node.die ↑d).steerCopying = false ∧
       Reachable s (bqdPage ↑d) ∧ ¬src.port ∈ (s.node.hdr (bqdPage ↑d)).keyArmed ∧ s.node.bqdSel ↑d = (kind, idx) ∧
       s.node.block kind idx = some b ∧ b.die = ↑d ∧
       recordOff kind b.sections (s.node.fld (bqdPage ↑d) Fld.bqdSelRecord) = some r ∧
       s.node.fld (bqdPage ↑d) Fld.pgCtrlCommitMode = 2 ∧ (t.prep = true ∨ s.node.stripStarted (↑d) kind idx = true) ∧
       s.node.running = true) ∧
    (let s : State := immediate5 (inCfg id);
     let d : Die := 0;
     let src : Src := pcie;
     let kind : Nat := 3;
     let idx : Nat := 5;
     let b : BankCfg := { die := 0, size := 96, loc0 := 16384, loc1 := 20480, sections := 2 };
     let r : Nat := 0;
     let t : StripSt := s.node.strip kind idx;
     s.node.alive = true ∧ (s.node.die ↑d).poisoned = [] ∧ (s.node.die ↑d).steerCopying = false ∧
       Reachable s (bqdPage ↑d) ∧ ¬src.port ∈ (s.node.hdr (bqdPage ↑d)).keyArmed ∧ s.node.bqdSel ↑d = (kind, idx) ∧
       s.node.block kind idx = some b ∧ b.die = ↑d ∧
       recordOff kind b.sections (s.node.fld (bqdPage ↑d) Fld.bqdSelRecord) = some r ∧
       s.node.fld (bqdPage ↑d) Fld.pgCtrlCommitMode = 2 ∧ t.prep = false ∧ s.node.running = true ∧
       s.node.stripStarted (↑d) kind idx = false) ∧
    (let s : State := { node := { (immediate5 (inCfg id)).node with clk := {} } };
     let d : Die := 0;
     let src : Src := pcie;
     let kind : Nat := 3;
     let idx : Nat := 5;
     let b : BankCfg := { die := 0, size := 96, loc0 := 16384, loc1 := 20480, sections := 2 };
     let r : Nat := 0;
     let t : StripSt := s.node.strip kind idx;
     s.node.alive = true ∧ (s.node.die ↑d).poisoned = [] ∧ (s.node.die ↑d).steerCopying = false ∧
       Reachable s (bqdPage ↑d) ∧ ¬src.port ∈ (s.node.hdr (bqdPage ↑d)).keyArmed ∧ s.node.bqdSel ↑d = (kind, idx) ∧
       s.node.block kind idx = some b ∧ b.die = ↑d ∧
       recordOff kind b.sections (s.node.fld (bqdPage ↑d) Fld.bqdSelRecord) = some r ∧
       s.node.fld (bqdPage ↑d) Fld.pgCtrlCommitMode = 2 ∧ t.prep = false ∧ s.node.running = false) ∧
    (let s : State := immediate5 (inCfg (fun t => { t with prep := true, firPrep := true }));
     let d : Die := 0;
     let src : Src := pcie;
     let idx : Nat := 5;
     let b : BankCfg := { die := 0, size := 256, loc0 := 32768, loc1 := 65536, sections := 1 };
     let t : StripSt := s.node.strip 3 idx;
     s.node.alive = true ∧ (s.node.die ↑d).poisoned = [] ∧ (s.node.die ↑d).steerCopying = false ∧
       Reachable s (firPage ↑d) ∧ ¬src.port ∈ (s.node.hdr (firPage ↑d)).keyArmed ∧
       s.node.fld (firPage ↑d) Fld.firSelStrip = idx ∧ s.node.chain idx = some b ∧ b.die = ↑d ∧
       s.node.fld (firPage ↑d) Fld.pgCtrlCommitMode = 2 ∧ (t.firPrep = true ∨ s.node.stripStarted (↑d) 3 idx = true) ∧
       s.node.running = true) ∧
    (let s : State := immediate5 (inCfg id);
     let d : Die := 0;
     let src : Src := pcie;
     let idx : Nat := 5;
     let b : BankCfg := { die := 0, size := 256, loc0 := 32768, loc1 := 65536, sections := 1 };
     let t : StripSt := s.node.strip 3 idx;
     s.node.alive = true ∧ (s.node.die ↑d).poisoned = [] ∧ (s.node.die ↑d).steerCopying = false ∧
       Reachable s (firPage ↑d) ∧ ¬src.port ∈ (s.node.hdr (firPage ↑d)).keyArmed ∧
       s.node.fld (firPage ↑d) Fld.firSelStrip = idx ∧ s.node.chain idx = some b ∧ b.die = ↑d ∧
       s.node.fld (firPage ↑d) Fld.pgCtrlCommitMode = 2 ∧ t.firPrep = false ∧ s.node.running = true ∧
       s.node.stripStarted (↑d) 3 idx = false) ∧
    (let s : State := { node := { (immediate5 (inCfg id)).node with clk := {} } };
     let d : Die := 0;
     let src : Src := pcie;
     let idx : Nat := 5;
     let b : BankCfg := { die := 0, size := 256, loc0 := 32768, loc1 := 65536, sections := 1 };
     let t : StripSt := s.node.strip 3 idx;
     s.node.alive = true ∧ (s.node.die ↑d).poisoned = [] ∧ (s.node.die ↑d).steerCopying = false ∧
       Reachable s (firPage ↑d) ∧ ¬src.port ∈ (s.node.hdr (firPage ↑d)).keyArmed ∧
       s.node.fld (firPage ↑d) Fld.firSelStrip = idx ∧ s.node.chain idx = some b ∧ b.die = ↑d ∧
       s.node.fld (firPage ↑d) Fld.pgCtrlCommitMode = 2 ∧ t.firPrep = false ∧ s.node.running = false) ∧
    (let s : State := select5 (inCfg fun t => { t with snapped := true, prep := true });
     let d : Die := 0;
     let src : Src := pcie;
     let t : StripSt := s.node.strip 3 5;
     s.node.alive = true ∧ (s.node.die d).poisoned = [] ∧ (s.node.die d).steerCopying = false ∧ Reachable s (bqdPage d) ∧
       src.port ∉ (s.node.hdr (bqdPage d)).keyArmed ∧ s.node.bqdSel d = (3, 5) ∧ (s.node.block 3 5).isSome = true ∧ t.prep = true ∧ t.snapped = true) ∧
    (let s : State := select5 (inCfg fun t => { t with due := true });
     let d : Die := 0;
     let src : Src := pcie;
     let t : StripSt := s.node.strip 3 5;
     s.node.alive = true ∧ (s.node.die d).poisoned = [] ∧ (s.node.die d).steerCopying = false ∧ Reachable s (bqdPage d) ∧
       src.port ∉ (s.node.hdr (bqdPage d)).keyArmed ∧ s.node.bqdSel d = (3, 5) ∧ (s.node.block 3 5).isSome = true ∧ t.prep = false ∧
       (t.snapped = true ∨ t.due = true)) := by
  delta Reachable; refine ⟨?_, ?_, ?_, ?_, ?_, ?_,
    ⟨?_, ?_, ?_, ?_, ?_, ?_,
    ⟨?_, ?_, ?_, ?_, ?_, ?_,
    ⟨?_, ?_, ?_, ?_, ?_⟩⟩⟩⟩
    <;> decide +kernel

/-- The hypotheses of `DelayAndSteering` hold together. -/
theorem witness_DelayAndSteering :
    (let s : State :=
       inCfg fun t =>
         { t with mode := DelayMode.gliding, len := 10, done := 4 };
     let d : Die := 0;
     let kind : Nat := 3;
     let idx : Nat := 5;
     s.node.alive = true ∧
       let t : StripSt := s.node.strip kind idx;
       let c : DelayCfg := (cfgNode.delayCfg 3 5).getD { die := 0, cls := 0, frac := false, cap := 0 };
       s.node.delayCfg kind idx = some c ∧ c.die = ↑d ∧ t.mode = DelayMode.gliding) ∧
    (let s : State :=
       inCfg fun t =>
         { t with target := 700, mode := DelayMode.jumping };
     let d : Die := 0;
     let kind : Nat := 3;
     let idx : Nat := 5;
     s.node.alive = true ∧
       let t : StripSt := s.node.strip kind idx;
       let c : DelayCfg := (cfgNode.delayCfg 3 5).getD { die := 0, cls := 0, frac := false, cap := 0 };
       s.node.delayCfg kind idx = some c ∧ c.die = ↑d ∧ t.mode = DelayMode.jumping) ∧
    (let s : State :=
       inCfg fun t =>
         { t with mode := DelayMode.heldTarget, heldTarget := some (800, 64) };
     let d : Die := 0;
     let kind : Nat := 3;
     let idx : Nat := 5;
     s.node.alive = true ∧
       let t : StripSt := s.node.strip kind idx;
       let c : DelayCfg := (cfgNode.delayCfg 3 5).getD { die := 0, cls := 0, frac := false, cap := 0 };
       s.node.delayCfg kind idx = some c ∧ c.die = ↑d ∧ t.mode = DelayMode.heldTarget) ∧
    (let s : State :=
       inCfg fun t =>
         { t with mode := DelayMode.waitFill, len := 5 };
     let d : Die := 0;
     let kind : Nat := 3;
     let idx : Nat := 5;
     s.node.alive = true ∧
       let t : StripSt := s.node.strip kind idx;
       let c : DelayCfg := (cfgNode.delayCfg 3 5).getD { die := 0, cls := 0, frac := false, cap := 0 };
       s.node.delayCfg kind idx = some c ∧ c.die = ↑d ∧ t.mode = DelayMode.waitFill ∧ t.len ≠ 0) ∧
    (let s : State :=
       inCfg fun t =>
         { t with mode := DelayMode.waitFill };
     let d : Die := 0;
     let kind : Nat := 3;
     let idx : Nat := 5;
     s.node.alive = true ∧
       let t : StripSt := s.node.strip kind idx;
       let c : DelayCfg := (cfgNode.delayCfg 3 5).getD { die := 0, cls := 0, frac := false, cap := 0 };
       s.node.delayCfg kind idx = some c ∧ c.die = ↑d ∧ t.mode = DelayMode.waitFill ∧ t.len = 0) ∧
    (let s : State :=
       inCfg fun t =>
         { t with poison := true, poisonD := 9 };
     let d : Die := 0;
     let kind : Nat := 3;
     let idx : Nat := 5;
     s.node.alive = true ∧
       let t : StripSt := s.node.strip kind idx;
       let c : DelayCfg := (cfgNode.delayCfg 3 5).getD { die := 0, cls := 0, frac := false, cap := 0 };
       kind = 3 ∧ s.node.delayCfg 3 idx = some c ∧ c.die = ↑d ∧ t.poison = true) ∧
    (let s : State := steers;
     let d : Die := 0;
     s.node.alive = true ∧
       let a : Nat := 200704;
       let b : Nat := 262144;
       (s.node.die ↑d).steerCopying = true ∧
         s.node.steerLoc (↑d) (s.node.die ↑d).steerBank = some a ∧
           (s.node.steerLoc ↑d !(s.node.die ↑d).steerBank) = some b ∧
             (a + Node.steerSize ≤ b ∨ b + Node.steerSize ≤ a) ∧
               (s.node.die ↑d).steerHeld = [] ∧ Memory.wf s.node.mem = true) ∧
    (let s : State := { node := base };
     s.node.alive = true ∧ s.node.running = false) ∧
    (let s : State := inCfg id;
     let d : Die := 0;
     let kind : Nat := 3;
     let idx : Nat := 5;
     let t : StripSt := s.node.strip kind idx;
     let c : StripCfg := { num := 5, inBus := true, input := 7, die := 0, sections := 2, segments := 1, frac := true, dram := true, loc0 := 16384, loc1 := 20480, firLoc0 := 32768, firLoc1 := 65536, window := 131072, window2 := 135168 };
     s.node.alive = true ∧ kind = 3 ∧ s.node.stripOf idx = some c ∧ c.die = ↑d ∧ c.dram = true ∧
       s.node.running = true ∧ t.mode ≠ DelayMode.jumping ∧ t.mode ≠ DelayMode.heldTarget ∧
       Graph.stripAt s.node.rt.old idx = none ∧ (s.node.die ↑d).steerCopying = false ∧
       Node.fenAddr (↑d) (c.window + 4 * (s.node.s + 8)) ≤ dramBase) ∧
    (let s : State := inCfg (fun t => { t with mode := .jumping, target := 300000 });
     let d : Die := 0;
     let kind : Nat := 3;
     let idx : Nat := 5;
     let t : StripSt := s.node.strip kind idx;
     let c : StripCfg := { num := 5, inBus := true, input := 7, die := 0, sections := 2, segments := 1, frac := true, dram := true, loc0 := 16384, loc1 := 20480, firLoc0 := 32768, firLoc1 := 65536, window := 131072, window2 := 135168 };
     s.node.alive = true ∧ kind = 3 ∧ s.node.stripOf idx = some c ∧ c.die = ↑d ∧ c.dram = true ∧
       s.node.running = true ∧ (t.mode = DelayMode.jumping ∨ t.mode = DelayMode.heldTarget) ∧
       Graph.stripAt s.node.rt.old idx = none ∧ (s.node.die ↑d).steerCopying = false ∧
       Node.fenAddr (↑d) (c.window + 4 * (s.node.s + 8)) ≤ dramBase ∧
       Node.fenAddr (↑d) (c.window2 + 4 * (s.node.s + 8)) ≤ dramBase ∧
       (c.window + 4 * (s.node.s + 8) ≤ c.window2 ∨ c.window2 + 4 * (s.node.s + 8) ≤ c.window) ∧
       s.node.dram.poisoned = []) ∧
    (let s : State := readsPoison;
     let d : Die := 0;
     let idx : Nat := 5;
     let t : StripSt := s.node.strip 3 idx;
     let c : StripCfg := (s.node.stripOf 5).getD { num := 5, inBus := true, input := 7, die := 1 };
     s.node.alive = true ∧ s.node.stripOf idx = some c ∧ c.die = d.val ∧ c.dram = true ∧ s.node.running = true ∧
       t.mode ≠ DelayMode.jumping ∧ t.mode ≠ DelayMode.heldTarget ∧ Graph.stripAt s.node.rt.old idx = none ∧
       (s.node.die d).steerCopying = false ∧ t.poison = false ∧
       ((s.node.windowReads c t).filter (fun r => (s.node.ringSample c r.2.2).2)).map (·.1) ≠ []) := by
  refine ⟨?_, ?_, ?_, ?_, ?_, ?_,
    ⟨?_, ?_, ?_, ?_, ?_⟩⟩ <;> decide +kernel

/-- The hypotheses of `StreamsAndSluice` hold together. -/
theorem witness_StreamsAndSluice :
    (let s : State := { node := rxPort running.node };
     s.node.alive = true ∧
       let p : StreamPacket := packetA;
       s.node.running = true ∧ s.node.receives p.port = true ∧ s.node.audioPort p.port p.udpDst = true ∧
         p.excluded = false ∧ ∀ (r : RxStreamCfg), r ∈ s.node.rt.cfg.rx → r.dstAddr ≠ p.dst ∨ r.udpDst ≠ p.udpDst) ∧
    (let s : State := running;
     s.node.alive = true ∧
       let b : Fin 8 := 0;
       BitVec.getLsbD s.node.str.retired ↑b = false) ∧
    (let s : State := running;
     s.node.alive = true ∧ Reachable s strPage ∧ (s.node.hdr strPage).frozen = none) ∧
    (let s : State := running;
     s.node.alive = true ∧ Reachable s sluPage ∧ (s.node.hdr sluPage).frozen = none) ∧
    (let s : State := { node := rxNode };
     s.node.alive = true ∧
       let p : StreamPacket := packetA;
       let r : RxStreamCfg := rxA;
       s.node.running = true ∧
         s.node.rt.inForce = true ∧
           p.excluded = false ∧
             s.node.rt.cfg.rx = [r] ∧
               r.dstAddr = p.dst ∧
                 r.udpDst = p.udpDst ∧
                   r.interop = false ∧
                     s.node.packetCheck r p = 0 ∧
                       p.stamp ≤ s.node.clk.index + 1 ∧
                         s.node.clk.index + 1 < p.stamp + r.depth ∧
                           0 < r.channels ∧
                             p.samples.length = r.channels * s.node.s ∧
                               (Node.ringSlotOf (s.node.rxs r.num) p.stamp).wrote = [] ∧ s.node.str.poisoned = []) ∧
    (let s : State := { node := rxNode };
     s.node.alive = true ∧
       let c : TxStreamCfg := txA;
       let k : Nat := 2;
       let sub : Nat := 3;
       let lo : Nat := 3;
       let hi : Nat := 3;
       s.node.txCfg k = some c ∧ c.interop = false ∧ sub ≠ s.node.cfg.eid ∧ lo ≤ hi ∧ 2 < lo) ∧
    (let s : State := { node := rxNode };
     s.node.alive = true ∧
       let c : TxStreamCfg := txA;
       let k : Nat := 2;
       let sub : Nat := 3;
       let lo : Nat := 2;
       let hi : Nat := 3;
       s.node.txCfg k = some c ∧ c.interop = false ∧ sub ≠ s.node.cfg.eid ∧ lo ≤ hi ∧ lo ≤ 2 ∧ 1 ≤ hi) ∧
    (let s : State := rxIs { slots := [slotA] };
     s.node.alive = true ∧
       let p : StreamPacket := packetA;
       let r : RxStreamCfg := rxA;
       s.node.running = true ∧
         s.node.rt.inForce = true ∧
           p.excluded = false ∧
             s.node.rt.cfg.rx = [r] ∧
               r.dstAddr = p.dst ∧
                 r.udpDst = p.udpDst ∧
                   r.interop = false ∧
                     s.node.packetCheck r p = 0 ∧
                       p.stamp ≤ s.node.clk.index + 1 ∧
                         s.node.clk.index + 1 < p.stamp + r.depth ∧
                           0 < r.channels ∧
                             p.samples.length = r.channels * s.node.s ∧
                               (Node.ringSlotOf (s.node.rxs r.num) p.stamp).wrote = [(p.seq, 2 ^ s.node.s - 1)]) ∧
    (let s : State := rxIs { slots := [slotB], healthy := 1 };
     s.node.alive = true ∧
       let r : RxStreamCfg := rxA;
       let k : Nat := 3;
       let t : Nat := 2;
       s.node.running = true ∧
         s.node.rxCfg k = some r ∧
           s.node.clk.index + 1 = t + r.depth ∧
             let x : RxStream := s.node.rxs k;
             let z : Slot := Node.ringSlotOf x t;
             let whole : Prop := Node.slotMask z = 2 ^ s.node.streamS r - 1 ∧ z.poisoned = false;
             whole ∧ x.state = RxState.waiting ∧ x.healthy = 1) ∧
    (let s : State := rxIs { state := RxState.healthy, slots := [slotB], healthy := 255 };
     s.node.alive = true ∧
       let r : RxStreamCfg := rxA;
       let k : Nat := 3;
       let t : Nat := 2;
       s.node.running = true ∧
         s.node.rxCfg k = some r ∧
           s.node.clk.index + 1 = t + r.depth ∧
             let x : RxStream := s.node.rxs k;
             let z : Slot := Node.ringSlotOf x t;
             let whole : Prop := Node.slotMask z = 2 ^ s.node.streamS r - 1 ∧ z.poisoned = false;
             whole ∧ x.state ≠ RxState.waiting ∧ x.state ≠ RxState.incompatible) ∧
    (let s : State :=
       rxIs { state := RxState.healthy, slots := [{ t := 2, invalid := true, early := true }], healthy := 255 };
     s.node.alive = true ∧
       let r : RxStreamCfg := rxA;
       let k : Nat := 3;
       let t : Nat := 2;
       s.node.running = true ∧
         s.node.rxCfg k = some r ∧
           s.node.clk.index + 1 = t + r.depth ∧
             let x : RxStream := s.node.rxs k;
             let z : Slot := Node.ringSlotOf x t;
             let whole : Prop := Node.slotMask z = 2 ^ s.node.streamS r - 1 ∧ z.poisoned = false;
             ¬whole ∧ x.state ≠ RxState.waiting ∧ x.state ≠ RxState.incompatible) ∧
    (let s : State := rxIs { };
     let p : StreamPacket := packetA;
     let r : RxStreamCfg := rxA;
     s.node.alive = true ∧ s.node.running = true ∧ s.node.receives p.port = true ∧ s.node.audioPort p.port p.udpDst = true ∧ s.node.rt.inForce = true ∧ p.excluded = false ∧
       s.node.rt.cfg.rx = [r] ∧ r.dstAddr = p.dst ∧ r.udpDst = p.udpDst ∧ r.interop = false ∧
       s.node.packetCheck r p = 0 ∧ p.stamp ≤ s.node.clk.index + 1 ∧ s.node.clk.index + 1 < p.stamp + r.depth ∧
       0 < r.channels ∧ p.samples.length = r.channels * s.node.s ∧ (s.node.rxs r.num).unplaced = false ∧
       (Node.ringSlotOf (s.node.rxs r.num) p.stamp).wrote = [] ∧ s.node.str.poisoned = []) ∧
    (let s : State := rxIs { slots := [slotA] };
     let p : StreamPacket := packetA;
     let r : RxStreamCfg := rxA;
     s.node.alive = true ∧ s.node.running = true ∧ s.node.receives p.port = true ∧ s.node.audioPort p.port p.udpDst = true ∧ s.node.rt.inForce = true ∧ p.excluded = false ∧
       s.node.rt.cfg.rx = [r] ∧ r.dstAddr = p.dst ∧ r.udpDst = p.udpDst ∧ r.interop = false ∧
       s.node.packetCheck r p = 0 ∧ p.stamp ≤ s.node.clk.index + 1 ∧ s.node.clk.index + 1 < p.stamp + r.depth ∧
       0 < r.channels ∧ p.samples.length = r.channels * s.node.s ∧ (s.node.rxs r.num).unplaced = false ∧
       (Node.ringSlotOf (s.node.rxs r.num) p.stamp).wrote = [(p.seq, 2 ^ s.node.s - 1)]) ∧
    (let s : State := rxIs { unplaced := true };
     let r : RxStreamCfg := rxA;
     let k : Nat := 3;
     let t : Nat := 2;
     let x : RxStream := s.node.rxs k;
     s.node.alive = true ∧ s.node.running = true ∧ s.node.rxCfg k = some r ∧ s.node.clk.index + 1 = t + r.depth ∧
       x.unplaced = true) ∧
    (let s : State := rxIs { slots := [slotB], healthy := 1 };
     let r : RxStreamCfg := rxA;
     let k : Nat := 3;
     let t : Nat := 2;
     let x : RxStream := s.node.rxs k;
     let z : Slot := Node.ringSlotOf x t;
     let whole : Prop := Node.slotMask z = 2 ^ s.node.streamS r - 1 ∧ z.poisoned = false;
     s.node.alive = true ∧ s.node.running = true ∧ s.node.rxCfg k = some r ∧ s.node.clk.index + 1 = t + r.depth ∧
       x.unplaced = false ∧ whole ∧ x.state = RxState.waiting ∧ x.healthy = 1) ∧
    (let s : State := rxIs { slots := [slotB], state := .healthy };
     let r : RxStreamCfg := rxA;
     let k : Nat := 3;
     let t : Nat := 2;
     let x : RxStream := s.node.rxs k;
     let z : Slot := Node.ringSlotOf x t;
     let whole : Prop := Node.slotMask z = 2 ^ s.node.streamS r - 1 ∧ z.poisoned = false;
     s.node.alive = true ∧ s.node.running = true ∧ s.node.rxCfg k = some r ∧ s.node.clk.index + 1 = t + r.depth ∧
       x.unplaced = false ∧ whole ∧ x.state ≠ RxState.waiting ∧ x.state ≠ RxState.incompatible) ∧
    (let s : State := rxIs { state := .healthy };
     let r : RxStreamCfg := rxA;
     let k : Nat := 3;
     let t : Nat := 2;
     let x : RxStream := s.node.rxs k;
     let z : Slot := Node.ringSlotOf x t;
     let whole : Prop := Node.slotMask z = 2 ^ s.node.streamS r - 1 ∧ z.poisoned = false;
     s.node.alive = true ∧ s.node.running = true ∧ s.node.rxCfg k = some r ∧ s.node.clk.index + 1 = t + r.depth ∧
       x.unplaced = false ∧ ¬whole ∧ x.state ≠ RxState.waiting ∧ x.state ≠ RxState.incompatible) ∧
    (let s : State := running;
     let p : StreamPacket := packetA;
     s.node.alive = true ∧ (s.node.receives p.port = false ∨ s.node.audioPort p.port p.udpDst = false)) := by
  delta Reachable; refine ⟨?_, ?_, ?_, ?_, ?_, ?_,
    ⟨?_, ?_, ?_, ?_, ?_, ?_,
    ⟨?_, ?_, ?_, ?_, ?_, ?_⟩⟩⟩ <;> decide +kernel

/-- The hypotheses of `EthernetPorts` hold together. -/
theorem witness_EthernetPorts :
    (let s : State := running;
     let k : Fin 4 := 0;
     s.node.alive = true ∧
       let page : Page := macPage ↑k;
       let src : Src := pcie;
       Reachable s page ∧ ¬src.port ∈ (s.node.hdr page).keyArmed) ∧
    (let s : State := running;
     let k : Fin 4 := 0;
     s.node.alive = true ∧
       let page : Page := macPage ↑k;
       Reachable s page ∧ (s.node.hdr page).frozen = none) ∧
    (let s : State := running;
     let k : Fin 4 := 0;
     s.node.alive = true ∧
       let x : MacSt := s.node.mac ↑k;
       x.link = false ∧ x.retired = false ∧ x.idle = false) ∧
    (let s : State := running;
     let k : Fin 4 := 0;
     s.node.alive = true ∧
       let x : MacSt := s.node.mac ↑k;
       (s.node.macIdle ↑k = true ∨ x.link = false) ∧ x.retired = false) ∧
    (let s : State := macOn;
     let k : Fin 4 := 0;
     s.node.alive = true ∧
       let page : Page := macPage ↑k;
       let x : MacSt := s.node.mac ↑k;
       let inWork : Nat → Nat → Prop := fun a len => 268435456 ≤ a ∧ a + len ≤ 276824064;
       let desc : Nat := s.node.rxDesc (↑k) (s.node.rxHead ↑k);
       s.node.receives ↑k = true ∧ x.rxBad = false ∧
             let f : RxFrame := frameA 64;
             64 ≤ f.wireLen ∧
               f.fcsOk = true ∧
                 x.rxBad = false ∧ x.rxHeld = [] ∧
                   f.macControl = false ∧
                     s.node.addrAccepted (↑k) f.bytes = true ∧
                       f.wireLen ≤ s.node.maxLen ↑k ∧
                         s.node.audioClass (↑k) f = false ∧
                           f.noBandwidth = false ∧
                             let a : Nat := 268443648;
                             s.node.rxEmpty ↑k = false ∧
                               s.node.remapped = false ∧
                                 inWork desc 32 ∧
                                   BitVec.getLsbD (s.node.rdWord (desc + 4)) 31 = true ∧
                                     a =
                                         BitVec.toNat (s.node.rdWord desc) +
                                           BitVec.toNat (s.node.rdWord (desc + 8)) % 256 * 2 ^ 32 ∧
                                       f.bytes.length ≤ BitVec.toNat (s.node.rdWord (desc + 4)) % 16384 ∧
                                         inWork a f.bytes.length ∧
                                           0 < f.bytes.length ∧ (a + f.bytes.length ≤ desc ∨ desc + 32 ≤ a) ∧
                                             s.node.ringRoom (Node.descCost desc a f.bytes.length) = true) ∧
    (let s : State := macOn;
     let k : Fin 4 := 0;
     s.node.alive = true ∧
       let page : Page := macPage ↑k;
       let x : MacSt := s.node.mac ↑k;
       s.node.receives ↑k = true ∧ x.rxBad = false ∧
             let f : RxFrame := frameA 63;
             f.wireLen < 64) ∧
    (let s : State := macOn;
     let k : Fin 4 := 0;
     s.node.alive = true ∧
       let page : Page := macPage ↑k;
       let x : MacSt := s.node.mac ↑k;
       s.node.receives ↑k = true ∧ x.rxBad = false ∧
             let f : RxFrame := frameBadFcs;
             64 ≤ f.wireLen ∧ f.fcsOk = false ∧ s.node.flag page Fld.macCfgKeepBad = false) ∧
    (let s : State := macOn;
     let k : Fin 4 := 0;
     s.node.alive = true ∧
       let page : Page := macPage ↑k;
       let x : MacSt := s.node.mac ↑k;
       s.node.receives ↑k = true ∧ x.rxBad = false ∧
             let f : RxFrame := frameAudio;
             64 ≤ f.wireLen ∧
               f.fcsOk = true ∧
                 x.rxBad = false ∧ x.rxHeld = [] ∧
                   f.macControl = false ∧
                     s.node.addrAccepted (↑k) f.bytes = true ∧
                       f.wireLen ≤ s.node.maxLen ↑k ∧ s.node.audioClass (↑k) f = true) ∧
    (let s : State := macOn;
     let k : Fin 4 := 0;
     s.node.alive = true ∧
       let page : Page := macPage ↑k;
       let x : MacSt := s.node.mac ↑k;
       s.node.receives ↑k = true ∧ x.rxBad = false ∧ s.node.flag page Fld.macCfgRxPauseEn = true) ∧
    (let s : State := macOn;
     let k : Fin 4 := 0;
     s.node.alive = true ∧
       let page : Page := macPage ↑k;
       let x : MacSt := s.node.mac ↑k;
       let inWork : Nat → Nat → Prop := fun a len => 268435456 ≤ a ∧ a + len ≤ 276824064;
       s.node.receives ↑k = true ∧ x.rxBad = false ∧
             let a : Nat := 268439552;
             x.waits = none ∧ x.audioOn = false ∧ x.audio = [] ∧ x.paused = false ∧
               x.sending = none ∧
                 s.node.txEmpty ↑k = false ∧
                   s.node.remapped = false ∧
                     let d : Nat := s.node.txDesc (↑k) (s.node.txHead ↑k);
                     inWork d 32 ∧
                       BitVec.getLsbD (s.node.rdWord (d + 4)) 31 = true ∧
                         s.node.dram.poisoned = [] ∧
                           a = BitVec.toNat (s.node.rdWord d) + BitVec.toNat (s.node.rdWord (d + 8)) % 256 * 2 ^ 32 ∧
                             inWork a (BitVec.toNat (s.node.rdWord (d + 4)) % 16384 + 1) ∧
                               s.node.ringRoom (Node.descCost d a (BitVec.toNat (s.node.rdWord (d + 4)) % 16384)) = true) ∧
    (let s : State := macOn;
     let k : Fin 4 := 0;
     s.node.alive = true ∧
       let x : MacSt := s.node.mac ↑k;
       x.link = true) ∧
    (let s : State := macFilters;
     let k : Fin 4 := 0;
     s.node.alive = true ∧
       let page : Page := macPage ↑k;
       let x : MacSt := s.node.mac ↑k;
       s.node.receives ↑k = true ∧ x.rxBad = false ∧
             let f : RxFrame := frameShort;
             64 ≤ f.wireLen ∧
               f.fcsOk = true ∧
                 x.rxBad = false ∧ x.rxHeld = [] ∧ f.macControl = false ∧ s.node.addrAccepted (↑k) f.bytes = false) ∧
    (let s : State := macNoRing;
     let k : Fin 4 := 0;
     s.node.alive = true ∧
       let page : Page := macPage ↑k;
       let x : MacSt := s.node.mac ↑k;
       s.node.receives ↑k = true ∧ x.rxBad = false ∧
             let f : RxFrame := frameA 64;
             64 ≤ f.wireLen ∧
               f.fcsOk = true ∧
                 x.rxBad = false ∧ x.rxHeld = [] ∧
                   f.macControl = false ∧
                     s.node.addrAccepted (↑k) f.bytes = true ∧
                       f.wireLen ≤ s.node.maxLen ↑k ∧
                         s.node.audioClass (↑k) f = false ∧ f.noBandwidth = false ∧ s.node.rxEmpty ↑k = true) ∧
    (let s : State := macNoPause;
     let k : Fin 4 := 0;
     s.node.alive = true ∧
       let page : Page := macPage ↑k;
       let x : MacSt := s.node.mac ↑k;
       s.node.receives ↑k = true ∧ x.rxBad = false ∧ s.node.flag page Fld.macCfgRxPauseEn = false) ∧
    (let s : State := macSending;
     let k : Fin 4 := 0;
     s.node.alive = true ∧
       let page : Page := macPage ↑k;
       let x : MacSt := s.node.mac ↑k;
       s.node.receives ↑k = true ∧ x.rxBad = false ∧ (x.sending ≠ none ∨ x.waits ≠ none)) ∧
    (let s : State := macSending;
     let k : Fin 4 := 0;
     s.node.alive = true ∧
       let x : MacSt := s.node.mac ↑k;
       let inWork : Nat → Nat → Prop := fun a len => 268435456 ≤ a ∧ a + len ≤ 276824064;
       let idx : Nat := 0;
       x.sending = some idx ∧
         s.node.remapped = false ∧
           inWork (s.node.txDesc (↑k) idx) 32 ∧
             x.ringBuf.length + 4 ≤ s.node.maxLen ↑k ∧ x.waits = none) ∧
    (let s : State := macTrains;
     let k : Fin 4 := 0;
     s.node.alive = true ∧
       let x : MacSt := s.node.mac ↑k;
       x.training = true ∧ x.retired = false ∧ x.idle = false) ∧
    (let s : State := sBase;
     s.node.alive = true ∧ s.node.outOfReset = false) ∧
    (let s : State := running;
     let k : Fin 4 := 0;
     let x : MacSt := s.node.mac ↑k;
     s.node.alive = true ∧ x.link = false ∧ x.retired = false ∧ x.idle = false ∧ s.node.outOfReset = true) ∧
    (let s : State := running;
     let k : Fin 4 := 0;
     let x : MacSt := s.node.mac ↑k;
     s.node.alive = true ∧ ¬takesFrame s k (frameA 64) ∧ x.rxBad = false) ∧
    (let s : State := macSt (fun m => { m with rxBad := true });
     let k : Fin 4 := 0;
     let x : MacSt := s.node.mac ↑k;
     s.node.alive = true ∧ takesFrame s k (frameA 64) ∧ x.rxBad = true ∧ 64 ≤ (frameA 64).wireLen ∧ (frameA 64).fcsOk = true) ∧
    (let s : State := macStops;
     let k : Fin 4 := 0;
     let x : MacSt := s.node.mac ↑k;
     s.node.alive = true ∧ takesFrame s k { frameA 63 with begun := true } ∧ x.rxBad = false ∧ (frameA 63).wireLen < 64) ∧
    (let s : State := macHolds;
     let k : Fin 4 := 0;
     let x : MacSt := s.node.mac ↑k;
     let f : RxFrame := frameA 64;
     let desc : Nat := s.node.rxDesc (↑k) (s.node.rxHead ↑k);
     let inWork : Nat → Nat → Prop := fun a len => 268435456 ≤ a ∧ a + len ≤ 276824064;
     let a : Nat := 268443648;
     s.node.alive = true ∧ takesFrame s k f ∧ x.rxBad = false ∧ 64 ≤ f.wireLen ∧ f.fcsOk = true ∧ f.macControl = false ∧
       s.node.addrAccepted k f.bytes = true ∧ f.wireLen ≤ s.node.maxLen k ∧ s.node.audioClass k f = false ∧ f.noBandwidth = false ∧
       x.rxHeld ≠ []) ∧
    (let s : State := macFull;
     let k : Fin 4 := 0;
     let x : MacSt := s.node.mac ↑k;
     let f : RxFrame := frameA 64;
     let desc : Nat := s.node.rxDesc (↑k) (s.node.rxHead ↑k);
     let inWork : Nat → Nat → Prop := fun a len => 268435456 ≤ a ∧ a + len ≤ 276824064;
     let a : Nat := 268443648;
     s.node.alive = true ∧ takesFrame s k f ∧ x.rxBad = false ∧ 64 ≤ f.wireLen ∧ f.fcsOk = true ∧ f.macControl = false ∧
       s.node.addrAccepted k f.bytes = true ∧ f.wireLen ≤ s.node.maxLen k ∧ s.node.audioClass k f = false ∧ f.noBandwidth = false ∧
       x.rxHeld = [] ∧ s.node.rxEmpty ↑k = false ∧ s.node.remapped = false ∧ inWork desc 32 ∧
       BitVec.getLsbD (s.node.rdWord (desc + 4)) 31 = true ∧
       a = BitVec.toNat (s.node.rdWord desc) + BitVec.toNat (s.node.rdWord (desc + 8)) % 256 * 2 ^ 32 ∧
       f.bytes.length ≤ BitVec.toNat (s.node.rdWord (desc + 4)) % 16384 ∧ inWork a f.bytes.length ∧ 0 < f.bytes.length ∧
       (a + f.bytes.length ≤ desc ∨ desc + 32 ≤ a) ∧ s.node.ringRoom (Node.descCost desc a f.bytes.length) = false) ∧
    (let s : State := macFull;
     let k : Fin 4 := 0;
     let x : MacSt := s.node.mac ↑k;
     let a : Nat := 268439552;
     let d : Nat := s.node.txDesc (↑k) (s.node.txHead ↑k);
     let len : Nat := BitVec.toNat (s.node.rdWord (d + 4)) % 16384;
     let inWork : Nat → Nat → Prop := fun a len => 268435456 ≤ a ∧ a + len ≤ 276824064;
     s.node.alive = true ∧ s.node.receives ↑k = true ∧ x.sending = none ∧ x.waits = none ∧ s.node.txEmpty ↑k = false ∧
       s.node.remapped = false ∧ inWork d 32 ∧ BitVec.getLsbD (s.node.rdWord (d + 4)) 31 = true ∧ s.node.dram.poisoned = [] ∧
       a = BitVec.toNat (s.node.rdWord d) + BitVec.toNat (s.node.rdWord (d + 8)) % 256 * 2 ^ 32 ∧ inWork a (len + 1) ∧
       s.node.ringRoom (Node.descCost d a len) = false) ∧
    (let s : State := macPaused;
     let k : Fin 4 := 0;
     let x : MacSt := s.node.mac ↑k;
     let a : Nat := 268439552;
     let d : Nat := s.node.txDesc (↑k) (s.node.txHead ↑k);
     let len : Nat := BitVec.toNat (s.node.rdWord (d + 4)) % 16384;
     let inWork : Nat → Nat → Prop := fun a len => 268435456 ≤ a ∧ a + len ≤ 276824064;
     s.node.alive = true ∧ s.node.receives ↑k = true ∧ x.sending = none ∧ x.waits = none ∧ s.node.txEmpty ↑k = false ∧
       s.node.remapped = false ∧ inWork d 32 ∧ BitVec.getLsbD (s.node.rdWord (d + 4)) 31 = true ∧ s.node.dram.poisoned = [] ∧
       a = BitVec.toNat (s.node.rdWord d) + BitVec.toNat (s.node.rdWord (d + 8)) % 256 * 2 ^ 32 ∧ inWork a (len + 1) ∧
       s.node.ringRoom (Node.descCost d a len) = true ∧ x.paused = true) ∧
    (let s : State := macAudio;
     let k : Fin 4 := 0;
     let x : MacSt := s.node.mac ↑k;
     s.node.alive = true ∧ x.audioOn = true) ∧
    (let s : State := macOn;
     let k : Fin 4 := 0;
     let x : MacSt := s.node.mac ↑k;
     s.node.alive = true ∧ x.audioOn = false ∧ x.sending = none) ∧
    (let s : State := macPaused;
     let k : Fin 4 := 0;
     let x : MacSt := s.node.mac ↑k;
     s.node.alive = true ∧ x.audioOn = true ∨ x.sending ≠ none ∨ (x.audio = [] ∧ x.waits = none)) ∧
    (let s : State := macQueued [64];
     let k : Fin 4 := 0;
     let x : MacSt := s.node.mac ↑k;
     s.node.alive = true ∧ s.node.receives ↑k = true ∧ x.audioOn = false ∧ x.sending = none ∧ x.audio ≠ []) ∧
    (let s : State := macQueued [];
     let k : Fin 4 := 0;
     let x : MacSt := s.node.mac ↑k;
     s.node.alive = true ∧ s.node.receives ↑k = true ∧ x.audioOn = false ∧ x.sending = none ∧ x.audio = [] ∧ x.waits = some 0) := by
  delta Reachable; refine ⟨?_, ?_, ?_, ?_, ?_, ?_,
    ⟨?_, ?_, ?_, ?_, ?_, ?_,
    ⟨?_, ?_, ?_, ?_, ?_, ?_,
    ⟨?_, ?_, ?_, ?_, ?_, ?_,
    ⟨?_, ?_, ?_, ?_, ?_, ?_, ?_⟩⟩⟩⟩⟩ <;>
    first
    | decide +kernel
    | exact ⟨by decide +kernel, by decide +kernel, by decide +kernel, by decide +kernel, by decide +kernel, by decide +kernel,
        by decide +kernel, by decide +kernel, short_frame_filtered⟩

/-- The hypotheses of `PhcTime` hold together. -/
theorem witness_PhcTime :
    (let s : State := steered;
     s.node.alive = true ∧
       let src : Src := pcie;
       Reachable s phcPage ∧ ¬src.port ∈ (s.node.hdr phcPage).keyArmed ∧ s.node.steering = true) ∧
    (let s : State := steered;
     s.node.alive = true ∧
       let x : PhcSt := s.node.phc;
       let offset : Int := s.node.stepSec * 1000000000 + s.node.stepNs;
       let now : Int := Int.ofNat (x.sec * 1000000000 + x.ns);
       let src : Src := pcie;
       Reachable s phcPage ∧
         ¬src.port ∈ (s.node.hdr phcPage).keyArmed ∧
           s.node.stepNs.natAbs ≤ 999999999 ∧
             0 ≤ now + offset ∧ (x.permit = true ∨ offset.natAbs ≤ BitVec.toNat (s.node.reg phcPage 108)) ∧ s.node.stepBusy = false) ∧
    (let s : State := steered;
     s.node.alive = true ∧
       let src : Src := pcie;
       Reachable s phcPage ∧ ¬src.port ∈ (s.node.hdr phcPage).keyArmed ∧ (s.node.hdr phcPage).frozen = none) ∧
    (let s : State := steered;
     s.node.alive = true ∧
       let x : PhcSt := s.node.phc;
       x.ns < 1000000000 ∧
         x.frac < 4294967296 ∧ 0 < x.incr ∧ x.incr < 4294967296 * 1000000000 ∧ s.node.clk.now % Config.hubCycle = 0) ∧
    (let s : State := unsteered id;
     s.node.alive = true ∧
       let x : PhcSt := s.node.phc;
       let src : Src := pcie;
       Reachable s phcPage ∧
         ¬src.port ∈ (s.node.hdr phcPage).keyArmed ∧
           let w : Word := 1;
           s.node.steering = false ∧
             let i : Nat := 5368709120;
             i = BitVec.toNat w % 256 * 4294967296 + x.heldFrac ∧
               5363340411 ≤ i ∧ i ≤ 5374077829 ∧ x.heldFrac < 4294967296) ∧
    (let s : State := unsteered id;
     s.node.alive = true ∧
       let x : PhcSt := s.node.phc;
       let src : Src := pcie;
       Reachable s phcPage ∧
         ¬src.port ∈ (s.node.hdr phcPage).keyArmed ∧
           let w : Word := 4;
           s.node.steering = false ∧
             let i : Nat := 4 * 4294967296 + 1073741824;
             i = BitVec.toNat w % 256 * 4294967296 + x.heldFrac ∧ 5374077829 < i) ∧
    (let s : State :=
       unsteered fun x =>
         { x with heldFrac := 1068373115 };
     s.node.alive = true ∧
       let x : PhcSt := s.node.phc;
       let src : Src := pcie;
       Reachable s phcPage ∧
         ¬src.port ∈ (s.node.hdr phcPage).keyArmed ∧
           let w : Word := 0;
           s.node.steering = false ∧
             let i : Nat := 1068373115;
             i = BitVec.toNat w % 256 * 4294967296 + x.heldFrac ∧ i < 5363340411) ∧
    (let s : State := { node := running.node.setHdr phcPage { keyHolder := some Port.pcie } };
     s.node.alive = true ∧
       let src : Src := pcie;
       Reachable s phcPage ∧
         ¬src.port ∈ (s.node.hdr phcPage).keyArmed ∧ (s.node.hdr phcPage).keyHolder = some src.port) ∧
    (let s : State := stepSt 0 6 5 id;
     s.node.alive = true ∧
       let x : PhcSt := s.node.phc;
       let offset : Int := s.node.stepSec * 1000000000 + s.node.stepNs;
       let now : Int := Int.ofNat (x.sec * 1000000000 + x.ns);
       let src : Src := pcie;
       Reachable s phcPage ∧
         ¬src.port ∈ (s.node.hdr phcPage).keyArmed ∧
           let result : Nat := 1;
           (999999999 < s.node.stepNs.natAbs ∨ now + offset < 0) ∧ result = 2 ∨
             s.node.stepNs.natAbs ≤ 999999999 ∧
               0 ≤ now + offset ∧
                 x.permit = false ∧ BitVec.toNat (s.node.reg phcPage 108) < offset.natAbs ∧ result = 1) ∧
    (let s : State := stepSt 0 5 5 (fun x => { x with stepUntil := 1000000000000 });
     let x : PhcSt := s.node.phc;
     let offset : Int := s.node.stepSec * 1000000000 + s.node.stepNs;
     let now : Int := Int.ofNat (x.sec * 1000000000 + x.ns);
     let src : Src := pcie;
     s.node.alive = true ∧ Reachable s phcPage ∧ ¬src.port ∈ (s.node.hdr phcPage).keyArmed ∧
       s.node.stepNs.natAbs ≤ 999999999 ∧ 0 ≤ now + offset ∧
       (x.permit = true ∨ offset.natAbs ≤ BitVec.toNat (s.node.reg phcPage 108)) ∧ s.node.stepBusy = true) := by
  delta Reachable; refine ⟨?_, ?_, ?_, ?_, ?_, ?_,
    ⟨?_, ?_, ?_, ?_⟩⟩ <;> decide +kernel

/-- The hypotheses of `PtpService` hold together. -/
theorem witness_PtpService :
    (let s : State := ptpSt { } true;
     s.node.alive = true ∧
       s.node.mgmt.running = true ∧
         s.node.ptpSlots 0 = [] ∧
           s.node.ptpSlots 1 = [] ∧
             let slot : Fin 4 := 0;
             s.node.slotBusy ↑slot = true ∧ s.node.lengthBad slot = false ∧
               let w : Word := 0;
               BitVec.toNat w % 4 ≠ 3 ∧ BitVec.toNat w / 256 % 256 ≤ 127) ∧
    (let s : State := ptpSt { } true;
     s.node.alive = true ∧
       s.node.mgmt.running = true ∧
         s.node.ptpSlots 0 = [] ∧
           s.node.ptpSlots 1 = [] ∧
             let slot : Fin 4 := 0;
             s.node.slotBusy ↑slot = true ∧ s.node.lengthBad slot = false ∧
               let w : Word := 3;
               BitVec.toNat w % 4 = 3 ∨ 127 < BitVec.toNat w / 256 % 256) ∧
    (let s : State := ptpSt { } true;
     s.node.alive = true ∧
       s.node.mgmt.running = true ∧
         s.node.ptpSlots 0 = [] ∧
           s.node.ptpSlots 1 = [] ∧
             let x : PtpSt := s.node.ptp;
             let slot : Fin 4 := 0;
             s.node.slotBusy ↑slot = true ∧ s.node.lengthBad slot = false ∧
               let w2 : Word := 0;
               intervalsOk x.profile w2 = false) ∧
    (let s : State := ptpSt { } true;
     s.node.alive = true ∧
       s.node.mgmt.running = true ∧
         s.node.ptpSlots 0 = [] ∧
           s.node.ptpSlots 1 = [] ∧
             let x : PtpSt := s.node.ptp;
             let slot : Fin 4 := 0;
             s.node.slotBusy ↑slot = true ∧ s.node.lengthBad slot = false ∧
               let w2 : Word := 50331649;
               intervalsOk x.profile w2 = true ∧ x.ports.length = 4) ∧
    (let s : State := ptpSt { ports := [portOn 9, portOn 7, portOn 4, portOn 9] } false;
     let x : PtpSt := s.node.ptp;
     let port : Fin 4 := 0;
     s.node.alive = true ∧ s.node.mgmt.running = true ∧ s.node.ptpSlots 0 = [] ∧ s.node.ptpSlots 1 = [] ∧
       let msg : PtpIn := { domain := 1, body := .pdelay };
       (s.node.ptpPort ↑port).enable = true ∧
       (msg.domain ≠ x.domain ∨ msg.transport ≠ (if (s.node.ptpPort ↑port).ipv6 then 1 else 0))) ∧
    (let s : State := ptpSt { ports := [portOn 9, portOn 7, portOn 4, portOn 9] } false;
     let x : PtpSt := s.node.ptp;
     let port : Fin 4 := 0;
     s.node.alive = true ∧ s.node.mgmt.running = true ∧ s.node.ptpSlots 0 = [] ∧ s.node.ptpSlots 1 = [] ∧
       let msg : PtpIn := { body := .pdelay };
       (s.node.ptpPort ↑port).enable = true ∧ msg.domain = x.domain ∧ msg.transport = (if (s.node.ptpPort ↑port).ipv6 then 1 else 0) ∧ msg.body = .pdelay) ∧
    (let s : State := ptpSt { ports := [portOn 9, portOn 7, portOn 4, portOn 9] } false;
     let x : PtpSt := s.node.ptp;
     let port : Fin 4 := 0;
     s.node.alive = true ∧ s.node.mgmt.running = true ∧ s.node.ptpSlots 0 = [] ∧ s.node.ptpSlots 1 = [] ∧
       let msg : PtpIn := { body := .announce { gm := 5, sender := 327680 } };
       (s.node.ptpPort ↑port).enable = true ∧ msg.domain = x.domain ∧ msg.transport = (if (s.node.ptpPort ↑port).ipv6 then 1 else 0) ∧ msg.body = .announce { gm := 5, sender := 327680 } ∧ x.ports.length = 4) ∧
    (let s : State := ptpSt { ports := [portOn 9, portOn 7, portOn 4, portOn 9] } false;
     let x : PtpSt := s.node.ptp;
     let port : Fin 4 := 0;
     s.node.alive = true ∧ s.node.mgmt.running = true ∧ s.node.ptpSlots 0 = [] ∧ s.node.ptpSlots 1 = [] ∧
       let msg : PtpIn := { body := .timing 0 1 2 3 4 true };
       (s.node.ptpPort ↑port).enable = true ∧ msg.domain = x.domain ∧ msg.transport = (if (s.node.ptpPort ↑port).ipv6 then 1 else 0) ∧ msg.body = .timing 0 1 2 3 4 true) ∧
    (let s : State := ptpSt { ports := [portOn 9, portOn 7, portOn 4, portOn 9] } false;
     let x : PtpSt := s.node.ptp;
     let port : Fin 4 := 0;
     let t : Int := 0;
     let d : Int := (t + (t - t)) / 2;
     let o : Int := t - 0 - d;
     let msg : PtpIn := { body := .timing 0 t 0 (t - t) 0 false };
     s.node.alive = true ∧ s.node.mgmt.running = true ∧ s.node.ptpSlots 0 = [] ∧ s.node.ptpSlots 1 = [] ∧
       (s.node.ptpPort ↑port).enable = true ∧ msg.domain = x.domain ∧ msg.transport = (if (s.node.ptpPort ↑port).ipv6 then 1 else 0) ∧ (s.node.ptpPort ↑port).state = 9 ∧ o.natAbs < 100 ∧ o.natAbs ≤ BitVec.toNat (s.node.reg phcPage 108)) ∧
    (let s : State := { node := (ptpSt { policy := 0, ports := [portOn 9, portOn 7, portOn 4, portOn 9], good := 14, lockedOnce := true } false).node.setReg phcPage 108 98 };
     let x : PtpSt := s.node.ptp;
     let port : Fin 4 := 0;
     let t : Int := 198;
     let d : Int := (t + (t - t)) / 2;
     let o : Int := t - 0 - d;
     let msg : PtpIn := { body := .timing 0 t 0 (t - t) 0 false };
     s.node.alive = true ∧ s.node.mgmt.running = true ∧ s.node.ptpSlots 0 = [] ∧ s.node.ptpSlots 1 = [] ∧
       (s.node.ptpPort ↑port).enable = true ∧ msg.domain = x.domain ∧ msg.transport = (if (s.node.ptpPort ↑port).ipv6 then 1 else 0) ∧ (s.node.ptpPort ↑port).state = 9 ∧ BitVec.toNat (s.node.reg phcPage 108) < o.natAbs ∧ x.policy = 0) ∧
    (let s : State := ptpSt { ports := [portOn 9, portOn 7, portOn 4, portOn 9] } false;
     let x : PtpSt := s.node.ptp;
     let port : Fin 4 := 0;
     s.node.alive = true ∧ s.node.mgmt.running = true ∧ s.node.ptpSlots 0 = [] ∧ s.node.ptpSlots 1 = [] ∧
       x.ports.length = 4 ∧ (s.node.ptpPort ↑port).enable = true) := by
  refine ⟨?_, ?_, ?_, ?_, ?_, ?_,
    ⟨?_, ?_, ?_, ?_, ?_⟩⟩ <;> decide +kernel

/-- The hypotheses of `ReferenceSlots` hold together. -/
theorem witness_ReferenceSlots :
    (let s : State := refIs SlotState.disabled;
     s.node.alive = true ∧
       s.node.refs.slots.length = 16 ∧
         let src : Src := pcie;
         Reachable s refPage ∧
           ¬src.port ∈ (s.node.hdr refPage).keyArmed ∧
             let v : Word := 1;
             wordField v Fld.refCtrlMode = 1 ∧ (s.node.hdr refPage).active = true ∧ s.node.refs.disputes = []) ∧
    (let s : State := refIs SlotState.disabled;
     s.node.alive = true ∧
       s.node.refs.slots.length = 16 ∧
         let src : Src := pcie;
         Reachable s refPage ∧
           ¬src.port ∈ (s.node.hdr refPage).keyArmed ∧
             let v : Word := 2;
             wordField v Fld.refCtrlMode = 2 ∨ wordField v Fld.refCtrlMode = 3) ∧
    (let s : State := refIs SlotState.disabled;
     let k : Fin 16 := 0;
     s.node.alive = true ∧
       s.node.refs.slots.length = 16 ∧
         let src : Src := pcie;
         Reachable s refPage ∧
           ¬src.port ∈ (s.node.hdr refPage).keyArmed ∧
             s.node.fld refPage Fld.refSelSlot = ↑k ∧ (s.node.hdr refPage).frozen = none) ∧
    (let s : State := refIs SlotState.noSignal;
     let k : Fin 16 := 0;
     s.node.alive = true ∧
       s.node.refs.slots.length = 16 ∧
         let x : RefSlot := s.node.slot ↑k;
         x.state = SlotState.noSignal ∧ s.node.slotCfgOk ↑k = true ∧ s.node.slotEnabled ↑k = true) ∧
    (let s : State := refIs SlotState.noSignal;
     let k : Fin 16 := 0;
     s.node.alive = true ∧
       s.node.refs.slots.length = 16 ∧
         let x : RefSlot := s.node.slot ↑k;
         let q : Option (BitVec 16) := none;
         let good : Bool := true;
         good =
             (s.node.modSlot ↑k fun r =>
                   r).qlGood
               ↑k ∧
           (x.state = SlotState.qlLow ∧ good = false ∨ x.state = SlotState.noSignal ∨ x.state =
             SlotState.validating)) ∧
    (let s : State := refIs SlotState.validating;
     let k : Fin 16 := 0;
     s.node.alive = true ∧
       s.node.refs.slots.length = 16 ∧
         let x : RefSlot := s.node.slot ↑k;
         x.state ≠ SlotState.disabled ∧ x.state ≠ SlotState.noSignal) ∧
    (let s : State := refIs SlotState.validating;
     let k : Fin 16 := 0;
     s.node.alive = true ∧
       s.node.refs.slots.length = 16 ∧
         let x : RefSlot := s.node.slot ↑k;
         x.state = SlotState.validating ∧
           s.node.qlGood ↑k = true ∧
             s.node.monitorsWithin (↑k) Node.hardLimits 1 1 = true ∧ s.node.flag refPage Fld.refScfg0WtrEn ↑k =
               false) ∧
    (let s : State := { node := (refIs SlotState.validating).node.setFld refPage Fld.refScfg0WtrEn 1 };
     let k : Fin 16 := 0;
     s.node.alive = true ∧
       s.node.refs.slots.length = 16 ∧
         let x : RefSlot := s.node.slot ↑k;
         x.state = SlotState.validating ∧
           s.node.qlGood ↑k = true ∧
             s.node.monitorsWithin (↑k) Node.hardLimits 1 1 = true ∧ s.node.flag refPage Fld.refScfg0WtrEn ↑k = true)
               ∧
    (let s : State := refIs SlotState.waitRestore;
     let k : Fin 16 := 0;
     s.node.alive = true ∧
       s.node.refs.slots.length = 16 ∧
         let x : RefSlot := s.node.slot ↑k;
         x.state = SlotState.waitRestore) ∧
    (let s : State := refIs SlotState.waitRestore;
     let k : Fin 16 := 0;
     s.node.alive = true ∧
       s.node.refs.slots.length = 16 ∧
         let x : RefSlot := s.node.slot ↑k;
         let q : Option (BitVec 16) := none;
         let good : Bool := true;
         good =
             (s.node.modSlot ↑k fun r =>
                   r).qlGood
               ↑k ∧
           (x.state = SlotState.qualified ∨ x.state = SlotState.degraded ∨ x.state = SlotState.waitRestore)) ∧
    (let s : State := agreedFor 60;
     let k : Fin 16 := 0;
     s.node.alive = true ∧
       s.node.refs.slots.length = 16 ∧
         let x : RefSlot := s.node.slot ↑k;
         x.state = SlotState.votedOut ∧ 60 ≤ x.agreed) ∧
    (let s : State := agreedFor 59;
     let k : Fin 16 := 0;
     s.node.alive = true ∧
       s.node.refs.slots.length = 16 ∧
         let x : RefSlot := s.node.slot ↑k;
         x.state = SlotState.votedOut ∧ x.agreed < 60) ∧
    (let s : State := refIs SlotState.qualified;
     let k : Fin 16 := 0;
     s.node.alive = true ∧
       s.node.refs.slots.length = 16 ∧
         let x : RefSlot := s.node.slot ↑k;
         let abs : List (Option Int) := [some 10000000];
         let v : Int := 10000000;
         x.state = SlotState.qualified ∧
           s.node.slotKind ↑k ≠ 7 ∧
             abs.getD (↑k) none = some v ∧ s.node.fld refPage Fld.refFlimAbsHard * 100 < v.natAbs) ∧
    (let s : State := refIs SlotState.qlLow;
     let k : Fin 16 := 0;
     s.node.alive = true ∧
       s.node.refs.slots.length = 16 ∧
         let x : RefSlot := s.node.slot ↑k;
         let q : Option (BitVec 16) := none;
         let good : Bool := true;
         good =
             (s.node.modSlot ↑k fun r =>
                   r).qlGood
               ↑k ∧
           x.state = SlotState.qlLow ∧ good = true) ∧
    (let s : State := refActive;
     let k : Fin 16 := 0;
     s.node.alive = true ∧
       s.node.refs.slots.length = 16 ∧
         let x : RefSlot := s.node.slot ↑k;
         s.node.slotKind ↑k ≤ 4 ∧
           x.state ≠ SlotState.disabled ∧
             x.state ≠ SlotState.noSignal ∧ s.node.refs.active = some ↑k ∧ s.node.refs.dplls.length = 4) ∧
    (let s : State := twoUsable;
     s.node.alive = true ∧
       s.node.refs.slots.length = 16 ∧
         let a : Nat := 0;
         let b : Nat := 1;
         s.node.usableSlots = [a, b] ∧
           s.node.slotRank a = s.node.slotRank b ∧
             s.node.refs.disputes = [] ∧
               (s.node.slotMean a - s.node.slotMean b).natAbs ≤ Nat.max 1 (s.node.fld refPage Fld.refAgreePpb) * 100) ∧
    (let s : State := twoApart;
     s.node.alive = true ∧
       s.node.refs.slots.length = 16 ∧
         let a : Nat := 0;
         let b : Nat := 1;
         s.node.usableSlots = [a, b] ∧
           s.node.slotRank a = s.node.slotRank b ∧
             s.node.refs.disputes = [] ∧
               Nat.max 1 (s.node.fld refPage Fld.refAgreePpb) * 100 < (s.node.slotMean a - s.node.slotMean b).natAbs) ∧
    (let s : State := refServes true;
     s.node.alive = true ∧
       s.node.refs.slots.length = 16 ∧
         let slot : Fin 4 := 0;
         s.node.mgmt.running = true ∧ s.node.slotBusy ↑slot = true ∧ s.node.lengthBad slot = false ∧ s.node.rt.inForce = true) ∧
    (let s : State := refServes false;
     s.node.alive = true ∧
       s.node.refs.slots.length = 16 ∧
         let slot : Fin 4 := 0;
         s.node.mgmt.running = true ∧ s.node.slotBusy ↑slot = true ∧ s.node.lengthBad slot = false ∧ s.node.rt.inForce = false) := by
  delta Reachable; refine ⟨?_, ?_, ?_, ?_, ?_, ?_,
    ⟨?_, ?_, ?_, ?_, ?_, ?_,
    ⟨?_, ?_, ?_, ?_, ?_, ?_, ?_⟩⟩⟩ <;> decide +kernel

/-- The hypotheses of `DpllStates` hold together. -/
theorem witness_DpllStates :
    (let s : State :=
       { node := (dpllSt 1 { state := DpllState.holdover, freq := 7 }).node.setFld refPage Fld.refHoldoverLimitS 1 |>.setFld refPage Fld.refHoStatElapsed 1 };
     let k : Fin 4 := 1;
     s.node.alive = true ∧
       s.node.refs.dplls.length = 4 ∧
         let x : Dpll := s.node.dpll ↑k;
         k = 1 ∧ x.state = DpllState.holdover ∧ s.node.fld refPage Fld.refHoldoverLimitS ≠ 0 ∧
           s.node.fld refPage Fld.refHoldoverLimitS ≤ s.node.fld refPage Fld.refHoStatElapsed) ∧
    (let s : State := dpllSt 0 { state := DpllState.fault };
     let k : Fin 4 := 0;
     s.node.alive = true ∧
       s.node.refs.dplls.length = 4 ∧
         let x : Dpll := s.node.dpll ↑k;
         x.state = DpllState.fault ∧ s.node.dpllInput ↑k = true ∧ (k ≠ 1 ∨ s.node.steering = true)) ∧
    (let s : State := noInput 1 { state := DpllState.fault, freq := 6 };
     let k : Fin 4 := 1;
     s.node.alive = true ∧
       s.node.refs.dplls.length = 4 ∧
         let x : Dpll := s.node.dpll ↑k;
         x.state = DpllState.fault ∧ s.node.dpllInput ↑k = false) ∧
    (let s : State := dpllSt 0 { state := .acquiring };
     let k : Fin 4 := 0;
     let x : Dpll := s.node.dpll ↑k;
     s.node.alive = true ∧ s.node.refs.dplls.length = 4 ∧ x.state = .acquiring ∧ 1 ≤ s.node.lockWindow k ∧ s.node.bwNow k ≤ s.node.bwSet k) ∧
    (let s : State := dpllSt 0 { state := .acquiring, bw := 20 };
     let k : Fin 4 := 0;
     let x : Dpll := s.node.dpll ↑k;
     s.node.alive = true ∧ s.node.refs.dplls.length = 4 ∧ x.state = .acquiring ∧ 1 ≤ s.node.lockWindow k ∧ s.node.bwSet k < s.node.bwNow k) ∧
    (let s : State := dpllSt 0 { state := .acquiring };
     let k : Fin 4 := 0;
     let x : Dpll := s.node.dpll ↑k;
     s.node.alive = true ∧ s.node.refs.dplls.length = 4 ∧ x.state = .acquiring ∧ s.node.lockWindow k < 1000000 ∧ 4 * s.node.lockWindow k < 1000000) ∧
    (let s : State := dpllSt 1 { state := .locked, lockedSecs := 5 };
     let k : Fin 4 := 1;
     let x : Dpll := s.node.dpll ↑k;
     s.node.alive = true ∧ s.node.refs.dplls.length = 4 ∧ x.state = .locked ∧ 4 ≤ 4 * s.node.lockWindow k ∧ 4 * s.node.lockWindow k < 1000000) ∧
    (let s : State := dpllSt 1 { state := .switching, slewLeft := 5, slewAt := 1000000000000 };
     let k : Fin 4 := 1;
     let x : Dpll := s.node.dpll ↑k;
     s.node.alive = true ∧ s.node.refs.dplls.length = 4 ∧ k = 1 ∧ x.state = .switching ∧ s.node.slewNow 1 ≠ 0) ∧
    (let s : State := { node := (dpllSt 1 { state := .switching }).node.setFld phcPage Fld.phcCtrlSteer 0 };
     let k : Fin 4 := 1;
     let x : Dpll := s.node.dpll ↑k;
     s.node.alive = true ∧ s.node.refs.dplls.length = 4 ∧ k = 1 ∧ x.state = .switching ∧ s.node.slewNow 1 = 0 ∧ s.node.steering = false) ∧
    (let s : State := { node := (dpllSt 1 { state := .switching }).node.setFld phcPage Fld.phcCtrlSteer 1 };
     let k : Fin 4 := 1;
     let x : Dpll := s.node.dpll ↑k;
     s.node.alive = true ∧ s.node.refs.dplls.length = 4 ∧ k = 1 ∧ x.state = .switching ∧ s.node.slewNow 1 = 0 ∧ s.node.steering = true) := by
  refine ⟨?_, ?_, ?_, ?_, ?_, ?_,
    ⟨?_, ?_, ?_, ?_⟩⟩ <;> decide +kernel

/-- The hypotheses of `AesPorts` hold together. -/
theorem witness_AesPorts :
    (let s : State := aesIs 0;
     let k : Fin 16 := 0;
     s.node.alive = true ∧
       let page : Page := aesPage ↑k;
       Reachable s page ∧ (s.node.hdr page).frozen = none) ∧
    (let s : State := aesIs 1;
     let k : Fin 16 := 0;
     s.node.alive = true ∧
       let state : Nat := s.node.aesState ↑k;
       state = 1) ∧
    (let s : State := aesIs 1;
     let k : Fin 16 := 0;
     s.node.alive = true ∧
       let page : Page := aesPage ↑k;
       let state : Nat := s.node.aesState ↑k;
       state ≠ 0 ∧ s.node.flag page Fld.aesCfgVMute = false) ∧
    (let s : State := aesIs 1;
     let k : Fin 16 := 0;
     s.node.alive = true ∧
       let state : Nat := s.node.aesState ↑k;
       let csA : List Byte := [];
       let ok : Bool := false;
       state ≠ 0 ∧ (BitVec.getLsbD (csA.getD 0 0) 0 = false ∨ ok = true)) ∧
    (let s : State := aesIs 1;
     let k : Fin 16 := 0;
     s.node.alive = true ∧
       let state : Nat := s.node.aesState ↑k;
       let csA : List Byte := [1, 2];
       let ok : Bool := false;
       state ≠ 0 ∧ BitVec.getLsbD (csA.getD 0 0) 0 = true ∧ ok = false) ∧
    (let s : State := aesIs 2;
     let k : Fin 16 := 0;
     s.node.alive = true ∧
       let state : Nat := s.node.aesState ↑k;
       2 ≤ state ∧ state ≠ 4) ∧
    (let s : State := aesIs 2;
     let k : Fin 16 := 0;
     s.node.alive = true ∧
       let page : Page := aesPage ↑k;
       let state : Nat := s.node.aesState ↑k;
       let rate : Nat := 4800;
       state = 2 ∧ 2800 ≤ rate ∧ rate ≤ 21600 ∧ s.node.act page Fld.aesCfgRxSync = 0) ∧
    (let s : State := aesIs 3;
     let k : Fin 16 := 0;
     s.node.alive = true ∧
       let state : Nat := s.node.aesState ↑k;
       state = 3) ∧
    (let s : State := aesIs 4;
     let k : Fin 16 := 0;
     s.node.alive = true ∧
       let state : Nat := s.node.aesState ↑k;
       state = 4) ∧
    (let s : State := aesIs 3;
     let k : Fin 16 := 0;
     s.node.alive = true ∧
       let state : Nat := s.node.aesState ↑k;
       let rate : Nat := 2799;
       2 ≤ state ∧ (rate < 2800 ∨ 21600 < rate) ∧ state ≠ 4) ∧
    (let s : State := aesIs 4;
     let k : Fin 16 := 0;
     s.node.alive = true ∧
       let page : Page := aesPage ↑k;
       let state : Nat := s.node.aesState ↑k;
       let x : AesSt := s.node.aes ↑k;
       let rate : Nat := 2800;
       let ratio : Word := 0;
       state = 4 ∧ 2800 ≤ rate ∧ rate ≤ 21600 ∧ s.node.act page Fld.aesCfgRxSync = 0 ∧
         Int.natAbs ((x.lockRatio.toNat : Int) - ratio.toNat) * 50 ≤ x.lockRatio.toNat) ∧
    (let s : State := aesIs 4;
     let k : Fin 16 := 0;
     s.node.alive = true ∧
       let page : Page := aesPage ↑k;
       let state : Nat := s.node.aesState ↑k;
       let x : AesSt := s.node.aes ↑k;
       let rate : Nat := 21600;
       let ratio : Word := 1;
       state = 4 ∧ 2800 ≤ rate ∧ rate ≤ 21600 ∧ s.node.act page Fld.aesCfgRxSync = 0 ∧
         x.lockRatio.toNat < Int.natAbs ((x.lockRatio.toNat : Int) - ratio.toNat) * 50) ∧
    (let s : State := aesSync 2;
     let k : Fin 16 := 0;
     s.node.alive = true ∧
       let page : Page := aesPage ↑k;
       let state : Nat := s.node.aesState ↑k;
       let ratio : Word := 536870912;
       let rate : Nat := 9600;
       state = 2 ∧ 2800 ≤ rate ∧ rate ≤ 21600 ∧ s.node.act page Fld.aesCfgRxSync ≠ 0 ∧ ratio = 536870912) ∧
    (let s : State := aesSync 4;
     let k : Fin 16 := 0;
     s.node.alive = true ∧
       let page : Page := aesPage ↑k;
       let state : Nat := s.node.aesState ↑k;
       state = 4 ∧ s.node.act page Fld.aesCfgRxSync ≠ 0) ∧
    (let s : State := aesMutes;
     let k : Fin 16 := 0;
     s.node.alive = true ∧
       let page : Page := aesPage ↑k;
       let state : Nat := s.node.aesState ↑k;
       let x : AesSt := s.node.aes ↑k;
       let a : Subframe := subA;
       let b : Subframe := subB;
       state ≠ 0 ∧
         s.node.flag page Fld.aesCfgVMute = true ∧
           a.v = true ∧
             b.v = false ∧ 7 ≤ x.vRunA ∧ x.vHeldA = false ∧ s.node.inputBundle { kind := 1, num := ↑k } ≠ 0) ∧
    (let s : State := aesSends;
     let k : Fin 16 := 0;
     s.node.alive = true ∧
       let page : Page := aesPage ↑k;
       let x : AesSt := s.node.aes ↑k;
       s.node.flag page Fld.aesTxStatRunning = true ∧ x.txStops = false) ∧
    (let s : State := aesIs 4;
     let k : Fin 16 := 0;
     let x : AesSt := s.node.aes ↑k;
     s.node.alive = true ∧ s.node.aesState k = 4 ∧ s.node.act (aesPage k) Fld.aesCfgRxSync = 0 ∧
       Int.natAbs ((x.lockRatio.toNat : Int) - (0 : Word).toNat) * 50 ≤ x.lockRatio.toNat ∧ ratioJumps s.node k 2800 0 = false) ∧
    (let s : State := { node := (aesIs 4).node.modAes 0 (fun x => { x with lastRatio := 0x10000000, lockRatio := 0x10000000 }) };
     let k : Fin 16 := 0;
     s.node.alive = true ∧ s.node.aesState k = 4 ∧ s.node.act (aesPage k) Fld.aesCfgRxSync = 0 ∧
       ratioJumps s.node k 4800 0x10010000 = true) ∧
    (let s : State := { node := aesSends.node.modAes 0 (fun x => { x with txStops := true }) };
     let k : Fin 16 := 0;
     s.node.alive = true ∧ s.node.flag (aesPage k) Fld.aesTxStatRunning = true ∧ (s.node.aes k).txStops = true) ∧
    (let s : State := aesIs 0;
     let k : Fin 16 := 0;
     s.node.alive = true ∧ s.node.flag (aesPage k) Fld.aesTxStatRunning = false) := by
  delta Reachable; refine ⟨?_, ?_, ?_, ?_, ?_, ?_,
    ⟨?_, ?_, ?_, ?_, ?_, ?_,
    ⟨?_, ?_, ?_, ?_, ?_, ?_,
    ⟨?_, ?_⟩⟩⟩⟩ <;> decide +kernel

/-- The hypotheses of `TdmAndDecimators` hold together. -/
theorem witness_TdmAndDecimators :
    (let s : State := { node := tdmNode { } };
     s.node.alive = true ∧
       let p : Fin 8 := 0;
       (s.node.hdr (tdmPage ↑p)).active = true ∧
         let page : Page := tdmPage ↑p;
         s.node.act page Fld.tdmCfgMaster = 0) ∧
    (let s : State := { node := tdmNode { } };
     s.node.alive = true ∧
       let i : Fin 64 := 0;
       s.node.boot.drvPresent = true ∧ s.node.pinStuck ↑i = false) ∧
    (let s : State := tdmWaits;
     s.node.alive = true ∧
       let p : Fin 8 := 0;
       (s.node.hdr (tdmPage ↑p)).active = true ∧
         let page : Page := tdmPage ↑p;
         let x : TdmSt := s.node.tdm ↑p;
         x.waiting = true ∧ x.fades = [] ∧ s.node.flag page Fld.tdmMaskctlGraceful = true) ∧
    (let s : State := tdmAtOnce;
     s.node.alive = true ∧
       let p : Fin 8 := 0;
       (s.node.hdr (tdmPage ↑p)).active = true ∧
         let page : Page := tdmPage ↑p;
         let x : TdmSt := s.node.tdm ↑p;
         x.waiting = true ∧ x.fades = [] ∧ s.node.flag page Fld.tdmMaskctlGraceful = false) ∧
    (let s : State := tdmFades;
     s.node.alive = true ∧
       let p : Fin 8 := 0;
       let output : Bool := false;
       let slot : Fin 32 := 0;
       let f : SlotFade := fadeDown;
       List.find? (fun x => decide (x.output = output ∧ x.slot = ↑slot)) (s.node.tdm ↑p).fades = some f) ∧
    (let s : State := stuck0;
     s.node.alive = true ∧
       let i : Fin 64 := 0;
       s.node.pinStuck ↑i = true) ∧
    (let s : State := decChanges;
     s.node.alive = true ∧
       let k : Fin 64 := 0;
       (s.node.dec ↑k).changing = true ∧ (s.node.dec ↑k).ran ≤ 32 ∧ 32 < (s.node.dec ↑k).ran + s.node.s) ∧
    (let s : State := decSettles;
     s.node.alive = true ∧
       let k : Fin 64 := 0;
       s.node.flag decPage Fld.decStatSettling ↑k = true ∧ s.node.fld decPage Fld.decStatSettleLeft ↑k ≤ s.node.s) := by
  refine ⟨?_, ?_, ?_, ?_, ?_, ?_,
    ⟨?_, ?_⟩⟩ <;> decide +kernel

/-- The hypotheses of `DriveChannels` hold together. -/
theorem witness_DriveChannels :
    (let s : State := chSt 0;
     let c : Chan := 0;
     s.node.alive = true ∧
       let i : Nat := ↑c;
       let page : Page := modPage (i / 8);
       let d : DrvCh := s.node.drv i;
       let src : Src := pcie;
       Reachable s page ∧ ¬src.port ∈ (s.node.hdr page).keyArmed ∧ d.stop = StopPhase.none) ∧
    (let s : State := chSt 0;
     let c : Chan := 0;
     s.node.alive = true ∧
       let i : Nat := ↑c;
       Reachable s snsPage ∧ (s.node.hdr snsPage).frozen = none ∧ s.node.fld snsPage Fld.snsSelChannel = i) ∧
    (let s : State := chSt 1;
     let c : Chan := 0;
     s.node.alive = true ∧
       let i : Nat := ↑c;
       let st : Nat := s.node.chState i;
       let frame : List Byte := [];
       (st = 1 ∨ st = 5 ∨ st = 6 ∨ st = 7 ∨ st = 9) ∧
         let r : Nat := identityResult i frame;
         2 ≤ r ∧ r ≤ 5) ∧
    (let s : State := chSt 1;
     let c : Chan := 0;
     s.node.alive = true ∧
       let i : Nat := ↑c;
       let st : Nat := s.node.chState i;
       let frame : List Byte := idFrame 1 0;
       (st = 1 ∨ st = 5 ∨ st = 6 ∨ st = 7 ∨ st = 9) ∧
         let r : Nat := identityResult i frame;
         r = 1 ∨ r = 7) ∧
    (let s : State := chSt 2;
     let c : Chan := 0;
     s.node.alive = true ∧
       let i : Nat := ↑c;
       let st : Nat := s.node.chState i;
       let frame : List Byte := idFrame 3 4;
       let period : Nat := 656;
       st = 2 ∧ s.node.chFld i Fld.modChstatFollowed = 0 ∧ s.node.chActive i = true ∧ 16 < period ∧ identityResult i frame = 7) ∧
    (let s : State := chSt 3;
     let c : Chan := 0;
     s.node.alive = true ∧
       let i : Nat := ↑c;
       let st : Nat := s.node.chState i;
       st = 3 ∨ st = 4 ∨ st = 8 ∨ st = 2 ∧ s.node.chFld i Fld.modChstatFollowed = 1) ∧
    (let s : State := chCut;
     let c : Chan := 0;
     s.node.alive = true ∧
       let i : Nat := ↑c;
       let st : Nat := s.node.chState i;
       st = 3 ∧ 8 ≤ s.node.drive.missing) ∧
    (let s : State := chSt 5;
     let c : Chan := 0;
     s.node.alive = true ∧
       let i : Nat := ↑c;
       let st : Nat := s.node.chState i;
       st = 5) ∧
    (let s : State := chSt 8;
     let c : Chan := 0;
     s.node.alive = true ∧
       let i : Nat := ↑c;
       let st : Nat := s.node.chState i;
       st = 8 ∧ s.node.chActive i = true) ∧
    (let s : State := chFollowed 2;
     let c : Chan := 0;
     s.node.alive = true ∧
       let i : Nat := ↑c;
       let st : Nat := s.node.chState i;
       st = 2 ∧ s.node.chFld i Fld.modChstatFollowed = 1) ∧
    (let s : State := chOffPage 4;
     let c : Chan := 0;
     s.node.alive = true ∧
       let i : Nat := ↑c;
       let st : Nat := s.node.chState i;
       let d : DrvCh := s.node.drv i;
       st = 4 ∧ d.stop = StopPhase.ending) ∧
    (let s : State := chOffPage 4;
     let c : Chan := 0;
     s.node.alive = true ∧
       let i : Nat := ↑c;
       let page : Page := modPage (i / 8);
       let d : DrvCh := s.node.drv i;
       let src : Src := pcie;
       Reachable s page ∧ ¬src.port ∈ (s.node.hdr page).keyArmed ∧ d.stop = StopPhase.ending) ∧
    (let s : State :=
       chIn 4 fun d =>
         { d with stop := StopPhase.fading };
     let c : Chan := 0;
     s.node.alive = true ∧
       let i : Nat := ↑c;
       let page : Page := modPage (i / 8);
       let d : DrvCh := s.node.drv i;
       let src : Src := pcie;
       Reachable s page ∧ ¬src.port ∈ (s.node.hdr page).keyArmed ∧ d.stop = StopPhase.fading ∧ d.toOff = false) ∧
    (let s : State :=
       {
         node :=
           (chIn 1 fun d =>
                   { d with carrierWaits := true }).node.setAct
             (modPage 0) (Fld.modCarrierPeriod 0) 2622 };
     let c : Chan := 0;
     s.node.alive = true ∧
       let i : Nat := ↑c;
       let st : Nat := s.node.chState i;
       let d : DrvCh := s.node.drv i;
       d.carrierWaits = true ∧
         st ≠ 2 ∧
           let lo : Nat := 656;
           let hi : Nat := 873;
           let p : Nat := 873;
           ((lo, hi) = if s.node.chAct i Fld.modCarrierCmode = 1 then (894, 2621) else (656, 873)) ∧
             p = lo.max (hi.min (s.node.chAct i Fld.modCarrierPeriod))) ∧
    (let s : State := lateGroup;
     let c : Chan := 0;
     s.node.alive = true ∧
       let i : Nat := ↑c;
       let st : Nat := s.node.chState i;
       let g : Fin 64 := 0;
       Sparse.get (fun x => 0) s.node.drive.firstMet ↑g ≠ 0 ∧
         i ∈ s.node.groupChans ↑g ∧ s.node.chEnabled i = true ∧ s.node.mayRelease i = false ∧ (st = 1 ∨ st = 7)) ∧
    (let s : State := { node := (chSt 2).node.setHdr (modPage 0) {} };
     let i : Nat := 0;
     let st : Nat := s.node.chState i;
     let d : DrvCh := s.node.drv i;
     s.node.alive = true ∧ st = 2 ∧ s.node.chFld i Fld.modChstatFollowed = 0 ∧ s.node.chActive i = false) ∧
    (let s : State := chSt 2;
     let i : Nat := 0;
     let st : Nat := s.node.chState i;
     let d : DrvCh := s.node.drv i;
     s.node.alive = true ∧ st = 2 ∧ s.node.chFld i Fld.modChstatFollowed = 0 ∧ s.node.chActive i = true) ∧
    (let s : State := chSt 8;
     let i : Nat := 0;
     let st : Nat := s.node.chState i;
     let d : DrvCh := s.node.drv i;
     s.node.alive = true ∧ st = 8 ∧ s.node.chFld i Fld.modProtIlim < 65536 ∧ 0 ≤ s.node.chFld i Fld.modProtIlim) ∧
    (let s : State := chSt 9;
     let i : Nat := 0;
     let st : Nat := s.node.chState i;
     let d : DrvCh := s.node.drv i;
     s.node.alive = true ∧ st = 9) ∧
    (let s : State := chIn 4 fun d => { d with stop := .fading, fromRun := true };
     let i : Nat := 0;
     let st : Nat := s.node.chState i;
     let d : DrvCh := s.node.drv i;
     s.node.alive = true ∧ Reachable s (modPage 0) ∧ ¬pcie.port ∈ (s.node.hdr (modPage 0)).keyArmed ∧ d.stop = .fading ∧ d.toOff = false ∧ d.fromRun = true) ∧
    (let s : State := chIn 4 fun d => { d with stop := .fading, toOff := true };
     let i : Nat := 0;
     let st : Nat := s.node.chState i;
     let d : DrvCh := s.node.drv i;
     s.node.alive = true ∧ Reachable s (modPage 0) ∧ ¬pcie.port ∈ (s.node.hdr (modPage 0)).keyArmed ∧ d.stop = .fading ∧ d.toOff = true) ∧
    (let s : State := chIn 3 fun d => { d with stop := .asked };
     let i : Nat := 0;
     let st : Nat := s.node.chState i;
     let d : DrvCh := s.node.drv i;
     s.node.alive = true ∧ Reachable s (modPage 0) ∧ ¬pcie.port ∈ (s.node.hdr (modPage 0)).keyArmed ∧ d.stop = .asked) := by
  delta Reachable; refine ⟨?_, ?_, ?_, ?_, ?_, ?_,
    ⟨?_, ?_, ?_, ?_, ?_, ?_,
    ⟨?_, ?_, ?_, ?_, ?_, ?_,
    ⟨?_, ?_, ?_, ?_⟩⟩⟩⟩ <;> decide +kernel

/-- The hypotheses of `CarrierAndFaultServices` hold together. -/
theorem witness_CarrierAndFaultServices :
    (let s : State := { node := svc };
     let slot : Fin 4 := 0;
     s.node.alive = true ∧
       s.node.mgmt.running = true ∧
         s.node.slotBusy ↑slot = true ∧ s.node.lengthBad slot = false ∧
           s.node.boot.drvPresent = true ∧
             let word : Word := 0;
             let freqs : List Word := [];
             freqs.length = BitVec.toNat word % 64 ∧
               let fs : List Nat := List.map (fun w => BitVec.toNat w % 2 ^ 24) freqs;
               freqs.length ≤ 32 ∧ ∀ (v : Nat), v ∈ fs → 100000 ≤ v ∧ v ≤ 16000000) ∧
    (let s : State := { node := svc };
     let slot : Fin 4 := 0;
     s.node.alive = true ∧
       s.node.mgmt.running = true ∧
         s.node.slotBusy ↑slot = true ∧ s.node.lengthBad slot = false ∧
           s.node.boot.drvPresent = true ∧
             let word : Word := 49153;
             let freqs : List Word := [16000001];
             freqs.length = BitVec.toNat word % 64 ∧
               let fs : List Nat := List.map (fun w => BitVec.toNat w % 2 ^ 24) freqs;
               32 < freqs.length ∨ ∃ v, v ∈ fs ∧ (v < 100000 ∨ 16000000 < v)) ∧
    (let s : State := { node := svc };
     let slot : Fin 4 := 0;
     s.node.alive = true ∧
       s.node.mgmt.running = true ∧
         let dr : DriveSt := s.node.drive;
         s.node.slotBusy ↑slot = true ∧ s.node.lengthBad slot = false ∧
           s.node.boot.drvPresent = true ∧
             let word : Word := 0;
             let first : Nat := BitVec.toNat word % 256;
             let count : Nat := BitVec.toNat word / 256 % 256;
             first + count ≤ 192 ∧ ∀ (j : PlanJob), j ∈ dr.jobs → j.state ≠ 1) ∧
    (let s : State := { node := svc };
     let slot : Fin 4 := 0;
     s.node.alive = true ∧
       s.node.mgmt.running = true ∧
         s.node.slotBusy ↑slot = true ∧ s.node.lengthBad slot = false ∧
           s.node.boot.drvPresent = true ∧
             let word : Word := 4294967295;
             let first : Nat := BitVec.toNat word % 256;
             let count : Nat := BitVec.toNat word / 256 % 256;
             192 < first + count) ∧
    (let s : State := { node := svc };
     let slot : Fin 4 := 0;
     s.node.alive = true ∧
       s.node.mgmt.running = true ∧
         let dr : DriveSt := s.node.drive;
         s.node.slotBusy ↑slot = true ∧ s.node.lengthBad slot = false ∧
           s.node.boot.drvPresent = true ∧
             let k : Nat := 0;
             List.find? (fun j => decide (j.num = k)) dr.jobs = none) ∧
    (let s : State := { node := svc };
     let slot : Fin 4 := 0;
     s.node.alive = true ∧
       s.node.mgmt.running = true ∧
         s.node.slotBusy ↑slot = true ∧ s.node.lengthBad slot = false ∧
           s.node.boot.drvPresent = true ∧
             let c : Nat := 0;
             c < 192 ∧ s.node.carrierDistance [] c (s.node.drv c).period = none) ∧
    (let s : State := { node := svc };
     let slot : Fin 4 := 0;
     s.node.alive = true ∧
       s.node.mgmt.running = true ∧
         s.node.slotBusy ↑slot = true ∧ s.node.lengthBad slot = false ∧
           s.node.boot.drvPresent = true ∧
             let c : Nat := 192;
             192 ≤ c) ∧
    (let s : State := { node := svc };
     let slot : Fin 4 := 0;
     s.node.alive = true ∧
       s.node.mgmt.running = true ∧
         s.node.slotBusy ↑slot = true ∧ s.node.lengthBad slot = false ∧
           s.node.boot.drvPresent = true ∧
             let word : Word := 4294967295;
             192 ≤ BitVec.toNat word % 256) ∧
    (let s : State := { node := svc };
     let slot : Fin 4 := 0;
     s.node.alive = true ∧
       s.node.mgmt.running = true ∧
         s.node.slotBusy ↑slot = true ∧ s.node.lengthBad slot = false ∧
           s.node.boot.drvPresent = true ∧
             let word : Word := 700 * 65536;
             let c : Nat := 0;
             let p : Nat := 700;
             c = BitVec.toNat word % 256 ∧
               c < 192 ∧
                 p = BitVec.toNat word / 65536 % 4096 ∧
                   (if s.node.chFld c Fld.modCarrierCmode = 1 then 894 ≤ p ∧ p ≤ 2621 else 656 ≤ p ∧ p ≤ 873) ∧
                     s.node.carrierDistance [] c p = none) ∧
    (let s : State := { node := svc };
     let slot : Fin 4 := 0;
     s.node.alive = true ∧
       s.node.mgmt.running = true ∧
         s.node.slotBusy ↑slot = true ∧ s.node.lengthBad slot = false ∧
           let word : Word := 0;
           let page : Option Page := regionPage (BitVec.toNat word / 2 ^ 28) (BitVec.toNat word / 2 ^ 20 % 256);
           let unit : Nat := BitVec.toNat word % 256;
           let p : Page := { block := Block.sys, inst := 0 };
           page = some p ∧ (hasTest p.block = false ∨ testUnits p.block ≤ unit)) ∧
    (let s : State := { node := svc };
     let slot : Fin 4 := 0;
     s.node.alive = true ∧
       s.node.mgmt.running = true ∧
         s.node.slotBusy ↑slot = true ∧ s.node.lengthBad slot = false ∧
           let word : Word := 4294967295;
           let page : Option Page := regionPage (BitVec.toNat word / 2 ^ 28) (BitVec.toNat word / 2 ^ 20 % 256);
           page = none) ∧
    (let s : State := { node := svc };
     let slot : Fin 4 := 0;
     s.node.alive = true ∧
       s.node.mgmt.running = true ∧
         s.node.slotBusy ↑slot = true ∧ s.node.lengthBad slot = false ∧
           let word : Word := 268435456;
           let page : Option Page := regionPage (BitVec.toNat word / 2 ^ 28) (BitVec.toNat word / 2 ^ 20 % 256);
           let unit : Nat := BitVec.toNat word % 256;
           let p : Page := penPage 0;
           page = some p ∧ hasTest p.block = true ∧ unit < testUnits p.block ∧ s.node.pagePresent p = true) ∧
    (let s : State := { node := svc };
     let slot : Fin 4 := 0;
     s.node.alive = true ∧
       s.node.mgmt.running = true ∧
         let f : FltSt := s.node.flt;
         s.node.slotBusy ↑slot = true ∧ s.node.lengthBad slot = false ∧
           let k : Nat := 0;
           List.find? (fun j => decide (j.job = k)) f.jobs = none) ∧
    (let s : State := svcNoDrive;
     let slot : Fin 4 := 0;
     s.node.alive = true ∧ s.node.mgmt.running = true ∧ s.node.slotBusy ↑slot = true ∧ s.node.lengthBad slot = false ∧ s.node.boot.drvPresent =
       false) ∧
    (let s : State := svcNoDrive;
     let slot : Fin 4 := 0;
     s.node.alive = true ∧
       s.node.mgmt.running = true ∧
         s.node.slotBusy ↑slot = true ∧ s.node.lengthBad slot = false ∧
           let word : Word := 268435456;
           let page : Option Page := regionPage (BitVec.toNat word / 2 ^ 28) (BitVec.toNat word / 2 ^ 20 % 256);
           let unit : Nat := BitVec.toNat word % 256;
           let p : Page := penPage 0;
           page = some p ∧ hasTest p.block = true ∧ unit < testUnits p.block ∧ s.node.pagePresent p = false) ∧
    (let s : State := svcPlans;
     let slot : Fin 4 := 0;
     s.node.alive = true ∧
       s.node.mgmt.running = true ∧
         let dr : DriveSt := s.node.drive;
         s.node.slotBusy ↑slot = true ∧ s.node.lengthBad slot = false ∧
           s.node.boot.drvPresent = true ∧
             let word : Word := 0;
             let first : Nat := BitVec.toNat word % 256;
             let count : Nat := BitVec.toNat word / 256 % 256;
             first + count ≤ 192 ∧ ∃ j, j ∈ dr.jobs ∧ j.state = 1) ∧
    (let s : State := svcPlans;
     let slot : Fin 4 := 0;
     s.node.alive = true ∧
       s.node.mgmt.running = true ∧
         let dr : DriveSt := s.node.drive;
         s.node.slotBusy ↑slot = true ∧ s.node.lengthBad slot = false ∧
           s.node.boot.drvPresent = true ∧
             let k : Nat := 1;
             let j : PlanJob := planA;
             List.find? (fun j => decide (j.num = k)) dr.jobs = some j ∧ j.state = 1) ∧
    (let s : State := svcPlans;
     let slot : Fin 4 := 0;
     s.node.alive = true ∧
       s.node.mgmt.running = true ∧
         let dr : DriveSt := s.node.drive;
         s.node.slotBusy ↑slot = true ∧ s.node.lengthBad slot = false ∧
           s.node.boot.drvPresent = true ∧
             let k : Nat := 2;
             let j : PlanJob := planB;
             List.find? (fun j => decide (j.num = k)) dr.jobs = some j ∧ j.state ≠ 1) ∧
    (let s : State := svcPlans;
     let slot : Fin 4 := 0;
     s.node.alive = true ∧
       s.node.mgmt.running = true ∧
         s.node.slotBusy ↑slot = true ∧ s.node.lengthBad slot = false ∧
           s.node.boot.drvPresent = true ∧
             let c : Nat := 0;
             c < 192 ∧
               let t : CarrierTerm :=
                 List.foldl nearer
                   {
                     num :=
                       termDistance (0 + 1, 0, (0 + 1) * timingHz, 700).snd.snd.fst
                         (0 + 1, 0, (0 + 1) * timingHz, 700).snd.snd.snd (576000, 0).fst,
                     den := (0 + 1, 0, (0 + 1) * timingHz, 700).snd.snd.snd,
                     kind := (0 + 1, 0, (0 + 1) * timingHz, 700).fst }
                   ((List.map
                         (fun t =>
                           { num := termDistance t.snd.snd.fst t.snd.snd.snd (576000, 0).fst, den := t.snd.snd.snd,
                             kind := t.fst, other := t.snd.fst })
                         ((List.map (fun k => (k + 1, 0, (k + 1) * timingHz, 700)) [1, 2, 3, 4, 5, 6, 7]).append
                           (List.flatMap
                             (fun o =>
                               have b : Nat := o.fst;
                               have pb : Nat := o.snd;
                               have far : Nat → Nat → Nat := fun x y => if y ≤ x then x - y else y - x;
                               [(16, b, (pb + 700) * timingHz, 700 * pb), (17, b, far pb 700 * timingHz, 700 * pb),
                                 (18, b, far (2 * pb) 700 * timingHz, 700 * pb),
                                 (19, b, far (2 * 700) pb * timingHz, 700 * pb)])
                             (svcPlans.node.railOthers [] 0)))).append
                     (List.map
                         (fun f =>
                           List.map
                             (fun t =>
                               { num := termDistance t.snd.snd.fst t.snd.snd.snd f.fst, den := t.snd.snd.snd,
                                 freq := f.snd, kind := t.fst, other := t.snd.fst })
                             (carrierFreqs 700 (svcPlans.node.railOthers [] 0)))
                         ([16000000].zipIdx (0 + 1))).flatten);
               s.node.carrierDistance [] c (s.node.drv c).period = some t) ∧
    (let s : State := svcPlans;
     let slot : Fin 4 := 0;
     s.node.alive = true ∧
       s.node.mgmt.running = true ∧
         s.node.slotBusy ↑slot = true ∧ s.node.lengthBad slot = false ∧
           s.node.boot.drvPresent = true ∧
             let word : Word := 700 * 65536;
             let c : Nat := 0;
             let p : Nat := 700;
             c = BitVec.toNat word % 256 ∧
               c < 192 ∧
                 p = BitVec.toNat word / 65536 % 4096 ∧
                   (if s.node.chFld c Fld.modCarrierCmode = 1 then 894 ≤ p ∧ p ≤ 2621 else 656 ≤ p ∧ p ≤ 873) ∧
                     let t : CarrierTerm :=
                       List.foldl nearer
                         {
                           num :=
                             termDistance (0 + 1, 0, (0 + 1) * timingHz, 700).snd.snd.fst
                               (0 + 1, 0, (0 + 1) * timingHz, 700).snd.snd.snd (576000, 0).fst,
                           den := (0 + 1, 0, (0 + 1) * timingHz, 700).snd.snd.snd,
                           kind := (0 + 1, 0, (0 + 1) * timingHz, 700).fst }
                         ((List.map
                               (fun t =>
                                 { num := termDistance t.snd.snd.fst t.snd.snd.snd (576000, 0).fst,
                                   den := t.snd.snd.snd, kind := t.fst, other := t.snd.fst })
                               ((List.map (fun k => (k + 1, 0, (k + 1) * timingHz, 700))
                                     [1, 2, 3, 4, 5, 6, 7]).append
                                 (List.flatMap
                                   (fun o =>
                                     have b : Nat := o.fst;
                                     have pb : Nat := o.snd;
                                     have far : Nat → Nat → Nat := fun x y => if y ≤ x then x - y else y - x;
                                     [(16, b, (pb + 700) * timingHz, 700 * pb),
                                       (17, b, far pb 700 * timingHz, 700 * pb),
                                       (18, b, far (2 * pb) 700 * timingHz, 700 * pb),
                                       (19, b, far (2 * 700) pb * timingHz, 700 * pb)])
                                   (svcPlans.node.railOthers [] 0)))).append
                           (List.map
                               (fun f =>
                                 List.map
                                   (fun t =>
                                     { num := termDistance t.snd.snd.fst t.snd.snd.snd f.fst, den := t.snd.snd.snd,
                                       freq := f.snd, kind := t.fst, other := t.snd.fst })
                                   (carrierFreqs 700 (svcPlans.node.railOthers [] 0)))
                               ([16000000].zipIdx (0 + 1))).flatten);
                     s.node.carrierDistance [] c p = some t) ∧
    (let s : State := svcPlans;
     s.node.alive = true ∧
       s.node.mgmt.running = true ∧
         let dr : DriveSt := s.node.drive;
         let k : Nat := 1;
         let j : PlanJob := planA;
         List.find? (fun j => decide (j.num = k ∧ j.state = 1)) dr.jobs = some j ∧
           s.node.running = true ∧
             let planned : Nat → Prop := fun c =>
               j.first ≤ c ∧ c < j.first + j.count ∧ c < 192 ∧ s.node.chFld c Fld.modCarrierCmode = 1;
             ∀ (c : Nat),
               planned c →
                 (s.node.hdr (modPage (c / 8))).resetting = false ∧
                   s.node.fld (modPage (c / 8)) Fld.pgCtrlCommitMode ≠ 2) ∧
    (let s : State := svcFaults;
     let slot : Fin 4 := 0;
     s.node.alive = true ∧
       s.node.mgmt.running = true ∧
         let f : FltSt := s.node.flt;
         s.node.slotBusy ↑slot = true ∧ s.node.lengthBad slot = false ∧
           let k : Nat := 1;
           let j : TestJob := testA;
           List.find? (fun j => decide (j.job = k)) f.jobs = some j) := by
  refine ⟨?_, ?_, ?_, ?_, ?_, ?_,
    ⟨?_, ?_, ?_, ?_, ?_, ?_,
    ⟨?_, ?_, ?_, ?_, ?_, ?_,
    ⟨?_, ?_, ?_, ?_⟩⟩⟩⟩ <;>
    first
    | decide +kernel
    | exact ⟨by decide +kernel, by decide +kernel, by decide +kernel, by decide +kernel, fun c h => by
        have h2 : c < 2 := h.2.1
        obtain rfl | rfl : c = 0 ∨ c = 1 := by omega
        all_goals decide +kernel⟩

/-- The hypotheses of `DramController` hold together. -/
theorem witness_DramController :
    (let s : State := drmA;
     let r : Fin 4 := 0;
     s.node.alive = true ∧
       let rank : Nat := ↑r;
       s.node.dramOn = true ∧ s.node.postponed rank < Nat.min 8 (s.node.fld drmPage Fld.drmRefreshPostponeMax)) ∧
    (let s : State := drmA;
     let r : Fin 4 := 0;
     s.node.alive = true ∧
       let rank : Nat := ↑r;
       let d : DramSt := s.node.dram;
       s.node.dramOn = true ∧
         let b : Fin 32 := 0;
         let row : BitVec 16 := 5;
         (s.node.dram16 = true ∨ ↑b < 16) ∧
           let q : List (Nat × Nat × Nat) := s.node.nrQueue (rank / 2);
           let held : Bool := q.any fun e => decide (e.fst = rank ∧ e.snd.fst = ↑b);
           let t : List ActRow := countActivate (Sparse.get (fun x => []) d.tables (rank * 32 + ↑b)) row.toNat;
           let reached : Bool :=
             t.any fun e => decide (e.row = row.toNat ∧ Nat.max 256 (s.node.fld drmPage Fld.drmActThresh) ≤ e.count);
           reached = false ∧ (q.length < 16 ∨ held = false)) ∧
    (let s : State := drmA;
     let r : Fin 4 := 0;
     s.node.alive = true ∧
       let rank : Nat := ↑r;
       let st : Nat := s.node.rankState rank;
       s.node.dramOn = true ∧ (st = 1 ∨ st = 7)) ∧
    (let s : State := drmA;
     let r : Fin 4 := 0;
     s.node.alive = true ∧
       let rank : Nat := ↑r;
       let st : Nat := s.node.rankState rank;
       s.node.dramOn = true ∧ (st = 1 ∨ st = 3 ∨ st = 6 ∨ st = 7)) ∧
    (let s : State := drmA;
     let r : Fin 4 := 0;
     s.node.alive = true ∧
       let rank : Nat := ↑r;
       let st : Nat := s.node.rankState rank;
       s.node.dramOn = true ∧ (st = 1 ∨ st = 3 ∨ st = 6)) ∧
    (let s : State := drmA;
     let r : Fin 4 := 0;
     s.node.alive = true ∧
       let rank : Nat := ↑r;
       let st : Nat := s.node.rankState rank;
       s.node.dramOn = true ∧ st = 1) ∧
    (let s : State := drmA;
     s.node.alive = true ∧
       let src : Src := pcie;
       Reachable s drmPage ∧ ¬src.port ∈ (s.node.hdr drmPage).keyArmed ∧ (s.node.hdr drmPage).active = true) ∧
    (let s : State := drmMigrates;
     let r : Fin 4 := 0;
     s.node.alive = true ∧
       let rank : Nat := ↑r;
       let st : Nat := s.node.rankState rank;
       s.node.dramOn = true ∧ (st = 3 ∨ st = 6)) ∧
    (let s : State := drmMigrates;
     s.node.alive = true ∧
       let d : DramSt := s.node.dram;
       s.node.dramOn = true ∧
         let f : Fin 4 := 0;
         let sp : Fin 4 := 2;
         f ≠ sp ∧ d.migrating = some (↑f, ↑sp) ∧ s.node.fld drmPage Fld.drmMigMarkW < s.node.rankSize / 64 - 4) ∧
    (let s : State := drmCopied;
     s.node.alive = true ∧
       let d : DramSt := s.node.dram;
       s.node.dramOn = true ∧
         let f : Fin 4 := 0;
         let sp : Fin 4 := 2;
         f ≠ sp ∧ d.migrating = some (↑f, ↑sp) ∧ s.node.rankSize / 64 - 4 ≤ s.node.fld drmPage Fld.drmMigMarkW) ∧
    (let s : State := drmPostponed;
     let r : Fin 4 := 0;
     s.node.alive = true ∧
       let rank : Nat := ↑r;
       s.node.dramOn = true ∧ Nat.min 8 (s.node.fld drmPage Fld.drmRefreshPostponeMax) ≤ s.node.postponed rank) ∧
    (let s : State := drmFull;
     let r : Fin 4 := 0;
     s.node.alive = true ∧
       let rank : Nat := ↑r;
       s.node.dramOn = true ∧
         let b : Fin 32 := 0;
         (s.node.dram16 = true ∨ ↑b < 16) ∧
           let q : List (Nat × Nat × Nat) := s.node.nrQueue (rank / 2);
           let held : Bool := q.any fun e => decide (e.fst = rank ∧ e.snd.fst = ↑b);
           16 ≤ q.length ∧ held = true) ∧
    (let s : State := drmFull;
     s.node.alive = true ∧
       let ch : Fin 2 := 0;
       let k : Nat := 0;
       let b : Nat := 0;
       let row : Nat := 5;
       let rest : List (Nat × Nat × Nat) := List.replicate 15 (0, 0, 5);
       s.node.nrQueue ↑ch = (k, b, row) :: rest) ∧
    (let s : State := drmHot;
     let r : Fin 4 := 0;
     s.node.alive = true ∧
       let rank : Nat := ↑r;
       let d : DramSt := s.node.dram;
       s.node.dramOn = true ∧
         let b : Fin 32 := 0;
         let row : BitVec 16 := 5;
         (s.node.dram16 = true ∨ ↑b < 16) ∧
           let q : List (Nat × Nat × Nat) := s.node.nrQueue (rank / 2);
           let t : List ActRow := countActivate (Sparse.get (fun x => []) d.tables (rank * 32 + ↑b)) row.toNat;
           let reached : Bool :=
             t.any fun e => decide (e.row = row.toNat ∧ Nat.max 256 (s.node.fld drmPage Fld.drmActThresh) ≤ e.count);
           reached = true ∧ q.length < 16) ∧
    (let s : State := drmReread;
     let r : Fin 4 := 0;
     s.node.alive = true ∧
       let rank : Nat := ↑r;
       let d : DramSt := s.node.dram;
       let st : Nat := s.node.rankState rank;
       let burst : BitVec 27 := 7;
       let device : BitVec 4 := 3;
       let entry : Nat × Nat × Nat := (rank, burst.toNat, device.toNat);
       entry ∈ d.rereads ∧ st = 1) ∧
    (let s : State := drmReplay;
     let r : Fin 4 := 0;
     s.node.alive = true ∧
       let rank : Nat := ↑r;
       let d : DramSt := s.node.dram;
       d.replaying = some rank) ∧
    (let s : State := drmTrains;
     s.node.alive = true ∧
       let src : Src := pcie;
       Reachable s drmPage ∧
         ¬src.port ∈ (s.node.hdr drmPage).keyArmed ∧
           let idle : Prop :=
             (s.node.hdr drmPage).active = false ∧
               (s.node.hdr drmPage).busy = false ∧ (s.node.hdr drmPage).pending = false;
           idle) ∧
    (let s : State := drmTrains;
     s.node.alive = true ∧ s.node.flag drmPage Fld.drmStatTraining = true) := by
  delta Reachable; refine ⟨?_, ?_, ?_, ?_, ?_, ?_,
    ⟨?_, ?_, ?_, ?_, ?_, ?_,
    ⟨?_, ?_, ?_, ?_, ?_, ?_⟩⟩⟩ <;> decide +kernel

/-- The hypotheses of `FaultsAndSill` hold together. -/
theorem witness_FaultsAndSill :
    (let s : State := strappedSt;
     s.node.sil.powered = true ∧ FatalHalts s.node ∧ s.node.boot.strapped = true) ∧
    (let s : State := strappedSt;
     s.node.sil.powered = true ∧
       FatalHalts s.node ∧
         let p : Page := strPage;
         let code : Nat := 1;
         pageValid p = true ∧ code < 256) ∧
    (let s : State := strappedSt;
     s.node.sil.powered = true ∧
       FatalHalts s.node ∧
         let f : FltSt := s.node.flt;
         let src : Src := pcie;
         Reachable s fltPage ∧
           ¬src.port ∈ (s.node.hdr fltPage).keyArmed ∧
             (s.node.hdr fltPage).frozen = none ∧
               let r? : Option Record := none;
               r? = List.find? (fun r => decide (BitVec.ofNat 32 r.seq = s.node.reg fltPage 88)) f.ring) ∧
    (let s : State := strappedSt;
     s.node.sil.powered = true ∧
       FatalHalts s.node ∧
         let src : Src := pcie;
         Reachable s silPage ∧
           ¬src.port ∈ (s.node.hdr silPage).keyArmed ∧ (s.node.hdr silPage).keyHolder ≠ some src.port) ∧
    (let s : State := strappedSt;
     s.node.sil.powered = true ∧
       FatalHalts s.node ∧
         let src : Src := pcie;
         Reachable s silPage ∧ ¬src.port ∈ (s.node.hdr silPage).keyArmed ∧ src.port ≠ Port.core) ∧
    (let s : State := strappedSt;
     s.node.sil.powered = true ∧
       FatalHalts s.node ∧
         let z : SilSt := s.node.sil;
         let temps : List Int := cold;
         temps.length = 8 ∧
           let present : Nat → Bool := fun k => s.node.sampled.getD k false;
           let above : Int → Prop := fun lim => ∃ k, k < 8 ∧ present k = true ∧ lim < temps.getD k 0;
           let warn : Int := (BitVec.ofNat 8 (s.node.fld silPage Fld.silThermWarn)).toInt;
           ¬above warn ∧ z.thermWarn = false ∧ ¬above 124) ∧
    (let s : State := strappedSt;
     s.node.sil.powered = true ∧
       FatalHalts s.node ∧
         let z : SilSt := s.node.sil;
         let temps : List Int := warm;
         temps.length = 8 ∧
           let present : Nat → Bool := fun k => s.node.sampled.getD k false;
           let above : Int → Prop := fun lim => ∃ k, k < 8 ∧ present k = true ∧ lim < temps.getD k 0;
           let warn : Int := (BitVec.ofNat 8 (s.node.fld silPage Fld.silThermWarn)).toInt;
           above warn ∧ z.thermWarn = false ∧ ¬above 124) ∧
    (let s : State := unstrapped;
     s.node.sil.powered = true ∧ FatalHalts s.node ∧ s.node.boot.strapped = false) ∧
    (let s : State := fltOne;
     s.node.sil.powered = true ∧
       FatalHalts s.node ∧
         let f : FltSt := s.node.flt;
         let r : Record := recA;
         let rest : List Record := [];
         f.queue = r :: rest ∧ f.ring.length < 256) ∧
    (let s : State := fltFullRing true;
     s.node.sil.powered = true ∧
       FatalHalts s.node ∧
         let f : FltSt := s.node.flt;
         let r : Record := recA;
         let rest : List Record := [];
         f.queue = r :: rest ∧
           let old : Record :=
             { recA with ack := true };
           256 ≤ f.ring.length ∧ List.find? (fun x => x.ack) f.ring = some old) ∧
    (let s : State := fltFullRing false;
     s.node.sil.powered = true ∧
       FatalHalts s.node ∧
         let f : FltSt := s.node.flt;
         let r : Record := recA;
         let rest : List Record := [];
         f.queue = r :: rest ∧ 256 ≤ f.ring.length ∧ List.find? (fun x => x.ack) f.ring = none) ∧
    (let s : State := fatalSt;
     s.node.sil.powered = true ∧
       FatalHalts s.node ∧
         let z : SilSt := s.node.sil;
         z.fatal = true ∧ s.node.boot.drvPresent = true) ∧
    (let s : State := sillLate;
     s.node.sil.powered = true ∧
       FatalHalts s.node ∧
         let z : SilSt := s.node.sil;
         z.ownTime = false ∧ z.latchAt + 2 * s.node.sillLen ≤ s.node.clk.now) ∧
    (let s : State := sillOwn;
     s.node.sil.powered = true ∧
       FatalHalts s.node ∧
         let z : SilSt := s.node.sil;
         z.ownTime = true) ∧
    (let s : State := sillKeyed id;
     s.node.sil.powered = true ∧
       FatalHalts s.node ∧
         let z : SilSt := s.node.sil;
         let src : Src := pcie;
         Reachable s silPage ∧
           ¬src.port ∈ (s.node.hdr silPage).keyArmed ∧
             (s.node.hdr silPage).keyHolder = some src.port ∧ z.safe = false) ∧
    (let s : State :=
       sillKeyed fun z =>
         { z with safe := true };
     s.node.sil.powered = true ∧
       FatalHalts s.node ∧
         let z : SilSt := s.node.sil;
         let src : Src := pcie;
         Reachable s silPage ∧
           ¬src.port ∈ (s.node.hdr silPage).keyArmed ∧
             (s.node.hdr silPage).keyHolder = some src.port ∧ z.safe = true ∧ z.fatal = false) ∧
    (let s : State := sillDog;
     s.node.sil.powered = true ∧
       FatalHalts s.node ∧
         let src : Src := coreSrc;
         Reachable s silPage ∧
           ¬src.port ∈ (s.node.hdr silPage).keyArmed ∧
             src.port = Port.core ∧ s.node.flag silPage Fld.silWdogEnable = true) ∧
    (let s : State := sillDog;
     s.node.sil.powered = true ∧
       FatalHalts s.node ∧
         let z : SilSt := s.node.sil;
         z.wdogRunning = true) ∧
    (let s : State := leases 0;
     s.node.sil.powered = true ∧
       FatalHalts s.node ∧
         s.node.alive = true ∧ s.node.act hngPage Fld.hngPartnerEid ≠ 0 ∧ (s.node.hdr hngPage).active = true) ∧
    (let s : State :=
       sillSt fun z =>
         { z with thermWarn := true };
     s.node.sil.powered = true ∧
       FatalHalts s.node ∧
         let z : SilSt := s.node.sil;
         let temps : List Int := cold;
         temps.length = 8 ∧
           let present : Nat → Bool := fun k => s.node.sampled.getD k false;
           let above : Int → Prop := fun lim => ∃ k, k < 8 ∧ present k = true ∧ lim < temps.getD k 0;
           let warn : Int := (BitVec.ofNat 8 (s.node.fld silPage Fld.silThermWarn)).toInt;
           ¬above (warn - 5) ∧ z.thermWarn = true ∧ ¬above 124) ∧
    (let s : State :=
       sillSt fun z =>
         { z with thermWarn := true };
     s.node.sil.powered = true ∧
       FatalHalts s.node ∧
         let z : SilSt := s.node.sil;
         let temps : List Int := hot;
         temps.length = 8 ∧
           let present : Nat → Bool := fun k => s.node.sampled.getD k false;
           let above : Int → Prop := fun lim => ∃ k, k < 8 ∧ present k = true ∧ lim < temps.getD k 0;
           let warn : Int := (BitVec.ofNat 8 (s.node.fld silPage Fld.silThermWarn)).toInt;
           above 124 ∧ z.thermWarn = true ∧ ¬∀ (k : Nat), k < 8 → present k = true → temps.getD k 0 ≤ warn - 5) ∧
    (let s : State := running;
     let z : SilSt := s.node.sil;
     let i : Instr := .fatalHighZ;
     s.node.sil.powered = true ∧ FatalHalts s.node ∧ z.fatal = false ∧ i ∈ [Instr.fatalEthStop, Instr.fatalHighZ]) ∧
    (let s : State := { node := running.node.setReg hngPage 0x068 100 };
     s.node.sil.powered = true ∧ FatalHalts s.node ∧ s.node.alive = true ∧ s.node.expiredBy 104 (-2) = false) ∧
    (let s : State := leases 1;
     s.node.sil.powered = true ∧ FatalHalts s.node ∧ s.node.alive = true ∧ s.node.act hngPage Fld.hngPartnerEid ≠ 0 ∧
       (s.node.hdr hngPage).active = true ∧ s.node.expiredBy 104 (-2) = true ∧
       Node.leaseNums (s.node.dutyLeases &&& ~~~s.node.unpairedLeases) = [0]) ∧
    (let s : State := running;
     let src : Src := pcie;
     let v : Word := 0;
     let i : Instr := .silSafeRelease pcie;
     s.node.sil.powered = true ∧ FatalHalts s.node ∧ Reachable s silPage ∧
       ¬src.port ∈ (s.node.hdr silPage).keyArmed ∧ (s.node.hdr silPage).keyHolder ≠ some src.port ∧
       i ∈ [Instr.silSafeForce src, Instr.silSafeRelease src, Instr.silWdogWrite src v]) := by
  delta Reachable FatalHalts; refine ⟨?_, ?_, ?_, ?_, ?_, ?_,
    ⟨?_, ?_, ?_, ?_, ?_, ?_,
    ⟨?_, ?_, ?_, ?_, ?_, ?_,
    ⟨?_, ?_, ?_, ?_, ?_, ?_, ?_⟩⟩⟩⟩ <;> decide +kernel

/-- The hypotheses of `HingePairs` hold together. -/
theorem witness_HingePairs :
    (let s : State := pairIdle;
     s.node.alive = true ∧
       let src : Src := pcie;
       Reachable s hngPage ∧ ¬src.port ∈ (s.node.hdr hngPage).keyArmed ∧ src.port ≠ Port.core) ∧
    (let s : State := pairIdle;
     s.node.alive = true ∧
       let src : Src := coreSrc;
       Reachable s hngPage ∧ ¬src.port ∈ (s.node.hdr hngPage).keyArmed ∧ src.port = Port.core ∧ s.node.paired = true) ∧
    (let s : State := pairIdle;
     s.node.alive = true ∧
       let h : HngSt := s.node.hng;
       let held : BitVec 66 := s.node.heldLeases;
       let b : BitVec 66 := ↑3 + ↑(3 <<< 64);
       s.node.paired = true ∧
         b ≠ 0 ∧ s.node.expiredBy 0x06C 2 = true ∧ b = s.node.eligible &&& ~~~held &&& ~~~h.partnerHeld &&& ~~~h.yielded &&& ~~~h.partnerYields) ∧
    (let s : State := pairUp;
     s.node.alive = true ∧ s.node.paired = true ∧ s.node.flag hngPage Fld.hngStatPartnerUp = true) ∧
    (let s : State := pairWire;
     s.node.alive = true ∧
       let wire : Bool := s.node.wireOn;
       let f : Word := 0;
       wire = true ∧
         let good : Prop :=
           BitVec.toNat f / 2 ^ 24 = 180 ∧
             crc8 [BitVec.setWidth 8 (f >>> 24), BitVec.setWidth 8 (f >>> 16), BitVec.setWidth 8 (f >>> 8)] =
               BitVec.toNat f % 256;
         ¬good) ∧
    (let s : State := pairWire;
     s.node.alive = true ∧
       let wire : Bool := s.node.wireOn;
       let f : Word := wireFrame 0 36;
       wire = true ∧
         let good : Prop :=
           BitVec.toNat f / 2 ^ 24 = 180 ∧
             crc8 [BitVec.setWidth 8 (f >>> 24), BitVec.setWidth 8 (f >>> 16), BitVec.setWidth 8 (f >>> 8)] =
               BitVec.toNat f % 256;
         let type : Nat := BitVec.toNat f / 2 ^ 22 % 4;
         good ∧ type = 0) ∧
    (let s : State := pairWire;
     s.node.alive = true ∧
       let wire : Bool := s.node.wireOn;
       let f : Word := wireFrame 1 35;
       wire = true ∧
         let good : Prop :=
           BitVec.toNat f / 2 ^ 24 = 180 ∧
             crc8 [BitVec.setWidth 8 (f >>> 24), BitVec.setWidth 8 (f >>> 16), BitVec.setWidth 8 (f >>> 8)] =
               BitVec.toNat f % 256;
         let type : Nat := BitVec.toNat f / 2 ^ 22 % 4;
         good ∧ type = 1) ∧
    (let s : State := pairWire;
     s.node.alive = true ∧
       let wire : Bool := s.node.wireOn;
       let f : Word := wireFrame 2 36;
       wire = true ∧
         let good : Prop :=
           BitVec.toNat f / 2 ^ 24 = 180 ∧
             crc8 [BitVec.setWidth 8 (f >>> 24), BitVec.setWidth 8 (f >>> 16), BitVec.setWidth 8 (f >>> 8)] =
               BitVec.toNat f % 256;
         let type : Nat := BitVec.toNat f / 2 ^ 22 % 4;
         good ∧ type = 2) ∧
    (let s : State := pairWire;
     s.node.alive = true ∧
       let wire : Bool := s.node.wireOn;
       let f : Word := wireFrame 3 0;
       wire = true ∧
         let good : Prop :=
           BitVec.toNat f / 2 ^ 24 = 180 ∧
             crc8 [BitVec.setWidth 8 (f >>> 24), BitVec.setWidth 8 (f >>> 16), BitVec.setWidth 8 (f >>> 8)] =
               BitVec.toNat f % 256;
         let type : Nat := BitVec.toNat f / 2 ^ 22 % 4;
         good ∧ type = 3) ∧
    (let s : State := pairWire;
     s.node.alive = true ∧
       let h : HngSt := s.node.hng;
       let held : BitVec 66 := s.node.heldLeases;
       let b : BitVec 66 := 1;
       s.node.paired = true ∧
         b ≠ 0 ∧
           b =
             (if h.shortened = true then h.released else h.partnerHeld ||| h.released) &&& s.node.eligible &&&
                   ~~~h.partnerYields &&&
                 ~~~h.yielded &&&
               ~~~held) ∧
    (let s : State := fences;
     s.node.alive = true ∧
       let h : HngSt := s.node.hng;
       let k : Fin 66 := 65;
       h.fencing.getLsbD ↑k = true ∧ (if k.val < 64 then s.node.groupFenced k = true else h.dutyFenced < s.node.hngNow)) ∧
    (let s : State := hasDuty;
     s.node.alive = true ∧
       let k : Fin 66 := 64;
       let eid : Nat := 7;
       64 ≤ ↑k ∧
         s.node.dutyLeases.getLsbD ↑k = true ∧ eid ≠ s.node.cfg.eid ∧ eid ≠ s.node.act hngPage Fld.hngPartnerEid) ∧
    (let s : State := claims none none;
     s.node.alive = true ∧
       let h : HngSt := s.node.hng;
       let c : Claim := claimA;
       h.mine = some c ∧ c.casement + 3 ≤ s.node.hngNow) ∧
    (let s : State := pairSt 0 { mine := some { claimA with casement := 98 } };
     let c : Claim := { claimA with casement := 98 };
     s.node.alive = true ∧ s.node.hng.mine = some c ∧ s.node.hngNow < c.casement + 3) ∧
    (let s : State := hasDuty;
     let k : Fin 66 := 64;
     s.node.alive = true ∧ 64 ≤ k.val ∧ s.node.dutyLeases.getLsbD k = true ∧
       (if k.val = 64 then s.node.hng.duty64 else s.node.hng.duty65) = 0) ∧
    (let s : State := pairSt (3 <<< 64) { duty64 := 5, duty65 := 6 };
     s.node.alive = true ∧ s.node.hng.duty64 ≠ 0 ∧ s.node.hng.duty65 ≠ 0) ∧
    (let s : State := pairSt 0 {};
     s.node.alive = true ∧ s.node.hng.matching < s.node.digestLimit) ∧
    (let s : State := resyncs;
     s.node.alive = true ∧
       s.node.flag hngPage Fld.hngStatResync = true ∧ s.node.flag hngPage Fld.hngStatCfgDiff = false ∧
       s.node.digestLimit ≤ s.node.hng.matching ∧ (∀ e ∈ s.node.strips, e.2.held = false)) ∧
    (let s : State := pairSt 0 { lastMsg := some 92 };
     let h : HngSt := s.node.hng;
     let now : Nat := s.node.hngNow;
     let t : Nat := 92;
     s.node.alive = true ∧ h.lastMsg = some t ∧ now ≤ t + 8) ∧
    (let s : State := pairSt 0 { lastMsg := some 91, memberSince := some 92 };
     let h : HngSt := s.node.hng;
     let now : Nat := s.node.hngNow;
     s.node.alive = true ∧ s.node.paired = true ∧ (∀ (t : Nat), h.lastMsg = some t → t + 8 < now) ∧
       (∀ (t : Nat), h.lastMsg = none → h.memberSince = some t → t + 8 ≤ now) ∧
       (s.node.flag hngPage Fld.hngStatPartnerUp = true ∨ s.node.flag hngPage Fld.hngStatSenior = false)) ∧
    (let s : State := pairIdle;
     let src : Src := pcie;
     s.node.alive = true ∧ Reachable s hngPage ∧ ¬src.port ∈ (s.node.hdr hngPage).keyArmed ∧
       s.node.mgmt.running = false) ∧
    (let s : State := { node := { (pairNode 0 {}) with mgmt := { running := true } } };
     let src : Src := coreSrc;
     s.node.alive = true ∧ Reachable s hngPage ∧ ¬src.port ∈ (s.node.hdr hngPage).keyArmed ∧ src.port = Port.core ∧
       s.node.paired = true ∧ s.node.mgmt.running = true) ∧
    (let s : State := { node := running.node.setReg hngPage 0x06C 100 };
     s.node.alive = true ∧ s.node.expiredBy 108 2 = false) ∧
    (let s : State := takesOver;
     let h : HngSt := s.node.hng;
     let held : BitVec 66 := s.node.heldLeases;
     let b : BitVec 66 := 1;
     s.node.alive = true ∧ s.node.paired = true ∧ b ≠ 0 ∧ s.node.expiredBy 108 2 = true ∧
       b = (if h.shortened = true then h.released else h.partnerHeld ||| h.released) &&& s.node.eligible &&& ~~~h.partnerYields &&& ~~~h.yielded &&& ~~~held) ∧
    (let s : State := pairSt 0 { memberSince := some 92 };
     let h : HngSt := s.node.hng;
     let now : Nat := s.node.hngNow;
     let t : Nat := 92;
     s.node.alive = true ∧ s.node.paired = true ∧ h.lastMsg = none ∧ h.memberSince = some t ∧ t + 8 ≤ now) ∧
    (let s : State := pairSt (1 <<< 65) { fencing := 1 <<< 65, dutyFenced := 100 };
     let k : Fin 66 := 65;
     s.node.alive = true ∧ 64 ≤ k.val ∧ s.node.hngNow ≤ s.node.hng.dutyFenced) := by
  delta Reachable; refine ⟨?_, ?_, ?_, ?_, ?_, ?_,
    ⟨?_, ?_, ?_, ?_, ?_, ?_,
    ⟨?_, ?_, ?_, ?_, ?_, ?_,
    ⟨?_, ⟨by decide +kernel, by decide +kernel,
      fun t h => by cases (show some 91 = some t from h); decide +kernel,
      fun t h => (by cases (show some (91 : Nat) = none from h)), by decide +kernel⟩, ?_, ?_, ?_, ?_,
    ⟨?_, ?_⟩⟩⟩⟩⟩ <;> decide +kernel

/-- The hypotheses of `ControlAndConfig` hold together. -/
theorem witness_ControlAndConfig :
    (let s : State := peer40 0;
     s.node.alive = true ∧
       let p : ControlMsg := msg false 65 ControlKind.other;
       p.tagOk = false) ∧
    (let s : State := peer40 0;
     s.node.alive = true ∧
       let p : ControlMsg := msg true 0 ControlKind.close;
       let x : Session := s.node.fillBucket (s.node.sessionOf p.sender);
       let fresh : Prop := x.highest < p.seq + 64 ∧ ¬p.seq ∈ x.seen;
       p.tagOk = true ∧ ¬fresh) ∧
    (let s : State := peer40 0;
     s.node.alive = true ∧
       let p : ControlMsg := msg true 1 ControlKind.close;
       let x : Session := s.node.fillBucket (s.node.sessionOf p.sender);
       let fresh : Prop := x.highest < p.seq + 64 ∧ ¬p.seq ∈ x.seen;
       p.tagOk = true ∧ fresh ∧ x.tokens < oneToken) ∧
    (let s : State := peer40 0;
     s.node.alive = true ∧ s.node.dutyLeases.getLsbD 65 = false) ∧
    (let s : State := peer40 32000000;
     s.node.alive = true ∧
       let p : ControlMsg := msg true 1 ControlKind.close;
       let x : Session := s.node.fillBucket (s.node.sessionOf p.sender);
       let fresh : Prop := x.highest < p.seq + 64 ∧ ¬p.seq ∈ x.seen;
       p.tagOk = true ∧ fresh ∧ oneToken ≤ x.tokens ∧ p.kind = ControlKind.close) ∧
    (let s : State := peer40 32000000;
     s.node.alive = true ∧
       let p : ControlMsg := msg true 65 ControlKind.other;
       let x : Session := s.node.fillBucket (s.node.sessionOf p.sender);
       let fresh : Prop := x.highest < p.seq + 64 ∧ ¬p.seq ∈ x.seen;
       p.tagOk = true ∧ fresh ∧ oneToken ≤ x.tokens ∧ p.kind = ControlKind.other) ∧
    (let s : State := peer40 32000000;
     s.node.alive = true ∧
       let p : ControlMsg := msg true 65 (ControlKind.offer 1 2);
       let x : Session := s.node.fillBucket (s.node.sessionOf p.sender);
       let fresh : Prop := x.highest < p.seq + 64 ∧ ¬p.seq ∈ x.seen;
       p.tagOk = true ∧
         fresh ∧
           oneToken ≤ x.tokens ∧
             let lo : Nat := 1;
             let hi : Nat := 2;
             p.kind = ControlKind.offer lo hi ∧ lo ≤ hi ∧ lo ≤ 4 ∧ 2 ≤ hi) ∧
    (let s : State := peer40 32000000;
     s.node.alive = true ∧
       let p : ControlMsg := msg true 65 (ControlKind.offer 5 9);
       let x : Session := s.node.fillBucket (s.node.sessionOf p.sender);
       let fresh : Prop := x.highest < p.seq + 64 ∧ ¬p.seq ∈ x.seen;
       p.tagOk = true ∧
         fresh ∧
           oneToken ≤ x.tokens ∧
             let lo : Nat := 5;
             let hi : Nat := 9;
             p.kind = ControlKind.offer lo hi ∧ (hi < lo ∨ 4 < lo ∨ hi < 2)) ∧
    (let s : State := registrar ↑(1 <<< 65);
     s.node.alive = true ∧
       let c : ConfigSt := s.node.cfg;
       let eid : Nat := 4194304;
       s.node.dutyLeases.getLsbD 65 = true ∧
         let e : Nat × Nat := (4194304, 7);
         List.find? (fun e => decide (e.fst = eid)) c.directory = some e) ∧
    (let s : State := registrar ↑(1 <<< 65);
     s.node.alive = true ∧
       let c : ConfigSt := s.node.cfg;
       let eid : Nat := 16777214;
       s.node.dutyLeases.getLsbD 65 = true ∧
         List.find? (fun e => decide (e.fst = eid)) c.directory = none ∧
           4194304 ≤ eid ∧ eid < 16777215 ∧ c.directory.length < 2097152) ∧
    (let s : State := cfgIdle;
     s.node.alive = true ∧
       let c : ConfigSt := s.node.cfg;
       let busy : Prop := c.owner.isSome = true ∨ c.waiting.isSome = true;
       let slot : Fin 4 := 0;
       s.node.mgmt.running = true ∧
         s.node.slotBusy ↑slot = true ∧ s.node.lengthBad slot = false ∧ ¬busy ∧ s.node.rt.inForce = true ∧ s.node.flash.running.isSome = false) ∧
    (let s : State := cfgIdle;
     s.node.alive = true ∧
       let slot : Fin 4 := 0;
       s.node.mgmt.running = true ∧
         s.node.slotBusy ↑slot = true ∧ s.node.lengthBad slot = false ∧
           let lo : Word := 268443648;
           let hi : Word := 268443648;
           let length : Word := 268443648;
           let info : SnapshotInfo := infoOk;
           let addr : Nat := BitVec.toNat lo + BitVec.toNat hi % 256 * 2 ^ 32;
           let wrong : Option (Nat × Option Nat) := snapshotRefusal s.node addr (BitVec.toNat length) info;
           let code : Nat := 6;
           let detail : Option Nat := none;
           wrong = some (code, detail)) ∧
    (let s : State := cfgIdle;
     s.node.alive = true ∧
       let c : ConfigSt := s.node.cfg;
       let busy : Prop := c.owner.isSome = true ∨ c.waiting.isSome = true;
       let slot : Fin 4 := 0;
       s.node.mgmt.running = true ∧
         s.node.slotBusy ↑slot = true ∧ s.node.lengthBad slot = false ∧
           ¬busy ∧ (List.filter (fun j => decide (j.num ≠ 0)) s.node.rt.jobs).length < 4 ∧ s.node.copyChosen = none) ∧
    (let s : State := cfgIdle;
     s.node.alive = true ∧
       let c : ConfigSt := s.node.cfg;
       let slot : Fin 4 := 0;
       s.node.mgmt.running = true ∧
         s.node.slotBusy ↑slot = true ∧ s.node.lengthBad slot = false ∧
           let k : Nat := 0;
           List.find? (fun j => decide (j.num = k)) c.jobs = none) ∧
    (let s : State := cfgIdle;
     s.node.alive = true ∧
       let slot : Fin 4 := 0;
       s.node.mgmt.running = true ∧
         s.node.slotBusy ↑slot = true ∧ s.node.lengthBad slot = false ∧
           let eid : Word := 268443648;
           let lo : Word := 268443648;
           let hi : Word := 268443648;
           let addr : Nat := BitVec.toNat lo + BitVec.toNat hi % 256 * 2 ^ 32;
           let named : Prop := BitVec.toNat eid = 16777215 ∨ 4194304 ≤ BitVec.toNat eid ∧ BitVec.toNat eid < 8388608;
           ↑slot < 2 ∧ (¬named ∨ s.node.dmaAddr addr 32 = none)) ∧
    (let s : State := cfgIdle;
     s.node.alive = true ∧
       let c : ConfigSt := s.node.cfg;
       let slot : Fin 4 := 0;
       s.node.mgmt.running = true ∧
         s.node.slotBusy ↑slot = true ∧ s.node.lengthBad slot = false ∧
           let eid : Word := 16777215;
           let lo : Word := 268443648;
           let hi : Word := 268443648;
           let addr : Nat := BitVec.toNat lo + BitVec.toNat hi % 256 * 2 ^ 32;
           let named : Prop := BitVec.toNat eid = 16777215 ∨ 4194304 ≤ BitVec.toNat eid ∧ BitVec.toNat eid < 8388608;
           ↑slot < 2 ∧ named ∧ (s.node.dmaAddr addr 32).isSome = true ∧ c.keys.length < 256) ∧
    (let s : State := cfgIdle;
     s.node.alive = true ∧
       let slot : Fin 4 := 0;
       s.node.mgmt.running = true ∧
         s.node.slotBusy ↑slot = true ∧ s.node.lengthBad slot = false ∧
           let k : Nat := 0;
           k < 66 ∧ s.node.dutyLeases.getLsbD k = false) ∧
    (let s : State := cfgIdle;
     s.node.alive = true ∧
       let slot : Fin 4 := 0;
       s.node.mgmt.running = true ∧
         s.node.slotBusy ↑slot = true ∧ s.node.lengthBad slot = false ∧
           let k : Nat := 4194304;
           66 ≤ k) ∧
    (let s : State := cfgNone;
     s.node.alive = true ∧
       let c : ConfigSt := s.node.cfg;
       let busy : Prop := c.owner.isSome = true ∨ c.waiting.isSome = true;
       let slot : Fin 4 := 0;
       s.node.mgmt.running = true ∧ s.node.slotBusy ↑slot = true ∧ s.node.lengthBad slot = false ∧ ¬busy ∧ s.node.rt.inForce = false) ∧
    (let s : State := cfgBusy;
     s.node.alive = true ∧
       let c : ConfigSt := s.node.cfg;
       let busy : Prop := c.owner.isSome = true ∨ c.waiting.isSome = true;
       let slot : Fin 4 := 0;
       s.node.mgmt.running = true ∧ s.node.slotBusy ↑slot = true ∧ s.node.lengthBad slot = false ∧ busy) ∧
    (let s : State := cfgBusy;
     s.node.alive = true ∧
       let c : ConfigSt := s.node.cfg;
       let slot : Fin 4 := 0;
       s.node.mgmt.running = true ∧
         s.node.slotBusy ↑slot = true ∧ s.node.lengthBad slot = false ∧
           let k : Nat := 1;
           let j : ConfigJob := { num := 1 };
           List.find? (fun j => decide (j.num = k)) c.jobs = some j) ∧
    (let s : State := cfgBusy;
     s.node.alive = true ∧
       let c : ConfigSt := s.node.cfg;
       let k : Nat := 1;
       let j : ConfigJob := { num := 1 };
       List.find? (fun j => decide (j.num = k)) c.jobs = some j ∧
         c.owner = some k ∧
           let bs : List Byte := [];
           j.adopted = none ∧
             bs.length + 16 ≤ copySpace ∧
               let b : Bool := false;
               let seq : Word := 1;
               s.node.copyToSave = (b, seq)) ∧
    (let s : State := cfgWaits;
     s.node.alive = true ∧
       let c : ConfigSt := s.node.cfg;
       let busy : Prop := c.owner.isSome = true ∨ c.waiting.isSome = true;
       let slot : Fin 4 := 0;
       s.node.mgmt.running = true ∧
         s.node.slotBusy ↑slot = true ∧ s.node.lengthBad slot = false ∧ ¬busy ∧ s.node.rt.inForce = true ∧ s.node.flash.running.isSome = true) ∧
    (let s : State := cfgCopyA;
     s.node.alive = true ∧
       let c : ConfigSt := s.node.cfg;
       let busy : Prop := c.owner.isSome = true ∨ c.waiting.isSome = true;
       let slot : Fin 4 := 0;
       s.node.mgmt.running = true ∧
         s.node.slotBusy ↑slot = true ∧ s.node.lengthBad slot = false ∧
           ¬busy ∧
             (List.filter (fun j => decide (j.num ≠ 0)) s.node.rt.jobs).length < 4 ∧
               let b : Bool := false;
               let seq : Word := 7;
               s.node.copyChosen = some (b, seq)) ∧
    (let s : State := cfgSnapshot;
     s.node.alive = true ∧
       let c : ConfigSt := s.node.cfg;
       let busy : Prop := c.owner.isSome = true ∨ c.waiting.isSome = true;
       let slot : Fin 4 := 0;
       s.node.mgmt.running = true ∧
         s.node.slotBusy ↑slot = true ∧ s.node.lengthBad slot = false ∧
           let lo : Word := 268443648;
           let hi : Word := 268443648;
           let length : Word := 17;
           let info : SnapshotInfo := infoOk;
           let addr : Nat := BitVec.toNat lo + BitVec.toNat hi % 256 * 2 ^ 32;
           let wrong : Option (Nat × Option Nat) := snapshotRefusal s.node addr (BitVec.toNat length) info;
           wrong = none ∧ ¬busy ∧ s.node.flash.running.isSome = false) ∧
    (let s : State := cfgSnapBusy;
     s.node.alive = true ∧
       let c : ConfigSt := s.node.cfg;
       let busy : Prop := c.owner.isSome = true ∨ c.waiting.isSome = true;
       let slot : Fin 4 := 0;
       s.node.mgmt.running = true ∧
         s.node.slotBusy ↑slot = true ∧ s.node.lengthBad slot = false ∧
           let lo : Word := 268443648;
           let hi : Word := 268443648;
           let length : Word := 17;
           let info : SnapshotInfo := infoOk;
           let addr : Nat := BitVec.toNat lo + BitVec.toNat hi % 256 * 2 ^ 32;
           let wrong : Option (Nat × Option Nat) := snapshotRefusal s.node addr (BitVec.toNat length) info;
           wrong = none ∧ busy) ∧
    (let s : State := cfgSnapWaits;
     s.node.alive = true ∧
       let c : ConfigSt := s.node.cfg;
       let busy : Prop := c.owner.isSome = true ∨ c.waiting.isSome = true;
       let slot : Fin 4 := 0;
       s.node.mgmt.running = true ∧
         s.node.slotBusy ↑slot = true ∧ s.node.lengthBad slot = false ∧
           let lo : Word := 268443648;
           let hi : Word := 268443648;
           let length : Word := 17;
           let info : SnapshotInfo := infoOk;
           let addr : Nat := BitVec.toNat lo + BitVec.toNat hi % 256 * 2 ^ 32;
           let wrong : Option (Nat × Option Nat) := snapshotRefusal s.node addr (BitVec.toNat length) info;
           wrong = none ∧ ¬busy ∧ s.node.flash.running.isSome = true) ∧
    (let s : State :=
       {
         node :=
           { (slotBusy 3).node with mgmt := { running := true } } };
     s.node.alive = true ∧
       let slot : Fin 4 := 3;
       s.node.mgmt.running = true ∧ s.node.slotBusy ↑slot = true ∧ s.node.lengthBad slot = false ∧ 2 ≤ ↑slot) ∧
    (let s : State :=
       {
         node :=
           { (registrar ↑(1 <<< 65)).node.setFld mgtPage Fld.mgtMbxStatBusy 1 with mgmt := { running := true } } };
     s.node.alive = true ∧
       let slot : Fin 4 := 0;
       s.node.mgmt.running = true ∧
         s.node.slotBusy ↑slot = true ∧ s.node.lengthBad slot = false ∧
           let k : Nat := 65;
           k < 66 ∧ s.node.dutyLeases.getLsbD k = true) ∧
    (let s : State := registrar (1 <<< 65);
     let c : ConfigSt := s.node.cfg;
     let eid : Nat := 0x404000;
     s.node.alive = true ∧ s.node.dutyLeases.getLsbD 65 = true ∧
       List.find? (fun e => decide (e.fst = eid)) c.directory = none ∧ eidOk eid = false) ∧
    (let s : State := registrarFull;
     let c : ConfigSt := s.node.cfg;
     let eid : Nat := 0x400001;
     s.node.alive = true ∧ s.node.dutyLeases.getLsbD 65 = true ∧
       List.find? (fun e => decide (e.fst = eid)) c.directory = none ∧ eidOk eid = true ∧ 2097152 ≤ c.directory.length) ∧
    (let s : State := registrar (1 <<< 65);
     let c : ConfigSt := s.node.cfg;
     let eid : Nat := 0x400001;
     s.node.alive = true ∧ s.node.dutyLeases.getLsbD 65 = true ∧
       List.find? (fun e => decide (e.fst = eid)) c.directory = none ∧ eidOk eid = true ∧ c.directory.length < 2097152) ∧
    (let s : State := refuses;
     let refused : List Nat := [78];
     s.node.alive = true ∧ ∃ k ∈ s.node.rt.cfg.sinks, k.id.kind = 0 ∧ s.node.eidRefused refused k.id = true ∧
       (∀ k' ∈ s.node.rt.cfg.sinks, k'.id.kind = 0 → shutKey (Node.sinkShut k'.id) = shutKey (Node.sinkShut k.id) →
         s.node.eidRefused refused k'.id = s.node.eidRefused refused k.id) ∧
       (let sh := s.node.shut (Node.sinkShut k.id);
        sh.present = true ∧ sh.forced = false ∧ sh.held = false ∧ sh.ramp = none ∧ sh.gain ≠ 0)) := by
  refine ⟨?_, ?_, ?_, ?_, ?_, ?_,
    ⟨?_, ?_, ?_, ?_, ?_, ?_,
    ⟨?_, ?_, ?_, ?_, ?_, ?_,
    ⟨?_, ?_, ?_, ?_, ?_, ?_,
    ⟨?_, ?_, ?_, ?_, ?_, ?_,
    ⟨⟨by decide +kernel, by decide +kernel, registrar_full_new, by decide +kernel, registrar_full_length⟩, ?_⟩⟩⟩⟩⟩⟩ <;> decide +kernel

/-- The hypotheses of `I2cPort` hold together. -/
theorem witness_I2cPort :
    (let s : State := running;
     FatalHalts s.node ∧
       let sill : Bool := false;
       s.node.i2cServes sill = false) ∧
    (let s : State := running;
     FatalHalts s.node ∧ s.node.alive = true) ∧
    (let s : State := running;
     FatalHalts s.node ∧ s.node.sil.powered = true ∧ LinesFollow s.node ∧ s.node.attnDue = false) ∧
    (let s : State := i2cSt { };
     FatalHalts s.node ∧
       let sill : Bool := false;
       s.node.i2cServes sill = true ∧
         let p : Byte := 0;
         BitVec.toNat p < 128 ∧
           BitVec.toNat p % 4 = 0 ∧ s.node.sil.fatal = false ∧ (s.node.kindOf sill = 0 ∨ s.node.kindOf sill = 2)) ∧
    (let s : State := i2cSt { };
     FatalHalts s.node ∧
       let sill : Bool := true;
       s.node.i2cServes sill = true ∧ s.node.kindOf sill = 1) ∧
    (let s : State := i2cRom;
     FatalHalts s.node ∧
       let sill : Bool := false;
       s.node.i2cServes sill = true ∧
         let p : Byte := 0;
         BitVec.toNat p < 128 ∧
           BitVec.toNat p % 4 = 0 ∧
             s.node.sil.fatal = false ∧
               let a : Nat := 0;
               (s.node.kindOf sill = 0 ∨ s.node.kindOf sill = 2) ∧ s.node.apertureAddr sill (BitVec.toNat p) = some
                 a) ∧
    (let s : State := attnSt 0;
     FatalHalts s.node ∧
       let x : I2cSt := s.node.i2c;
       s.node.sil.powered = true ∧ LinesFollow s.node ∧ s.node.attnDue = true ∧ x.attempts < 7) ∧
    (let s : State := attnSt 7;
     FatalHalts s.node ∧
       let x : I2cSt := s.node.i2c;
       s.node.sil.powered = true ∧ LinesFollow s.node ∧ s.node.attnDue = true ∧ 7 ≤ x.attempts) ∧
    (let s : State := busStuck;
     FatalHalts s.node ∧
       let x : I2cSt := s.node.i2c;
       s.node.sil.powered = true ∧ x.stuck = true) := by
  delta FatalHalts LinesFollow; refine ⟨?_, ?_, ?_, ?_, ?_, ?_,
    ⟨?_, ?_, ?_⟩⟩ <;> decide +kernel

/-- The hypotheses of `PcieAndFlash` hold together. -/
theorem witness_PcieAndFlash :
    (let s : State := running;
     s.node.sil.powered = true ∧
       FatalHalts s.node ∧
         let up : Prop := s.node.flag Node.pciPage Fld.pciStatLink = true;
         ¬up) ∧
    (let s : State := running;
     s.node.sil.powered = true ∧
       FatalHalts s.node ∧
         s.node.alive = true ∧
           let v : Fin 32 := 0;
           BitVec.getLsbD s.node.vectors ↑v = false) ∧
    (let s : State := running;
     s.node.sil.powered = true ∧
       FatalHalts s.node ∧
         s.node.alive = true ∧
           let src : Src := pcie;
           Reachable s Node.pciPage ∧ ¬src.port ∈ (s.node.hdr Node.pciPage).keyArmed) ∧
    (let s : State := pciSt { };
     s.node.sil.powered = true ∧
       FatalHalts s.node ∧
         let up : Prop := s.node.flag Node.pciPage Fld.pciStatLink = true;
         let bar2 : Bool := false;
         let o : Nat := 0;
         let len : Nat := 0;
         let write : Option (List Byte) := none;
         up ∧
           s.node.alive = true ∧
             let msix : Prop := ¬bar2 = true ∧ (327680 ≤ o ∧ o < 328192 ∨ 331776 ≤ o ∧ o < 331784);
             let target : Option Nat := if bar2 = true then some (4294967296 + o) else bar0 s.node o;
             let src : Src :=
               if bar2 = true then { port := Port.core, master := 8 } else { port := Port.pcie, master := 0 };
             ¬msix ∧
               let a : Nat := 1073741824;
               target = some a ∧
                 write = none ∧
                   let r : List Byte × Node := s.node.busRead src a len;
                   r.snd.rsp.ok = true) ∧
    (let s : State := pciSt { };
     s.node.sil.powered = true ∧
       FatalHalts s.node ∧
         let up : Prop := s.node.flag Node.pciPage Fld.pciStatLink = true;
         let bar2 : Bool := false;
         let o : Nat := 0;
         let write : Option (List Byte) := some [1, 2, 3, 4];
         up ∧
           s.node.alive = true ∧
             let msix : Prop := ¬bar2 = true ∧ (327680 ≤ o ∧ o < 328192 ∨ 331776 ≤ o ∧ o < 331784);
             let target : Option Nat := if bar2 = true then some (4294967296 + o) else bar0 s.node o;
             ¬msix ∧
               let a : Nat := 1073741824;
               target = some a ∧
                 let bs : List Byte := [1, 2, 3, 4];
                 write = some bs) ∧
    (let s : State := pciSt { };
     s.node.sil.powered = true ∧
       FatalHalts s.node ∧
         let up : Prop := s.node.flag Node.pciPage Fld.pciStatLink = true;
         let bar2 : Bool := false;
         let o : Nat := 393216;
         let write : Option (List Byte) := none;
         up ∧
           s.node.alive = true ∧
             let msix : Prop := ¬bar2 = true ∧ (327680 ≤ o ∧ o < 328192 ∨ 331776 ≤ o ∧ o < 331784);
             let target : Option Nat := if bar2 = true then some (4294967296 + o) else bar0 s.node o;
             ¬msix ∧ target = none ∧ write = none) ∧
    (let s : State := pciSt { };
     s.node.sil.powered = true ∧
       FatalHalts s.node ∧
         let up : Prop := s.node.flag Node.pciPage Fld.pciStatLink = true;
         let bar2 : Bool := false;
         let o : Nat := 393216;
         let write : Option (List Byte) := some [1];
         up ∧
           s.node.alive = true ∧
             let msix : Prop := ¬bar2 = true ∧ (327680 ≤ o ∧ o < 328192 ∨ 331776 ≤ o ∧ o < 331784);
             let target : Option Nat := if bar2 = true then some (4294967296 + o) else bar0 s.node o;
             ¬msix ∧ target = none ∧ write ≠ none) ∧
    (let s : State := pciSt { };
     s.node.sil.powered = true ∧
       FatalHalts s.node ∧
         let up : Prop := s.node.flag Node.pciPage Fld.pciStatLink = true;
         let bar2 : Bool := false;
         let o : Nat := 327680;
         let len : Nat := 0;
         let write : Option (List Byte) := some [1];
         up ∧
           s.node.alive = true ∧
             let k : Nat := 0;
             bar2 = false ∧
               k + len ≤ 512 ∧
                 o = 327680 + k ∧
                   let b : Byte := 1;
                   write = some [b] ∧ k < 512) ∧
    (let s : State := pciSt { };
     s.node.sil.powered = true ∧
       FatalHalts s.node ∧
         let up : Prop := s.node.flag Node.pciPage Fld.pciStatLink = true;
         let bar2 : Bool := false;
         let o : Nat := 327680;
         let len : Nat := 4;
         let write : Option (List Byte) := none;
         up ∧
           s.node.alive = true ∧
             let k : Nat := 0;
             bar2 = false ∧ k + len ≤ 512 ∧ o = 327680 + k ∧ write = none ∧ 0 < len) ∧
    (let s : State := pciSt { };
     s.node.sil.powered = true ∧
       FatalHalts s.node ∧
         let up : Prop := s.node.flag Node.pciPage Fld.pciStatLink = true;
         let bar2 : Bool := true;
         let o : Nat := 0;
         let len : Nat := 4;
         let write : Option (List Byte) := none;
         up ∧
           s.node.alive = true ∧
             let msix : Prop := ¬bar2 = true ∧ (327680 ≤ o ∧ o < 328192 ∨ 331776 ≤ o ∧ o < 331784);
             let target : Option Nat := if bar2 = true then some (4294967296 + o) else bar0 s.node o;
             let src : Src :=
               if bar2 = true then { port := Port.core, master := 8 } else { port := Port.pcie, master := 0 };
             ¬msix ∧
               let a : Nat := 4294967296;
               target = some a ∧
                 write = none ∧
                   let r : List Byte × Node := s.node.busRead src a len;
                   r.snd.rsp.ok = false) ∧
    (let s : State := pciFatal;
     s.node.sil.powered = true ∧
       FatalHalts s.node ∧
         let up : Prop := s.node.flag Node.pciPage Fld.pciStatLink = true;
         up ∧ s.node.sil.fatal = true) ∧
    (let s : State := vectorDue { };
     s.node.sil.powered = true ∧
       FatalHalts s.node ∧
         let up : Prop := s.node.flag Node.pciPage Fld.pciStatLink = true;
         let z : PciSt := s.node.pci;
         s.node.alive = true ∧
           let v : Fin 32 := 0;
           up ∧
             BitVec.getLsbD s.node.vectors ↑v = true ∧
               (BitVec.getLsbD z.told ↑v = false ∨ BitVec.getLsbD z.pba ↑v = true)) ∧
    (let s : State := qspAt 0 { };
     s.node.sil.powered = true ∧
       FatalHalts s.node ∧
         s.node.alive = true ∧
           let src : Src := pcie;
           Reachable s qspPage ∧
             ¬src.port ∈ (s.node.hdr qspPage).keyArmed ∧
               (s.node.hdr qspPage).keyHolder = some src.port ∧
                 let off : Nat :=
                   s.node.fld qspPage Fld.qspAddrAddr / opSize FlashOp.erase4k * opSize FlashOp.erase4k;
                 let clash : Prop :=
                   (∃ b,
                       s.node.imageRuns = some b ∧
                         off < imageBase b + imageSpace ∧ imageBase b < off + opSize FlashOp.erase4k) ∨
                     off < 1048576 ∨ s.node.cfg.owner.isSome = true ∨ s.node.flash.running.isSome = true;
                 (src.port = Port.core ∨ src.port = Port.pcie) ∧ clash) ∧
    (let s : State := qspAt 0 { };
     s.node.sil.powered = true ∧
       FatalHalts s.node ∧
         s.node.alive = true ∧
           let src : Src := pcie;
           Reachable s qspPage ∧
             ¬src.port ∈ (s.node.hdr qspPage).keyArmed ∧
               (s.node.hdr qspPage).keyHolder = some src.port ∧
                 let off : Nat :=
                   s.node.fld qspPage Fld.qspAddrAddr / opSize FlashOp.erase64k * opSize FlashOp.erase64k;
                 let clash : Prop :=
                   (∃ b,
                       s.node.imageRuns = some b ∧
                         off < imageBase b + imageSpace ∧ imageBase b < off + opSize FlashOp.erase64k) ∨
                     off < 1048576 ∨ s.node.cfg.owner.isSome = true ∨ s.node.flash.running.isSome = true;
                 (src.port = Port.core ∨ src.port = Port.pcie) ∧ clash) ∧
    (let s : State := qspAt 0 { };
     s.node.sil.powered = true ∧
       FatalHalts s.node ∧
         s.node.alive = true ∧
           let src : Src := pcie;
           Reachable s qspPage ∧
             ¬src.port ∈ (s.node.hdr qspPage).keyArmed ∧
               (s.node.hdr qspPage).keyHolder = some src.port ∧
                 let off : Nat :=
                   s.node.fld qspPage Fld.qspAddrAddr / opSize FlashOp.program * opSize FlashOp.program;
                 let clash : Prop :=
                   (∃ b,
                       s.node.imageRuns = some b ∧
                         off < imageBase b + imageSpace ∧ imageBase b < off + opSize FlashOp.program) ∨
                     off < 1048576 ∨ s.node.cfg.owner.isSome = true ∨ s.node.flash.running.isSome = true;
                 (src.port = Port.core ∨ src.port = Port.pcie) ∧ clash) ∧
    (let s : State := qspAt 8388607 { };
     s.node.sil.powered = true ∧
       FatalHalts s.node ∧
         s.node.alive = true ∧
           let src : Src := pcie;
           Reachable s qspPage ∧
             ¬src.port ∈ (s.node.hdr qspPage).keyArmed ∧
               (s.node.hdr qspPage).keyHolder = some src.port ∧
                 let off : Nat :=
                   s.node.fld qspPage Fld.qspAddrAddr / opSize FlashOp.erase4k * opSize FlashOp.erase4k;
                 let clash : Prop :=
                   (∃ b,
                       s.node.imageRuns = some b ∧
                         off < imageBase b + imageSpace ∧ imageBase b < off + opSize FlashOp.erase4k) ∨
                     off < 1048576 ∨ s.node.cfg.owner.isSome = true ∨ s.node.flash.running.isSome = true;
                 (src.port = Port.core ∨ src.port = Port.pcie) ∧ ¬clash) ∧
    (let s : State := qspAt 8388607 { };
     s.node.sil.powered = true ∧
       FatalHalts s.node ∧
         s.node.alive = true ∧
           let src : Src := pcie;
           Reachable s qspPage ∧
             ¬src.port ∈ (s.node.hdr qspPage).keyArmed ∧
               (s.node.hdr qspPage).keyHolder = some src.port ∧
                 let off : Nat :=
                   s.node.fld qspPage Fld.qspAddrAddr / opSize FlashOp.erase64k * opSize FlashOp.erase64k;
                 let clash : Prop :=
                   (∃ b,
                       s.node.imageRuns = some b ∧
                         off < imageBase b + imageSpace ∧ imageBase b < off + opSize FlashOp.erase64k) ∨
                     off < 1048576 ∨ s.node.cfg.owner.isSome = true ∨ s.node.flash.running.isSome = true;
                 (src.port = Port.core ∨ src.port = Port.pcie) ∧ ¬clash) ∧
    (let s : State := qspAt 8388607 { };
     s.node.sil.powered = true ∧
       FatalHalts s.node ∧
         s.node.alive = true ∧
           let src : Src := pcie;
           Reachable s qspPage ∧
             ¬src.port ∈ (s.node.hdr qspPage).keyArmed ∧
               (s.node.hdr qspPage).keyHolder = some src.port ∧
                 let off : Nat :=
                   s.node.fld qspPage Fld.qspAddrAddr / opSize FlashOp.program * opSize FlashOp.program;
                 let clash : Prop :=
                   (∃ b,
                       s.node.imageRuns = some b ∧
                         off < imageBase b + imageSpace ∧ imageBase b < off + opSize FlashOp.program) ∨
                     off < 1048576 ∨ s.node.cfg.owner.isSome = true ∨ s.node.flash.running.isSome = true;
                 (src.port = Port.core ∨ src.port = Port.pcie) ∧ ¬clash) ∧
    (let s : State := flashRuns FlashOp.erase4k;
     s.node.sil.powered = true ∧
       FatalHalts s.node ∧
         s.node.alive = true ∧
           let op : FlashOp := FlashOp.erase4k;
           let off : Nat := 16777216;
           let bs : List Byte := [];
           s.node.flash.running = some (op, off, bs) ∧ s.node.cfg.waiting = none) ∧
    (let s : State := qspI2c;
     s.node.sil.powered = true ∧
       FatalHalts s.node ∧
         s.node.alive = true ∧
           let src : Src := i2cSrc;
           Reachable s qspPage ∧
             ¬src.port ∈ (s.node.hdr qspPage).keyArmed ∧
               (s.node.hdr qspPage).keyHolder = some src.port ∧ src.port ≠ Port.core ∧ src.port ≠ Port.pcie) ∧
    (let s : State := sBase;
     s.node.sil.powered = true ∧ FatalHalts s.node ∧ s.node.alive = true ∧ s.node.outOfReset = false) ∧
    (let s : State := running;
     let gen : Fin 4 := 1;
     let width : Fin 3 := 1;
     s.node.sil.powered = true ∧ FatalHalts s.node ∧ s.node.alive = true ∧ gen ≠ 0 ∧ width ≠ 0 ∧
       s.node.outOfReset = true) := by
  delta Reachable FatalHalts; refine ⟨?_, ?_, ?_, ?_, ?_, ?_,
    ⟨?_, ?_, ?_, ?_, ?_, ?_,
    ⟨?_, ?_, ?_, ?_, ?_, ?_,
    ⟨?_, ?_, ?_, ?_⟩⟩⟩⟩ <;> decide +kernel

/-- The hypotheses of `PowerAndBoot` hold together. -/
theorem witness_PowerAndBoot :
    (let s : State := running;
     FatalHalts s.node ∧
       let z : SilSt := s.node.sil;
       z.powered = true) ∧
    (let s : State := running;
     FatalHalts s.node ∧
       s.node.alive = true ∧
         let src : Src := pcie;
         Reachable s sysPage ∧
           ¬src.port ∈ (s.node.hdr sysPage).keyArmed ∧ (s.node.hdr sysPage).keyHolder ≠ some src.port) ∧
    (let s : State := porSt;
     FatalHalts s.node ∧
       let z : SilSt := s.node.sil;
       z.powered = true ∧ z.por = true) ∧
    (let s : State := unpowered;
     FatalHalts s.node ∧
       let z : SilSt := s.node.sil;
       z.powered = false) ∧
    (let s : State := notStrapped;
     FatalHalts s.node ∧
       let b : BootSt := s.node.boot;
       let z : SilSt := s.node.sil;
       z.powered = true ∧ z.por = false ∧ b.strapped = false ∧ b.railOut = false) ∧
    (let s : State := railSt true;
     FatalHalts s.node ∧
       let b : BootSt := s.node.boot;
       let z : SilSt := s.node.sil;
       z.powered = true ∧ z.por = false ∧ b.railOut = true) ∧
    (let s : State := stageSt 1;
     FatalHalts s.node ∧
       let stage : Nat := s.node.fld sysPage Fld.sysBootStage;
       s.node.alive = true ∧
         let present : BitVec 6 := 0;
         let failed : BitVec 6 := 0;
         let drive : Bool := false;
         let driveFailed : Bool := false;
         stage = 1 ∧ failed &&& present = failed ∧ (driveFailed = true → drive = true)) ∧
    (let s : State := images (some 3) none;
     FatalHalts s.node ∧
       let stage : Nat := s.node.fld sysPage Fld.sysBootStage;
       s.node.alive = true ∧
         let sigA : Bool := true;
         let sigB : Bool := false;
         stage = 2 ∧
           let size : Bool → Nat := fun i => BitVec.toNat (s.node.flashWord (imageBase i + 12));
           let candidate : Bool → Prop := fun i => s.node.flashWord (imageBase i) = imageMagic ∧ size i ≤ 7339776;
           let sound : Bool → Prop := fun i =>
             (if i = true then sigB else sigA) = true ∧ s.node.flashBroken (imageBase i) (256 + size i) = false;
           let seq : Bool → Nat := fun i => BitVec.toNat (s.node.flashWord (imageBase i + 8));
           let first : Bool → Prop := fun i =>
             candidate i ∧ (candidate !i → if i = true then seq false < seq true else seq true ≤ seq false);
           let i : Bool := false;
           first i ∧ sound i) ∧
    (let s : State := images (some 3) (some 4);
     FatalHalts s.node ∧
       let stage : Nat := s.node.fld sysPage Fld.sysBootStage;
       s.node.alive = true ∧
         let sigA : Bool := true;
         let sigB : Bool := false;
         stage = 2 ∧
           let size : Bool → Nat := fun i => BitVec.toNat (s.node.flashWord (imageBase i + 12));
           let candidate : Bool → Prop := fun i => s.node.flashWord (imageBase i) = imageMagic ∧ size i ≤ 7339776;
           let sound : Bool → Prop := fun i =>
             (if i = true then sigB else sigA) = true ∧ s.node.flashBroken (imageBase i) (256 + size i) = false;
           let seq : Bool → Nat := fun i => BitVec.toNat (s.node.flashWord (imageBase i + 8));
           let first : Bool → Prop := fun i =>
             candidate i ∧ (candidate !i → if i = true then seq false < seq true else seq true ≤ seq false);
           let i : Bool := true;
           first i ∧ ¬sound i ∧ candidate !i ∧ sound !i) ∧
    (let s : State := images none none;
     FatalHalts s.node ∧
       let stage : Nat := s.node.fld sysPage Fld.sysBootStage;
       s.node.alive = true ∧
         stage = 2 ∧
           let size : Bool → Nat := fun i => BitVec.toNat (s.node.flashWord (imageBase i + 12));
           let candidate : Bool → Prop := fun i => s.node.flashWord (imageBase i) = imageMagic ∧ size i ≤ 7339776;
           ¬candidate false ∧ ¬candidate true) ∧
    (let s : State := bootWaits;
     FatalHalts s.node ∧
       let b : BootSt := s.node.boot;
       let stage : Nat := s.node.fld sysPage Fld.sysBootStage;
       s.node.alive = true ∧
         s.node.mgmt.running = true ∧
           let num : Nat := 5;
           b.job = some num ∧
             stage = 7 ∧
               (s.node.refState = 2 ∨
                   b.clockWaited = true ∨ b.clockWait = 0 ∨ s.node.fld refPage Fld.refCtrlMode = 3) ∧
                 s.node.running = true ∧
                   s.node.mayStage = true ∧
                     s.node.rt.inForce = false ∧
                       (∃ j, j ∈ s.node.rt.jobs ∧ j.num = num ∧ j.state = JobState.admitted) ∧
                         ∀ (j : Job), j ∈ s.node.rt.jobs → j.num ≠ num → j.state ≠ JobState.admitted) ∧
    (let s : State := unforced;
     FatalHalts s.node ∧
       let stage : Nat := s.node.fld sysPage Fld.sysBootStage;
       s.node.alive = true ∧ s.node.mgmt.running = true ∧ stage ≠ 7) ∧
    (let s : State := unforced;
     FatalHalts s.node ∧
       let b : BootSt := s.node.boot;
       s.node.alive = true ∧
         s.node.mgmt.running = true ∧
           let slot : Fin 4 := 1;
           s.node.slotBusy ↑slot = true ∧ s.node.lengthBad slot = false ∧
             let k : Nat := 0;
             k = 0 ∨ k ≠ b.shutdownJob) ∧
    (let s : State := unforced;
     FatalHalts s.node ∧
       let b : BootSt := s.node.boot;
       s.node.alive = true ∧
         s.node.mgmt.running = true ∧
           let slot : Fin 4 := 1;
           s.node.slotBusy ↑slot = true ∧ s.node.lengthBad slot = false ∧ s.node.stagedJob = none ∧ b.shutdown = 0) ∧
    (let s : State := shutAt 1;
     FatalHalts s.node ∧
       let b : BootSt := s.node.boot;
       s.node.alive = true ∧
         s.node.mgmt.running = true ∧
           let k : Nat := 1;
           b.shutdown = k ∧ 1 ≤ k ∧ k ≤ 5 ∧ ∀ (p : Page), p ∈ Node.shutdownPages k → (s.node.hdr p).busy = false) ∧
    (let s : State := refActive;
     FatalHalts s.node ∧ s.node.alive = true ∧ (s.node.hdr refPage).active = true) ∧
    (let s : State := keyed sysPage;
     FatalHalts s.node ∧
       s.node.alive = true ∧
         let src : Src := pcie;
         Reachable s sysPage ∧
           ¬src.port ∈ (s.node.hdr sysPage).keyArmed ∧ (s.node.hdr sysPage).keyHolder = some src.port) ∧
    (let s : State := imageRunning;
     FatalHalts s.node ∧ s.node.alive = true ∧ s.node.imageRuns.isSome = true) ∧
    (let s : State := shutSlot;
     FatalHalts s.node ∧
       let b : BootSt := s.node.boot;
       s.node.alive = true ∧
         s.node.mgmt.running = true ∧
           let slot : Fin 4 := 0;
           s.node.slotBusy ↑slot = true ∧ s.node.lengthBad slot = false ∧
             let k : Nat := 3;
             k ≠ 0 ∧ k = b.shutdownJob) ∧
    (let s : State := shutSlot;
     FatalHalts s.node ∧
       let b : BootSt := s.node.boot;
       s.node.alive = true ∧
         s.node.mgmt.running = true ∧
           let slot : Fin 4 := 0;
           s.node.slotBusy ↑slot = true ∧ s.node.lengthBad slot = false ∧ (s.node.stagedJob.isSome = true ∨ b.shutdown ≠ 0)) := by
  delta Reachable FatalHalts; refine ⟨?_, ?_, ?_, ?_, ?_, ?_,
    ⟨?_, ?_, ?_, ?_, ?_, ?_,
    ⟨?_, ?_, ?_, ?_, ?_, ?_,
    ⟨?_, ?_⟩⟩⟩⟩
    <;> decide +kernel

/-! Witnesses of the statements about every step. -/

/-- A node whose interrupt pin is low: vector 0 is due and PINMASK shows it. -/
def pinLow : State :=
  { node := { ((vectorDue {}).node.setReg Node.pciPage 0x04C 1) with i2c := { irqLow := true } }, pending := [.commitCutoff] }
def fatalWaits : State := { fatalSt with pending := [.porAssert, .muteNAssert] }

/-- The hypotheses of `EmptyQueuePassesHubCycle` hold together. -/
theorem witness_EmptyQueuePassesHubCycle : running.pending = [] := rfl

/-- The hypotheses of `EveryStepKeepsInterruptLines` hold together. -/
theorem witness_EveryStepKeepsInterruptLines : LinesFollow pinLow.node ∧ ∃ t, step pinLow = .next t :=
  ⟨by delta LinesFollow; decide +kernel, _, rfl⟩

/-- The hypotheses of `EveryStepKeepsFatalHalt` hold together. -/
theorem witness_EveryStepKeepsFatalHalt :
    FatalHalts fatalWaits.node ∧ fatalWaits.node.sil.fatal = true ∧ ∃ t, step fatalWaits = .next t :=
  ⟨by delta FatalHalts; decide +kernel, rfl, _, rfl⟩

/-- The hypotheses of `FatalStateHoldsUntilPowerOff` hold together. -/
theorem witness_FatalStateHoldsUntilPowerOff : FatalHeld fatalWaits ∧ ∃ t, step fatalWaits = .next t :=
  ⟨by delta FatalHeld; decide +kernel, _, rfl⟩

/-- The hypotheses of `HubStandsStill` hold together. -/
theorem witness_HubStandsStill :
    beyondHub .commitCutoff = false ∧ porSt.node.alive = false ∧ FatalHalts porSt.node :=
  ⟨rfl, by decide +kernel, by delta FatalHalts; decide +kernel⟩

/-! What WellFormed refuses: one ill-formed term for each of its checks. -/

theorem test_masterOk_refuses : masterOk 9 = false := by decide
theorem test_srcWf_refuses : (Src.wf ⟨.pcie, 3⟩) = false := by decide
theorem test_pageOk_refuses : pageOk ⟨.mac, 4⟩ = false := by decide
theorem test_wordOk_refuses : wordOk (2 ^ 32) = false := by decide
theorem test_jobOk_refuses : jobOk 0 = false ∧ jobOk 256 = false := by decide
theorem test_stripOk_refuses : stripOk 1 4096 = false ∧ stripOk 0 0 = false := by decide
theorem test_shutterOk_refuses : shutterOk ⟨4, 4, 0⟩ = false ∧ shutterOk ⟨0, 0, 16384⟩ = false := by decide
theorem test_shutCfgOk_refuses : shutCfgOk { ramp := 4096 } = false := by decide
theorem test_reqOk_refuses : reqOk { reqA with beats := 17 } = false ∧ reqOk { reqA with bridge := some 9 } = false := by decide
theorem test_unfinishedOk_refuses : unfinishedOk { unfinA with unit := 13 } = false := by decide
theorem test_readerOk_refuses : readerOk (.delayMover 1024) = false := by decide
theorem test_branchOk_refuses : branchOk 131072 = false ∧ branchOk (-131073) = false := by decide
theorem test_targetOk_refuses : targetOk (.off 131072) = false := by decide
theorem test_eidOk_refuses : eidOk 0x404000 = false ∧ eidOk 0xFFFFFF = false := by decide
theorem test_leaseOk_refuses : leaseOk 66 = false := by decide
theorem test_wf_registerWrite_refuses : (Instr.registerWrite pcie ⟨.cas, 0⟩ 4096 0 4).wf = false ∧
    (Instr.registerWrite ⟨.pcie, 0⟩ ⟨.cas, 0⟩ 0x40 0 3).wf = false := by decide
theorem test_wf_memoryWrite_refuses : (Instr.memoryWrite ⟨.pcie, 0⟩ 0 []).wf = false ∧
    (Instr.memoryWrite ⟨.pcie, 0⟩ (2 ^ 40) [1]).wf = false := by decide
theorem test_wf_mailboxResponse_refuses : (Instr.mailboxResponse 0 256 0 []).wf = false ∧
    (Instr.mailboxResponse 0 0 (2 ^ 24) []).wf = false := by decide
theorem test_wf_lintelTransfer_refuses : (Instr.lintelTransferArrival 0 0 (.input 3) (some (24, 1))).wf = false := by decide
theorem test_wf_sluiceEccError_refuses : (Instr.sluiceEccError sluiceBytes true).wf = false := by decide
theorem test_wf_reedMemEccError_refuses : (Instr.reedMemEccError core0 true 16384 true).wf = false := by decide
theorem test_wf_pcieRequest_refuses : (Instr.pcieMemoryRequest false 0 4 (some [1])).wf = false := by decide
theorem test_wf_accepts : (Instr.registerWrite ⟨.pcie, 0⟩ ⟨.cas, 0⟩ 0x40 0 4).wf = true := by decide

/-! Single commands and operations, with results that the spec states. -/

/-- R26, the worked example of chapter 2: where pages of a CYH-8308 sit. -/
theorem test_decode_pages : base.decode 0x53C0A040 = .page (rcxPage ⟨3, 2⟩) 0x40 ∧ base.decode 0x4001A000 = .page (macPage 2) 0 ∧
    base.decode 0x60005000 = .page (modPage 5) 0 := by decide +kernel
/-- Chapter 8's worked example: a steering table's entry in the Fen SRAM of E2. -/
theorem test_decode_fen : base.decode 0x52308440 = .fen 2 0x308440 := by decide +kernel
/-- R49's example at 96 kHz. -/
theorem test_casement_index :
    Node.phcIndex { running.node.setAct Node.casPage Fld.casRateRate 3 with
      phc := { running.node.phc with sec := 1700000000, ns := 300062500 } } = 13600000002400 := by decide +kernel
/-- R170's example: P4 points 40 words into a buffer whose length becomes 32. -/
theorem test_circular_pointer :
    ptrAt { p := [0, 0, 0, 0, 0x228], b := [0, 0, 0, 0, 0x200], l := [0, 0, 0, 0, 32] } 4 0 = 0x208 := by decide
/-- R181's table: EXP. -/
theorem test_exp : [0x00000400000000000000, 0x0000C000000000000000, 0xFFFFC000000000000000, 0xFFFFE000000000000000, 0].map expOf =
    [3, -2, 0, 1, 62] := by decide +kernel
/-- R181's table: NORM of 0.0625, and of 3.0. -/
theorem test_norm : ashInt 0x00000400000000000000 3 = 0x20000000000000 * 256 ∧
    ashInt 0x0000C000000000000000 (-2) = 0x30000000000000 * 256 := by decide +kernel
/-- Chapter 16's worked example: word 4 of a corrected record, and of a fault promoted by counting. -/
theorem test_record_word : recordWord { recA with region := 4, page := 4, cls := 1, orig := 1, esc := 0, stest := 1 } 4 = 0x40401501 ∧
    recordWord { recA with region := 4, page := 4, cls := 2, orig := 1, esc := 1, stest := 1 } 4 = 0x40401941 := by decide
/-- With no command waiting a hub cycle passes (notes/assumptions/1.md). -/
theorem test_empty_queue_is_next : ∃ t, step State.reset = .next t ∧ t.pending = [] := ⟨_, rfl, rfl⟩
/-- Bank bits, row and burst of a rank offset, with the masks of R304's example: BG0 = o[14] xor o[23] (R303, R304). -/
theorem test_dram_mapping :
    let n := (drmNode 0x711 {}).setFld drmPage (Fld.drmXorMask 2) 0x20100
    let m := n.setFld drmPage Fld.drmCfgDensity 1
    m.bankBit 2 0x800000 = true ∧ m.bankBit 2 0x804000 = false ∧ m.dramBank 0x4000 = 4 ∧ m.dramRow 0x800000 = 64 ∧
      Node.dramColumn 0xFC0 = 63 ∧ n.dramRow 0x800000 = 128 ∧ m.neighbourRows 0 = [1] := by decide +kernel

/-- R359: a link of Gen3, two lanes. -/
theorem test_link_up : ∃ t, exec (.pcieLinkUp 3 2) running = .next t ∧ t.node.reg Node.pciPage 0x040 = 0x17 :=
  ⟨_, rfl, by decide +kernel⟩

end Sys2Proof.Tests
end

