-- ==== Sys2Proof/Proofs/AddressErrors.lean ====
section
/-! PROOFS. What an erroneous access answers (R4, R27, R308): the reads of a counter and of a capture register after they are
written, the effect of a decode error, and `AddressErrors`. -/

namespace Sys2Proof.Machine.Node

open Sys2Proof (Word Page)
open Sys2Proof.Safety

/-! Reads after a counted field, and at the end of a command. -/

theorem flag_congr_reg {n m : Node} {p : Page} {f : Field} {i : Nat} (h : m.reg p f.off i = n.reg p f.off i) :
    m.flag p f i = n.flag p f i := by
  rw [flag, flag, fld, fld, h]

@[simp] theorem settle_flag (n : Node) (p : Page) (f : Field) (i : Nat) : n.settle.flag p f i = n.flag p f i :=
  flag_congr_reg (settle_reg ..)

/-- A counter reads one count more, and stands at its largest value once it is full. -/
theorem fld_bump_same (n : Node) (p : Page) (f : Field) (c i : Nat) (h : f.hi < 32) :
    (n.bump p f c i).fld p f i = Nat.min (n.fld p f i + c) (2 ^ (f.hi + 1 - f.lo) - 1) := by
  have hmin := Nat.min_le_right (n.fld p f i + c) (2 ^ (f.hi + 1 - f.lo) - 1)
  have hpos : 0 < 2 ^ (f.hi + 1 - f.lo) := by positivity
  rw [bump, fld_setFld_same _ _ _ _ _ h]
  exact Nat.mod_eq_of_lt (lt_of_le_of_lt hmin (by omega))

theorem reg_bump_ne (n : Node) {p q : Page} {f : Field} {off i j : Nat} (c : Nat)
    (h : regKey q off j ≠ regKey p f.off i) : (n.bump p f c i).reg q off j = n.reg q off j := by
  rw [bump, reg_setFld, if_neg h]

/-! A decode error counts in MTX.DECERR, and the first is captured in MTX.ERRADDR and MTX.ERRINFO (R27). -/

/-- The count alone leaves both registers of the capture as they were. -/
theorem reg_bump_decerr {n : Node} {off : Nat} (h : regKey mtxPage off 0 ≠ regKey mtxPage Fld.mtxDecerrDecode.off 0) :
    (n.bump mtxPage Fld.mtxDecerrDecode).reg mtxPage off = n.reg mtxPage off :=
  reg_bump_ne n 1 h

theorem flag_errinfoValid_bump_decerr (n : Node) :
    (n.bump mtxPage Fld.mtxDecerrDecode).flag mtxPage Fld.mtxErrinfoValid = n.flag mtxPage Fld.mtxErrinfoValid :=
  flag_congr_reg (reg_bump_decerr (by decide))

/-- With a capture held, a decode error counts and does no more. -/
theorem countDecode_of_valid {n : Node} (h : n.flag mtxPage Fld.mtxErrinfoValid = true) (master a : Nat) :
    n.countDecode master a = n.bump mtxPage Fld.mtxDecerrDecode := by
  rw [countDecode, flag_errinfoValid_bump_decerr, if_pos h]

/-- With none held, it captures the address, the master and the valid bit besides. -/
theorem countDecode_of_not_valid {n : Node} (h : n.flag mtxPage Fld.mtxErrinfoValid = false) (master a : Nat) :
    n.countDecode master a =
      ((n.bump mtxPage Fld.mtxDecerrDecode).setReg mtxPage 0x048 (BitVec.ofNat 32 a)).setReg mtxPage 0x04C
        (BitVec.ofNat 32 (2 ^ 16 + master % 32 * 256 + a / 2 ^ 32 % 256)) := by
  rw [countDecode, flag_errinfoValid_bump_decerr, h, if_neg Bool.false_ne_true]

theorem fld_decerr_countDecode (n : Node) (master a : Nat) :
    (n.countDecode master a).fld mtxPage Fld.mtxDecerrDecode =
      Nat.min (n.fld mtxPage Fld.mtxDecerrDecode + 1) 65535 := by
  have hcount := fld_bump_same n mtxPage Fld.mtxDecerrDecode 1 0 (by decide)
  cases h : n.flag mtxPage Fld.mtxErrinfoValid with
  | true => rw [countDecode_of_valid h]; exact hcount
  | false =>
    rw [countDecode_of_not_valid h, fld_setReg_ne _ _ _ _ _ _ _ _ (by decide), fld_setReg_ne _ _ _ _ _ _ _ _ (by decide)]
    exact hcount

/-- MTX.ERRADDR keeps the address of a capture that is held, and takes this one's where none is. -/
theorem reg_erraddr_countDecode (n : Node) (master a : Nat) :
    (n.countDecode master a).reg mtxPage 0x048 =
      if n.flag mtxPage Fld.mtxErrinfoValid then n.reg mtxPage 0x048 else BitVec.ofNat 32 a := by
  cases h : n.flag mtxPage Fld.mtxErrinfoValid with
  | true => rw [countDecode_of_valid h, if_pos rfl, reg_bump_decerr (by decide)]
  | false =>
    rw [countDecode_of_not_valid h, reg_setReg, if_neg (by decide), reg_setReg, if_pos rfl, if_neg Bool.false_ne_true]

/-- The word that MTX.ERRINFO captures has its valid bit set, whatever the master and the address. -/
theorem wordField_errinfo_valid (master a : Nat) :
    wordField (BitVec.ofNat 32 (2 ^ 16 + master % 32 * 256 + a / 2 ^ 32 % 256)) Fld.mtxErrinfoValid = 1 := by
  simp only [wordField, Fld.mtxErrinfoValid, BitVec.toNat_ofNat]
  omega

theorem flag_errinfoValid_countDecode (n : Node) (master a : Nat) :
    (n.countDecode master a).flag mtxPage Fld.mtxErrinfoValid = true := by
  cases h : n.flag mtxPage Fld.mtxErrinfoValid with
  | true => rw [countDecode_of_valid h, flag_errinfoValid_bump_decerr, h]
  | false =>
    have hword : ((n.countDecode master a).reg mtxPage Fld.mtxErrinfoValid.off) =
        BitVec.ofNat 32 (2 ^ 16 + master % 32 * 256 + a / 2 ^ 32 % 256) := by
      rw [countDecode_of_not_valid h]
      exact (reg_setReg ..).trans (if_pos rfl)
    rw [flag, fld, hword, wordField_errinfo_valid]
    rfl

theorem onlyIn_countDecode (n : Node) (master a : Nat) : OnlyIn [.regs] n (n.countDecode master a) := by
  have hcount := onlyIn_bump n mtxPage Fld.mtxDecerrDecode 1 0
  cases h : n.flag mtxPage Fld.mtxErrinfoValid with
  | true => rw [countDecode_of_valid h]; exact hcount
  | false =>
    rw [countDecode_of_not_valid h]
    exact (hcount.trans (onlyIn_setReg _ _ _ _ _)).trans (onlyIn_setReg _ _ _ _ _)

theorem regsIn_countDecode (n : Node) (master a : Nat) : RegsIn [mtxPage] n (n.countDecode master a) := by
  have hcount := regsIn_bump n (p := mtxPage) Fld.mtxDecerrDecode 1 0 (by decide)
  cases h : n.flag mtxPage Fld.mtxErrinfoValid with
  | true => rw [countDecode_of_valid h]; exact hcount
  | false =>
    rw [countDecode_of_not_valid h]
    exact (hcount.trans (regsIn_setReg _ _ _ _ (by decide))).trans (regsIn_setReg _ _ _ _ (by decide))

/-! An access of one byte meets a poisoned burst where the burst of its address is poisoned. -/

theorem burstPoisoned_one {n : Node} {a : Nat} (h : a / 64 ∈ n.dram.poisoned) : n.burstPoisoned a 1 = true := by
  rw [burstPoisoned, List.any_eq_true]
  exact ⟨a / 64, h, decide_eq_true (by omega)⟩

end Sys2Proof.Machine.Node

namespace Sys2Proof.Safety

open Sys2Proof (Word Page)
open Sys2Proof.Machine

theorem Answers.mono {i : Instr} {s : State} {P Q : Node → Prop} (h : Answers i s P) (hPQ : ∀ m, P m → Q m) :
    Answers i s Q := by
  obtain ⟨t, hexec, hpending, hP⟩ := h
  exact ⟨t, hexec, hpending, hPQ _ hP⟩

/-- A frame without the Sill island keeps a running hub free of a fatal fault, so the end of a command keeps the frame. -/
theorem OnlyIn.settle_of_alive {ps : List Part} {n m : Node} (h : OnlyIn ps n m) (hs : Part.sil ∉ ps)
    (ha : n.alive = true) : OnlyIn ps n m.settle := by
  obtain ⟨-, -, -, hfatal⟩ := (alive_iff n).mp ha
  have hsil : m.sil = n.sil := h .sil hs
  exact h.settle (by rw [hsil, hfatal])

/-- An error response after a change of registers. -/
theorem OnlyIn.then_respond {n m : Node} (h : OnlyIn [.regs] n m) (ok : Bool) (w : Word) :
    OnlyIn [.regs, .rsp] n (m.respond ok w) :=
  (h.mono (by simp)).trans ((onlyIn_respond m ok w).mono (by simp))

/-- The error response of R27: data 0, a count in MTX.DECERR, and a capture that the first decode error alone makes. -/
def DecodeErrorAnswered (a : Nat) (n m : Node) : Prop :=
  m.rsp.ok = false ∧ m.rsp.data = 0 ∧
  m.fld mtxPage Fld.mtxDecerrDecode = Nat.min (n.fld mtxPage Fld.mtxDecerrDecode + 1) 65535 ∧
  m.reg mtxPage 0x048 = (if n.flag mtxPage Fld.mtxErrinfoValid then n.reg mtxPage 0x048 else BitVec.ofNat 32 a) ∧
  m.flag mtxPage Fld.mtxErrinfoValid = true ∧ RegsIn [mtxPage] n m ∧ OnlyIn [.regs, .rsp] n m

theorem decodeErrorAnswered_settle {n : Node} (ha : n.alive = true) (src : Src) (a : Nat) :
    DecodeErrorAnswered a n (n.decodeError src a).settle := by
  have hregs : (n.decodeError src a).regs = (n.countDecode (Node.masterNum src) a).regs := rfl
  have hfld := Node.fld_congr hregs
  have hreg := Node.reg_congr hregs
  refine ⟨?ok, ?data, ?decerr, ?erraddr, ?valid, ?regs, ?frame⟩
  case ok => rw [Node.settle_rsp]; rfl
  case data => rw [Node.settle_rsp]; rfl
  case decerr => rw [Node.settle_fld, hfld, Node.fld_decerr_countDecode]
  case erraddr => rw [Node.settle_reg, hreg, Node.reg_erraddr_countDecode]
  case valid => rw [Node.settle_flag, Node.flag_congr_reg (hreg ..), Node.flag_errinfoValid_countDecode]
  case regs => exact ((Node.regsIn_countDecode n _ a).trans (RegsIn.of_eq _ hregs)).settle
  case frame => exact ((Node.onlyIn_countDecode n _ a).then_respond false 0).settle_of_alive (by decide) ha

/-- DECODE_ERROR_ACCESS of an address that no target holds (R27). -/
theorem decodeErrorAccess_of_none {n : Node} {a : Nat} (h : n.decode a = .none) (src : Src) (write : Bool) :
    decodeErrorAccess n src a write = n.decodeError src a := by
  have herr : n.erroneous false write a = true := by simp [Node.erroneous, h]
  rw [decodeErrorAccess, if_pos herr]

/-- ABSENT_DIE_ACCESS of an address that an absent die would hold (R4). -/
theorem absentDieAccess_of_absent {n : Node} {a : Nat} (h : n.decode a = .absent) (src : Src) (write : Bool) :
    absentDieAccess n src a write = n.decodeError src a := by
  have herr : n.erroneous true write a = true := by simp [Node.erroneous, h]
  rw [absentDieAccess, if_pos herr]

/-- POISONED_BURST_READ of a master that is neither a stream engine nor the delay-line mover (R308). -/
theorem poisonedBurstRead_other {n : Node} {a : Nat} (h : a / 64 ∈ n.dram.poisoned) :
    poisonedBurstRead n .other a = (n.bump drmPage Fld.drmPoisonReads).respond false 0 := by
  simp [poisonedBurstRead, Node.burstPoisoned_one h]

theorem answers_decodeErrorAccess {s : State} {a : Nat} (ha : s.node.alive = true) (h : s.node.decode a = .none)
    (src : Src) (write : Bool) : Answers (.decodeErrorAccess src a write) s (DecodeErrorAnswered a s.node) :=
  answers_hub (f := fun n => decodeErrorAccess n src a write) rfl ha
    (by rw [decodeErrorAccess_of_none h]; exact decodeErrorAnswered_settle ha src a)

theorem answers_absentDieAccess {s : State} {a : Nat} (ha : s.node.alive = true) (h : s.node.decode a = .absent)
    (src : Src) (write : Bool) : Answers (.absentDieAccess src a write) s (DecodeErrorAnswered a s.node) :=
  answers_hub (f := fun n => absentDieAccess n src a write) rfl ha
    (by rw [absentDieAccess_of_absent h]; exact decodeErrorAnswered_settle ha src a)

/-- A read of a poisoned burst counts in DRM.POISON and is answered by an error with data 0 (R308). -/
theorem answers_poisonedBurstRead_other {s : State} {a : Nat} (ha : s.node.alive = true)
    (h : a / 64 ∈ s.node.dram.poisoned) :
    Answers (.poisonedBurstRead .other a) s (fun m =>
      m.rsp.ok = false ∧ m.rsp.data = 0 ∧
      m.fld drmPage Fld.drmPoisonReads = Nat.min (s.node.fld drmPage Fld.drmPoisonReads + 1) 65535 ∧
      RegsIn [drmPage] s.node m ∧ OnlyIn [.regs, .rsp] s.node m) := by
  refine answers_hub (f := fun n => poisonedBurstRead n .other a) rfl ha ?_
  have hregs := Node.respond_regs (s.node.bump drmPage Fld.drmPoisonReads) false 0
  rw [poisonedBurstRead_other h]
  refine ⟨?ok, ?data, ?count, ?regs, ?frame⟩
  case ok => rw [Node.settle_rsp]; rfl
  case data => rw [Node.settle_rsp]; rfl
  case count =>
    rw [Node.settle_fld, Node.fld_congr hregs]
    exact Node.fld_bump_same s.node drmPage Fld.drmPoisonReads 1 0 (by decide)
  case regs => exact ((regsIn_bump s.node _ 1 0 (by decide)).trans (RegsIn.of_eq _ hregs)).settle
  case frame => exact ((onlyIn_bump s.node drmPage _ 1 0).then_respond false 0).settle_of_alive (by decide) ha

/-- Settles O12: an address that nothing holds and one of an absent die end in the same decode error, and a poisoned burst in
an error response of its own. -/
theorem addressErrors : Obligations.AddressErrors := by
  unfold Obligations.AddressErrors
  intro s src a write ha
  refine ⟨fun hnone => ?_, fun habsent => ?_, fun hpoisoned => ?_⟩
  · exact answers_decodeErrorAccess ha hnone src write
  · refine (answers_absentDieAccess ha habsent src write).mono ?_
    rintro m ⟨hok, hdata, hcount, -, hvalid, hregs, hframe⟩
    exact ⟨hok, hdata, hcount, hvalid, hregs, hframe⟩
  · exact answers_poisonedBurstRead_other ha hpoisoned

end Sys2Proof.Safety
end

