-- ==== Sys2Proof/Proofs/MailboxSlots.lean ====
section
/-! PROOFS. A response of DIRECTORY to a slot that is not BUSY (R46, R47): the slot is left alone, and yet the free value that
chose the records is used up, so that `MailboxSlots` fails. -/

namespace Sys2Proof.Machine

open Sys2Proof (Word Page)

/-- A response to a slot that is not BUSY is discarded (R47). -/
theorem Node.answer_of_idle {n : Node} {slot : Fin 4} (h : n.slotBusy slot = false) (code : Nat) (detail : Option Nat)
    (data : List Word) : n.answer slot code detail data = n := by
  rw [Node.answer, h, if_neg Bool.false_ne_true]

/-- No table limits the payload of DIRECTORY's commands. -/
theorem Node.lengthBad_of_directory {n : Node} {slot : Nat}
    (h : (n.reg mgtPage (requestOff slot)).toNat / 2 ^ 24 = 5) : n.lengthBad slot = false := by
  simp only [Node.lengthBad, h, lengthLimits]

/-- An OK answer of DIRECTORY draws its first record from the free values before the slot is looked at
(notes/assumptions/158.md). -/
theorem mailboxResponse_of_directory {n : Node} {slot : Fin 4} (hrun : n.mgmt.running = true)
    (hservice : (n.reg mgtPage (requestOff slot)).toNat / 2 ^ 24 = 5) (hdir : n.cfg.directory ≠ []) (detail : Nat)
    (data : List Word) :
    mailboxResponse n slot okCode detail data =
      n.fresh.2.answer slot okCode detail (directoryWords n data.length).1 := by
  have hknown : knownService 5 = true := by decide
  have hcommand (command : Nat) : knownCommand 5 command = true := rfl
  simp only [mailboxResponse, Node.serve, hrun, hservice, hknown, hcommand, Node.lengthBad_of_directory hservice, hdir,
    if_true, Bool.not_true, Bool.false_eq_true, if_false, ne_eq, not_false_eq_true, and_self]
  rfl

/-- So the response that is discarded has used up a free value. -/
theorem mailboxResponse_of_directory_idle {n : Node} {slot : Fin 4} (hrun : n.mgmt.running = true)
    (hservice : (n.reg mgtPage (requestOff slot)).toNat / 2 ^ 24 = 5) (hdir : n.cfg.directory ≠ [])
    (hidle : n.slotBusy slot = false) (detail : Nat) (data : List Word) :
    mailboxResponse n slot okCode detail data = n.fresh.2 := by
  have hidle' : n.fresh.2.slotBusy slot = false := hidle
  rw [mailboxResponse_of_directory hrun hservice hdir, Node.answer_of_idle hidle']

end Sys2Proof.Machine

namespace Sys2Proof.Safety

open Sys2Proof.Machine

/-- A directory master of one record, with a request of DIRECTORY (SERVICE 5, COMMAND 1) in the buffer of slot 0 that is not
in service: BUSY is clear. -/
def directoryIdle : State :=
  { node := ({ mgmt := { running := true }, cfg := { directory := [(0x400000, 7)] } } : Node).setReg
      mgtPage (requestOff (0 : Fin 4)) 0x05010000 }

theorem directoryIdle_alive : directoryIdle.node.alive = true := rfl

theorem directoryIdle_idle : directoryIdle.node.slotBusy (0 : Fin 4) = false := by
  rw [Node.slotBusy, directoryIdle, Node.fld_setReg_ne _ _ _ _ _ _ _ _ (by decide)]
  rfl

theorem directoryIdle_service : (directoryIdle.node.reg mgtPage (requestOff (0 : Fin 4))).toNat / 2 ^ 24 = 5 := by
  rw [directoryIdle, Node.reg_setReg, if_pos rfl]
  rfl

/-- An OK response that the firmware writes late for that slot leaves the count of free values one higher. -/
theorem directoryIdle_lateResponse :
    exec (.mailboxResponse 0 okCode 0 []) directoryIdle =
      .next { directoryIdle with node := directoryIdle.node.fresh.2.settle } := by
  have hexec : exec (.mailboxResponse 0 okCode 0 []) directoryIdle =
      directoryIdle.hub (fun n => mailboxResponse n 0 okCode 0 []) := rfl
  rw [hexec, hub_eq directoryIdle_alive,
    mailboxResponse_of_directory_idle rfl directoryIdle_service (List.cons_ne_nil _ _) directoryIdle_idle]

/-- Refutes O38: the clause on a response to a slot that is not BUSY lets no part change, but a discarded OK response of
DIRECTORY takes a free value for the record that it would have returned. The slot itself is left alone, as R47 asks. -/
theorem not_mailboxSlots : ¬ Obligations.MailboxSlots := by
  unfold Obligations.MailboxSlots
  intro h
  obtain ⟨-, hdiscarded, -⟩ := h directoryIdle 0 directoryIdle_alive
  obtain ⟨after, hexec, -, hframe⟩ := hdiscarded okCode 0 [] directoryIdle_idle
  obtain rfl : _ = after := Host.Outcome.next.inj (directoryIdle_lateResponse.symm.trans hexec)
  have hfree : directoryIdle.node.fresh.2.settle.free = directoryIdle.node.free := hframe .free (List.not_mem_nil)
  rw [Node.settle_free] at hfree
  exact absurd hfree (by decide)

end Sys2Proof.Safety
end
